-- ==== Sys2Proof/Word.lean ====
section
/-! DEFINITION. The byte and the arbitration key: the two things the spec treats as bits. -/

namespace Sys2Proof

/-- One byte of the host link, of a frame payload or of a tag record. -/
abbrev Byte := BitVec 8

/-- The arbitration key of R24: kind rank (3 bits), kind value (12 bits), source (5 bits). -/
abbrev ArbKey := BitVec 20

end Sys2Proof
end

