-- ==== Sys2Proof/Config.lean ====
section
/-! DEFINITION. The capacities the chapters fix, and the free value of the model. -/

namespace Sys2Proof.Config

/-- Records in the custody table (R1). -/
def custodyCap : Nat := 96
/-- Frames in the transmit queue (R35). -/
def txCap : Nat := 8
/-- Frames in the receive pool (R33). -/
def poolCap : Nat := 4
/-- Seek entries, offer entries, lapsed items and taken items (R50, R57, R58). -/
def seekCap : Nat := 8
/-- Stations in an exclusion list (R51). -/
def exclCap : Nat := 4
/-- Entries of an expectation queue (R193). -/
def expectCap : Nat := 8
/-- Tags in the arrival FIFO (R164) and stamps in each cross-check list (R167). -/
def fifoCap : Nat := 8
/-- Duties in the duty list (R170). -/
def dutyCap : Nat := 256
/-- Notices in the notice queue (R219). -/
def noticeCap : Nat := 32
/-- Bytes in the host link's receive buffer (R208). -/
def rxBufCap : Nat := 256
/-- The largest stock amount, 2^32 - 1 hundredths (R114). -/
def maxStock : Nat := 4294967295
/-- The forward slack of a spare bus (R77). -/
def spareSlack : Nat := 1439

/-- FREE VALUE (log 8): the fleet in the CANCEL that answers a PUSH OFFER whose seek number was never given
for a bus; R72 states the fleet "that the seek number was given for" and is silent on this case.
Its argument is a counter of the model, so that no two uses are known to agree. -/
opaque freeFleet : Nat → BitVec 12

end Sys2Proof.Config
end

