-- ==== Sys2Proof/Syntax.lean ====
section
/-! DEFINITION. The names of the spec's enumerations and the commands: one constructor of Instr for every row of
spec/opcode_table.json. The table gives its rows no operands; the operands here are the model's (log 2). -/

namespace Sys2Proof.Machine

/-- Fuel type (chapter 1, table of R1's record). -/
inductive Fuel where
  | diesel | gas | noFuel
  deriving DecidableEq, Repr

/-- Wash programme, NONE included. -/
inductive Prog where
  | noWash | rinse | standard | full
  deriving DecidableEq, Repr

/-- A service of an itinerary or a seek. -/
inductive Service where
  | fuel | wash | berth | exit
  deriving DecidableEq, Repr

/-- The eight kinds of point (R190). -/
inductive PointKind where
  | gateIn | gateOut | apronIn | bay | washIn | washOut | laneIn | laneOut
  deriving DecidableEq, Repr

/-- Line rate in the layout (R213). -/
inductive LineRate where
  | r31 | r62 | r125
  deriving DecidableEq, Repr

/-- The five flags of the line error summary (R40), in the order of the table. -/
inductive LineFlag where
  | poolFull | txFail | rxMalformed | noTaker | unrelated
  deriving DecidableEq, Repr

/-- The parameters of SET PARAMETER, in the order of the table of R216. -/
inductive Param where
  | wB | wS | gEmpty | spareRelease | offerHold | answerTime | attempts | holdInterval | retry | travel
  | rowPeriod | debounce
  deriving DecidableEq, Repr

/-- A seek reference: the station that raised the seek and its seek number (R49). -/
structure SeekRef where
  station : Nat
  number : Nat
  deriving DecidableEq, Repr

/-- A frame's fields 2 to 9 (R26): the header and the payload bytes. The length field is the number of payload bytes;
start mark, CRC and stuffed bits come with its form on the line (R225). -/
structure RawFrame where
  rank : BitVec 3
  value : BitVec 12
  source : BitVec 5
  dest : BitVec 6
  seekStation : BitVec 5
  seekNumber : BitVec 8
  payload : List Byte
  deriving DecidableEq, Repr

/-- The offer entry a timer belongs to: its seek reference and its fleet (R56, R57). -/
structure OfferId where
  ref : SeekRef
  fleet : Nat
  deriving DecidableEq, Repr

/-- The handover a timer belongs to: a PUSH seek entry by its seek number, or an EXIT offer entry by its seek
reference and fleet (R59, R69). -/
inductive HandoverId where
  | push (number : Nat)
  | exit (ref : SeekRef) (fleet : Nat)
  deriving DecidableEq, Repr

/-- What a station has of a followed frame that is damaged (R37): the bits of a complete frame from its start mark
through its CRC, stuffed bits included, with the level of its check slot (true: driven dominant by another station), or
a frame cut off, the line having stayed recessive for the interframe gap. -/
inductive Damage where
  | complete (bits : List Bool) (slotDriven : Bool)
  | cutOff
  deriving DecidableEq, Repr

/-- The three plant inputs of a wash lane (R226). -/
inductive PlantInput where
  | busy | done | fault
  deriving DecidableEq, Repr

/-- The fields of SET STATION (R213); none stands for a field given absent. -/
structure StationFields where
  number : Option Nat
  area1 : Option Nat
  area2 : Option Nat
  rate : Option LineRate
  seekFuel : Option Nat
  seekWash : Option Nat
  seekBerth : Option Nat
  seekExit : Option Nat
  deriving DecidableEq, Repr

/-- The fields of ADD LANE (R216). -/
structure LaneFields where
  number : Option Nat
  depth : Option Nat
  mask : Option (BitVec 8)
  area : Option Nat
  bias : Option Nat
  deriving DecidableEq, Repr

/-- The fields of ADD PUMP (R216). -/
structure PumpFields where
  index : Option Nat
  fuel : Option Fuel
  pulses : Option Nat
  rate : Option Nat
  maxTurn : Option Nat
  deriving DecidableEq, Repr

/-- The fields of SET ISLAND (R216). -/
structure IslandFields where
  capacity : Option Nat
  area : Option Nat
  bias : Option Nat
  reserveDiesel : Option Nat
  reserveGas : Option Nat
  horizon : Option Nat
  minFill : Option Nat
  levelStep : Option Nat
  aging : Option Nat
  callTimeout : Option Nat
  maxSkips : Option Nat
  noFlow : Option Nat
  deriving DecidableEq, Repr

/-- The fields of ADD WASH (R216). R207 sends the set of programmes as a bit mask and gives its bits no
order; the model takes bit 0 RINSE, bit 1 STANDARD, bit 2 FULL (DESIGN CHOICE, log 53). -/
structure WashFields where
  index : Option Nat
  area : Option Nat
  bias : Option Nat
  enabled : Option (BitVec 3)
  nomRinse : Option Nat
  nomStandard : Option Nat
  nomFull : Option Nat
  alpha : Option Nat
  margin : Option Nat
  startTimeout : Option Nat
  callTimeout : Option Nat
  maxSkips : Option Nat
  depth : Option Nat
  deriving DecidableEq, Repr

/-- The fields of SET GATE (R216). -/
structure GateFields where
  reader : Option Nat
  poll : Option Nat
  window : Option Nat
  refuel : Option Nat
  defaultMin : Option Nat
  callLead : Option Nat
  grace : Option Nat
  deriving DecidableEq, Repr

/-- The fields of MAP POINT (R216). -/
structure PointFields where
  row : Option Nat
  col : Option Nat
  kind : Option PointKind
  index : Option Nat
  dwell : Option Nat
  repeats : Option Bool
  deriving DecidableEq, Repr

/-- The six bus fields of a tag, an ADMIT or a PLACE PARKED (R164, R110). -/
structure BusFields where
  fleet : Nat
  cls : Nat
  fuel : Fuel
  capacity : Nat
  level : Nat
  wash : Prog
  deriving DecidableEq, Repr

/-- The fields of LOAD DUTY (R172). -/
structure DutyFields where
  number : Nat
  release : Nat
  mask : BitVec 8
  fuel : Fuel
  minLevel : Option Nat
  fleet : Option Nat
  deriving DecidableEq, Repr

/-- The five selections of CLEAR FLAGS (R218). Bit k of flags names the flag at position k of R40's table. -/
structure ClearFields where
  flags : BitVec 5
  line : Bool
  station : Bool
  cost : Bool
  lost : Bool
  deriving DecidableEq, Repr

end Sys2Proof.Machine

namespace Sys2Proof

open Sys2Proof.Machine

/-- The commands and events: one constructor for every row of spec/opcode_table.json, in the table's order. -/
inductive Instr where
  | setStation (f : StationFields)
  | addLane (f : LaneFields)
  | addPump (f : PumpFields)
  | setIsland (f : IslandFields)
  | addWash (f : WashFields)
  | setGate (f : GateFields)
  | mapPoint (f : PointFields)
  | setParameter (p : Param) (value : Nat)
  | lock
  | setClock (minute seconds : Nat)
  | placeParked (lane : Nat) (bus : BusFields)
  | setStock (fuel : Fuel) (value : Nat)
  | loadDuty (f : DutyFields)
  | start
  | dropDuty (duty : Nat)
  | delivery (fuel : Fuel) (amount : Nat)
  | closeLane (lane : Nat)
  | openLane (lane : Nat)
  | reopenPump (pump : Nat)
  | reopenWash (wash : Nat)
  | admitBus (bus : BusFields)
  | resolveAtPoint (fleet : Nat) (kind : PointKind) (index : Nat)
  | resolveReseek (fleet : Nat)
  | resolveLeftYard (fleet : Nat)
  | readRecord (fleet : Nat)
  | readLane (lane : Nat)
  | readApron
  | readWashQueue (wash : Nat)
  | readDuty (duty : Nat)
  | readDuties
  | readSeekTable
  | readCounters
  | readLineSummary
  | readStatus
  | clearFlags (f : ClearFields)
  | takeNotice
  | reset
  | unknownCommandCode (code : Byte)
  | resetAfterAnswer
  | hostByteReceived (byte : Byte) (framingFault : Bool)
  | hostInterbyteTimeout
  | hostAnswerSent
  | resetPinAsserted
  | resetPinReleased
  | powerUp
  | opening (others : Option ArbKey)
  | frameCarried (bits : List Bool)
  | frameDamaged (cause : Damage)
  | sendDamaged
  | lineFollowBegin
  | seekReceived
  | offerReceived
  | takenReceived
  | holdReceived
  | refuseReceived
  | handoverReceived
  | claimReceived
  | cancelReceived
  | repinReceived
  | timeReceived
  | minuteRollover
  | retryTimerExpiry (number : Nat)
  | offerHoldExpiry (offer : OfferId)
  | awaitingHoldExpiry (number : Nat)
  | answerTimerExpiry (handover : HandoverId)
  | holdIntervalEnd (handover : HandoverId)
  | rowScan (columns : BitVec 8)
  | dwellTimerExpiry (row col : Nat)
  | travelTimeout (fleet : Nat)
  | pumpCallTimeout (pump : Nat)
  | nozzleLift (pump : Nat)
  | nozzleHang (pump : Nat)
  | meterPulse (pump : Nat)
  | noFlowTimeout (pump : Nat)
  | agingTimerExpiry
  | washCallTimeout (wash : Nat)
  | busy (wash : Nat)
  | startTimeout (wash : Nat)
  | done (wash : Nat)
  | fault (wash : Nat)
  | pollTimerExpiry (lineLow : Bool)
  | pollTransactionEnd (sda : List Bool)
  | tagWindowExpiry (arrivals : Bool)
  | signRecordSent
  | plantInputReleased (wash : Nat) (input : PlantInput)
  | i2cStartStopSeen (start : Bool)
  | secondsCount
  deriving DecidableEq, Repr

end Sys2Proof
end

