-- ==== Sys2Proof/Machine/State.lean ====
section
/-! DEFINITION. The state of one DZ420 station as plain data, its reasons to stop (there are none the machine uses),
and the state right after reset. The parts a bus event can change stand together in Yard; the phase, the layout,
the clock, the loop scanner and the host link stand beside it in State. -/

namespace Sys2Proof.Machine

/-- The reasons a step can stop with a fault: none. No rule of the spec stops the machine: a host command that cannot
be carried out is refused with an answer (R209), a bad frame or host record is counted and discarded (R37, R39, R208),
and a failed pump or wash lane goes OUT (R131, R152). Having no fault is safe: nothing is hidden behind one. -/
inductive Fault where
  deriving DecidableEq, Repr

/-- Refusals of the MODEL (a command the station refuses gets an answer, R209, and a next state). -/
inductive Refusal where
  /-- Raised by the dispatch for a command that has no meaning yet; safe. Every command has one. -/
  | notModelled (mnemonic : String)
  deriving DecidableEq, Repr

/-! ## Layout (R212 to R216) -/

/-- SET STATION's item (R213). -/
structure StationCfg where
  number : Nat
  area1 : Nat
  area2 : Option Nat
  rate : LineRate
  seekFuel : Nat
  seekWash : Nat
  seekBerth : Nat
  seekExit : Nat
  deriving DecidableEq, Repr

/-- ADD LANE's item (R92). -/
structure LaneCfg where
  number : Nat
  depth : Nat
  mask : BitVec 8
  area : Nat
  bias : Nat
  deriving DecidableEq, Repr

/-- ADD PUMP's item (R115). -/
structure PumpCfg where
  index : Nat
  fuel : Fuel
  pulses : Nat
  rate : Nat
  maxTurn : Nat
  deriving DecidableEq, Repr

/-- SET ISLAND's values (R114). -/
structure IslandCfg where
  capacity : Nat
  area : Nat
  bias : Nat
  reserveDiesel : Nat
  reserveGas : Nat
  horizon : Nat
  minFill : Nat
  levelStep : Nat
  aging : Nat
  callTimeout : Nat
  maxSkips : Nat
  noFlow : Nat
  deriving DecidableEq, Repr

/-- ADD WASH's item (R140). -/
structure WashCfg where
  index : Nat
  area : Nat
  bias : Nat
  enabled : BitVec 3
  nomRinse : Nat
  nomStandard : Nat
  nomFull : Nat
  alpha : Nat
  margin : Nat
  startTimeout : Nat
  callTimeout : Nat
  maxSkips : Nat
  depth : Nat
  deriving DecidableEq, Repr

/-- SET GATE's values (R159). -/
structure GateCfg where
  reader : Nat
  poll : Nat
  window : Nat
  refuel : Nat
  defaultMin : Nat
  callLead : Nat
  grace : Nat
  deriving DecidableEq, Repr

/-- MAP POINT's item (R190). -/
structure PointCfg where
  row : Nat
  col : Nat
  kind : PointKind
  index : Nat
  dwell : Nat
  repeats : Bool
  deriving DecidableEq, Repr

/-- The values of SET PARAMETER, with the defaults of R216. -/
structure Params where
  wB : Nat := 8
  wS : Nat := 2
  gEmpty : Nat := 240
  spareRelease : Nat := 1439
  offerHold : Nat := 2
  answerTime : Nat := 200
  attempts : Nat := 3
  holdInterval : Nat := 2
  retry : Nat := 30
  travel : Nat := 8
  rowPeriod : Nat := 4
  debounce : Nat := 4
  deriving DecidableEq, Repr

/-- A layout: as entered (the layout store) or as fixed by LOCK. The lists are strictly rising by their item's key. -/
structure Layout where
  station : Option StationCfg := none
  lanes : List LaneCfg := []
  pumps : List PumpCfg := []
  island : Option IslandCfg := none
  washes : List WashCfg := []
  gate : Option GateCfg := none
  points : List PointCfg := []
  params : Params := {}
  deriving DecidableEq, Repr

/-! ## Custody (chapter 1) -/

/-- Fuel mark, in the order of R1's table: NONE, FULL, PARTIAL, DEFERRED. -/
inductive FuelMark where
  | unmarked | full | partly | deferred
  deriving DecidableEq, Repr

/-- Wash mark, in the order of R1's table: NONE, DONE, SKIPPED, ABORTED. -/
inductive WashMark where
  | unmarked | done | skipped | aborted
  deriving DecidableEq, Repr

/-- The twelve record states, in the order of the table of 1.3. -/
inductive RecState where
  | arrived | seeking | handing | expected | queued | called | inService | served | parked | outbound | stray
  | adrift
  deriving DecidableEq, Repr

/-- Where the bus is at this station (R7). -/
inductive Loc where
  | gate | apron | pump (p : Nat) | wash (w : Nat) | lane (l : Nat) | nowhere
  deriving DecidableEq, Repr

/-- Duty and release, present together (R4). -/
structure Pin where
  duty : Nat
  release : Nat
  deriving DecidableEq, Repr

/-- The carried fields of a record (R1's table, R2). -/
structure Carried where
  fleet : Nat
  cls : Nat
  fuel : Fuel
  capacity : Nat
  level : Nat
  fuelMark : FuelMark
  wash : Prog
  washMark : WashMark
  pin : Option Pin
  itinerary : List Service
  arrival : Nat
  deriving DecidableEq, Repr

/-- A bus record: carried fields and the station-local state and location. -/
structure Record where
  bus : Carried
  state : RecState
  loc : Loc
  deriving DecidableEq, Repr

/-! ## Frames and the line interface (chapter 2) -/

/-- Destination of a frame (R26). -/
inductive Dest where
  | station (n : Nat) | fuelGroup | washGroup | berthGroup | all
  deriving DecidableEq, Repr

/-- The bus summary of a PUSH SEEK (R26). -/
structure BusSummary where
  fleet : Nat
  cls : Nat
  fuel : Fuel
  capacity : Nat
  level : Nat
  wash : Prog
  release : Option Nat
  deriving DecidableEq, Repr

/-- The duty summary of a PULL SEEK (R26). -/
structure DutySummary where
  duty : Nat
  release : Nat
  mask : BitVec 8
  fuel : Fuel
  minLevel : Nat
  pinned : Option Nat
  deriving DecidableEq, Repr

/-- What a SEEK asks for: PUSH for a bus, PULL for a duty. -/
inductive Summary where
  | push (service : Service) (bus : BusSummary)
  | pull (duty : DutySummary)
  deriving DecidableEq, Repr

/-- The three answers to a HANDOVER. -/
inductive Answer where
  | taken | hold | refuse
  deriving DecidableEq, Repr

/-- The ten kinds of frame with what each carries (R26). -/
inductive Body where
  | offer (cost : Nat) (service : Service) (area : Nat) (fleet : Option Nat)
  | answer (a : Answer) (fleet : Nat)
  | claim (fleet : Nat)
  | handover (bus : Carried)
  | cancel (fleet : Nat)
  | seek (area : Nat) (excl : List Nat) (what : Summary)
  | repin (fleet : Nat) (pin : Option Pin)
  | time (minute : Nat)
  deriving DecidableEq, Repr

/-- A well-formed frame. -/
structure Frame where
  source : Nat
  dest : Dest
  ref : SeekRef
  body : Body
  deriving DecidableEq, Repr

/-- A request of a block to send a frame. A request names what is to be sent; the frame's content is formed when it
enters the transmit queue (R35). -/
inductive TxReq where
  | seek (number : Nat)
  | handover (number : Nat)
  | exitHandover (ref : SeekRef) (fleet : Nat)
  | offer (ref : SeekRef) (cost : Nat) (service : Service) (area : Nat) (fleet : Option Nat)
  | answer (a : Answer) (dest : Nat) (ref : SeekRef) (fleet : Nat)
  | claim (dest : Nat) (ref : SeekRef) (fleet : Nat)
  | cancel (dest : Nat) (ref : SeekRef) (fleet : Nat)
  | repin (fleet : Nat)
  | time (minute : Nat)
  deriving DecidableEq, Repr

/-- A place of the transmit queue: the frame, the request it came from, its damaged sends, whether it is being sent and
whether it was withdrawn while being sent (R35, R38). -/
structure TxSlot where
  req : TxReq
  frame : Frame
  sends : Nat
  sending : Bool
  withdrawn : Bool
  deriving DecidableEq, Repr

/-- The line error summary (R40). -/
structure LineFlags where
  poolFull : Bool := false
  txFail : Bool := false
  rxMalformed : Bool := false
  noTaker : Bool := false
  unrelated : Bool := false
  deriving DecidableEq, Repr

/-- The nine line counters (R41). -/
structure LineCounters where
  sent : Nat := 0
  received : Nat := 0
  rxLost : Nat := 0
  crcBad : Nat := 0
  malformed : Nat := 0
  txDamaged : Nat := 0
  txDropped : Nat := 0
  offerUnsent : Nat := 0
  timeAdopted : Nat := 0
  deriving DecidableEq, Repr

/-- The line interface (R30 to R42). txBits are the bits of the frame this station sends; checkSlot says that it drove
the check slot of the frame followed last dominant (R37). -/
structure LineIf where
  following : Bool := false
  nextOffer : Option SeekRef := none
  curOffer : Option SeekRef := none
  queue : List TxSlot := []
  waiting : List TxReq := []
  pool : List Frame := []
  txBits : List Bool := []
  checkSlot : Bool := false
  flags : LineFlags := {}
  cnt : LineCounters := {}
  deriving DecidableEq, Repr

/-! ## Seek engine (chapter 3) -/

/-- What a seek is for: a bus with its service (PUSH) or a duty (PULL, service EXIT). -/
inductive Subject where
  | bus (fleet : Nat) (service : Service)
  | duty (number : Nat)
  deriving DecidableEq, Repr

/-- The three phases of a handover (R59). -/
inductive HandPhase where
  | sending | awaiting | pausing
  deriving DecidableEq, Repr

/-- State of a seek entry (R50). -/
inductive SeekState where
  | queued | opened | handing (ph : HandPhase) | awaiting | waitRetry
  deriving DecidableEq, Repr

/-- The winning offer of a round (R50). -/
structure Winner where
  station : Nat
  cost : Nat
  area : Nat
  deriving DecidableEq, Repr

/-- An entry of the seek table (R50). timer is the running timer's time left in milliseconds: retry period, offer
hold, answer time or hold interval, as the state says. -/
structure SeekEntry where
  number : Nat
  subject : Subject
  excl : List Nat := []
  state : SeekState := .queued
  attempts : Nat := 0
  winner : Option Winner := none
  offered : Option Nat := none
  reported : Bool := false
  timer : Option Nat := none
  deriving DecidableEq, Repr

/-- What a station reserves behind an offer (R56). -/
inductive Resource where
  | lane (l : Nat) | apron (f : Fuel) | wash (w : Nat)
  deriving DecidableEq, Repr

/-- State of an offer entry: HELD for PUSH; SENDING (HANDOVER pending or answer awaited) and PAUSED for EXIT. -/
inductive OfferState where
  | held | sending | paused
  deriving DecidableEq, Repr

/-- An entry of the offer table (R56). -/
structure OfferEntry where
  ref : SeekRef
  service : Service
  fleet : Nat
  resource : Resource
  cost : Nat
  state : OfferState
  timer : Option Nat
  attempts : Nat
  deriving DecidableEq, Repr

/-- An item of the lapsed list (R57). -/
structure LapsedItem where
  ref : SeekRef
  service : Service
  resource : Resource
  fleet : Nat
  deriving DecidableEq, Repr

/-- An item of the taken list (R58). -/
structure TakenItem where
  ref : SeekRef
  fleet : Nat
  deriving DecidableEq, Repr

/-- The chosen resource kept with the pending OFFER (R55). -/
structure Choice where
  ref : SeekRef
  service : Service
  fleet : Nat
  resource : Resource
  cost : Nat
  release : Option Nat
  deriving DecidableEq, Repr

/-- The seek engine (R49 to R58). given keeps the fleet each seek number was last given for (R72), strictly rising by
number; freeCount feeds the free value of log 8 and is the model's own. -/
structure SeekEngine where
  counter : Nat := 0
  table : List SeekEntry := []
  given : List (Nat × Nat) := []
  offers : List OfferEntry := []
  lapsed : List LapsedItem := []
  taken : List TakenItem := []
  choice : Option Choice := none
  freeCount : Nat := 0
  deriving DecidableEq, Repr

/-! ## Lane unit (chapter 5) -/

/-- State of a lane position (R94); LEAVING holds its stored release. -/
inductive PosState where
  | parked | calledOut | leaving (release : Option Nat)
  deriving DecidableEq, Repr

/-- A position of a lane. -/
structure Position where
  fleet : Nat
  state : PosState
  deriving DecidableEq, Repr

/-- An entry of a lane's reservation list (R95). -/
structure LaneRes where
  ref : SeekRef
  fleet : Nat
  release : Option Nat
  committed : Bool
  deriving DecidableEq, Repr

/-- A lane (R92). -/
structure Lane where
  cfg : LaneCfg
  closed : Bool := false
  blocked : Bool := false
  positions : List Position := []
  reservs : List LaneRes := []
  deriving DecidableEq, Repr

/-- State of a lane (R93). -/
inductive LaneState where
  | opened | suspended | closed
  deriving DecidableEq, Repr

/-! ## Fuel unit (chapter 6) -/

/-- State of a pump (R115). -/
inductive PumpState where
  | free | calling | occupied | fuelling | finished | out
  deriving DecidableEq, Repr

/-- A pump's turn (R115); sinceCall counts milliseconds. -/
structure Turn where
  fleet : Nat
  level : Nat
  skips : Nat
  target : Nat
  sinceCall : Nat := 0
  pulses : Nat := 0
  dispensed : Nat := 0
  deriving DecidableEq, Repr

/-- A pump (R115, R128). timer is the call timer in CALLING and the no-flow timer in FUELLING, in milliseconds. -/
structure Pump where
  cfg : PumpCfg
  state : PumpState := .free
  turn : Option Turn := none
  enable : Bool := false
  timer : Option Nat := none
  deriving DecidableEq, Repr

/-- An entry of the apron queue (R120). -/
structure ApronEntry where
  fleet : Nat
  fuel : Fuel
  level : Nat
  skips : Nat
  target : Nat
  deriving DecidableEq, Repr

/-- An entry of the apron reservation list (R116). -/
structure ApronRes where
  ref : SeekRef
  fleet : Nat
  fuel : Fuel
  committed : Bool
  deriving DecidableEq, Repr

/-- A stock account (R114). -/
structure Stock where
  stock : Nat := 0
  setTotal : Nat := 0
  dispensed : Nat := 0
  short : Bool := false
  lowReported : Bool := false
  deriving DecidableEq, Repr

/-- The fuel unit. -/
structure FuelUnit where
  pumps : List Pump := []
  queue : List ApronEntry := []
  reservs : List ApronRes := []
  diesel : Stock := {}
  gas : Stock := {}
  aging : Option Nat := none
  deriving DecidableEq, Repr

/-! ## Wash unit (chapter 7) -/

/-- State of a wash lane (R141). -/
inductive WashState where
  | free | calling | loading | starting | washing | draining | out
  deriving DecidableEq, Repr

/-- An entry of a wash queue (R142). -/
structure WashEntry where
  fleet : Nat
  prog : Prog
  skips : Nat
  deriving DecidableEq, Repr

/-- A HELD entry of a wash lane's reservation list (R142). -/
structure WashRes where
  ref : SeekRef
  fleet : Nat
  deriving DecidableEq, Repr

/-- A wash lane (R140, R141). called is the called entry in CALLING, kept while its bus is inside until the wash ends;
timer is the call timer in CALLING and the start timer in STARTING; washMs counts milliseconds from BUSY. -/
structure WashLane where
  cfg : WashCfg
  estRinse : Nat
  estStandard : Nat
  estFull : Nat
  state : WashState := .free
  current : Option Nat := none
  called : Option WashEntry := none
  queue : List WashEntry := []
  reservs : List WashRes := []
  timer : Option Nat := none
  washMs : Nat := 0
  deriving DecidableEq, Repr

/-- The station's view of the three plant inputs of a wash lane (R226). -/
structure PlantView where
  busy : Bool := false
  done : Bool := false
  fault : Bool := false
  deriving DecidableEq, Repr

/-- The wash unit. -/
structure WashUnit where
  lanes : List WashLane := []
  faultList : List Nat := []
  plant0 : PlantView := {}
  plant1 : PlantView := {}
  deriving DecidableEq, Repr

/-! ## Gate unit (chapter 8) -/

/-- An entry of the arrival FIFO (R164). -/
structure FifoEntry where
  bus : BusFields
  admitted : Bool
  deriving DecidableEq, Repr

/-- State of a duty (R170), with the fields its state has. -/
inductive DutyState where
  | unpinned | pinned | calling (pending graceOver : Bool) | outbound (served : Nat)
  deriving DecidableEq, Repr

/-- A duty of the duty list (R170). -/
structure Duty where
  number : Nat
  release : Nat
  mask : BitVec 8
  fuel : Fuel
  minLevel : Nat
  state : DutyState
  deriving DecidableEq, Repr

/-- A pair of the pin table (R171). -/
structure Pair where
  duty : Nat
  fleet : Nat
  deriving DecidableEq, Repr

/-- One item of a transaction on the I2C bus (R160): a condition, or a clock in which the poller sends a bit, leaves SDA to
the reader's acknowledge, or leaves it to a bit of the reader's data. -/
inductive BusItem where
  | start | send (b : Bool) | readerAck | readerBit | stop
  deriving DecidableEq, Repr

/-- The gate unit. busOut is what the poller has put on the I2C bus since its latest poll (R160); reads and arrivals are
the crystal seconds of the unmatched reads and arrivals (R167). -/
structure GateUnit where
  pollTimer : Option Nat := none
  polling : Bool := false
  busOut : List BusItem := []
  busHeld : Bool := false
  failCount : Nat := 0
  faultRaised : Bool := false
  fifo : List FifoEntry := []
  reads : List Nat := []
  arrivals : List Nat := []
  duties : List Duty := []
  pins : List Pair := []
  deriving DecidableEq, Repr

/-! ## Points and signs (chapter 9) -/

/-- A contact of the matrix (R188). -/
structure Contact where
  occupied : Bool := false
  run : Nat := 0
  deriving DecidableEq, Repr

/-- An expectation (R193); expiry is a second counted from the crystal. -/
structure Expect where
  fleet : Nat
  expiry : Option Nat
  deriving DecidableEq, Repr

/-- A point with its dwell timer (milliseconds left) and, at a receiving point, its expectation queue. -/
structure Point where
  cfg : PointCfg
  dwell : Option Nat := none
  queue : List Expect := []
  deriving DecidableEq, Repr

/-- A sign (R201): values are the value codes; an absent sent value is unknown (R205). -/
structure Sign where
  number : Nat
  current : Nat
  sent : Option Nat
  deriving DecidableEq, Repr

/-- A sign record (R201). -/
structure SignRec where
  number : Nat
  value : Nat
  deriving DecidableEq, Repr

/-- The sign port (R201 to R205). -/
structure SignPort where
  signs : List Sign := []
  list : List SignRec := []
  sending : Option SignRec := none
  deriving DecidableEq, Repr

/-! ## Notices (chapter 10) -/

/-- The twenty kinds of notice, in the order of the table of 10.6. -/
inductive NoticeKind where
  | arrivalLost | readerFault | intruder | noOffer | handoverFailed | claimConflict | unplannedExit | stray
  | laneBlocked | pumpSkip | pumpFault | fuelDeferred | stockLow | stockShort | washSkipped | washFault | dutyServed
  | dutyUncovered | dutyExpired | lineError
  deriving DecidableEq, Repr

/-- The resource of a notice (R219), in the order of its list. -/
inductive NoticeRes where
  | lane (l : Nat) | pump (p : Nat) | wash (w : Nat) | apron | gateEntry | gateExit
  | point (kind : PointKind) (index : Nat) | fuel (f : Fuel) | service (s : Service)
  deriving DecidableEq, Repr

/-- A notice (R219). -/
structure Notice where
  kind : NoticeKind
  minute : Nat
  fleet : Option Nat
  resource : Option NoticeRes
  detail : List Nat
  deriving DecidableEq, Repr

/-- The station counters of R217 but HOST_DISCARDED, which the host link keeps. -/
structure StationCounters where
  stale : Nat := 0
  emptyClears : Nat := 0
  nozzleIgnored : Nat := 0
  tagBad : Nat := 0
  dupTags : Nat := 0
  pollFailed : Nat := 0
  deriving DecidableEq, Repr

/-- Everything a bus event can change: the state of the blocks that act on buses, frames, duties, signs and notices. -/
structure Yard where
  records : List Record := []
  seeking : List Nat := []
  line : LineIf := {}
  seek : SeekEngine := {}
  saturated : Bool := false
  lanes : List Lane := []
  fuel : FuelUnit := {}
  wash : WashUnit := {}
  gate : GateUnit := {}
  points : List Point := []
  signs : SignPort := {}
  notices : List Notice := []
  lost : Nat := 0
  cnt : StationCounters := {}
  deriving DecidableEq, Repr

/-! ## The station -/

/-- The phase (R210). -/
inductive Phase where
  | config | locked | running
  deriving DecidableEq, Repr

/-- The yard clock (R43); subMs is the part of the running second in milliseconds. -/
structure Clock where
  minute : Nat := 0
  seconds : Nat := 0
  valid : Bool := false
  seen : Option Nat := none
  subMs : Nat := 0
  deriving DecidableEq, Repr

/-- The loop scanner (R187, R188): the row driven and the 64 contacts, contact (i, j) at place 8 i + j. -/
structure Scanner where
  row : Nat := 0
  contacts : List Contact := List.replicate 64 {}
  deriving DecidableEq, Repr

/-- The results of an answer record (R207), in the order of their codes. -/
inductive HostResult where
  | done | phase | range | full | unknown | duplicate | conflict
  deriving DecidableEq, Repr

/-- An answer record: command code, result, data (R207). -/
structure HostAnswer where
  code : Nat
  result : HostResult
  data : List Byte
  deriving DecidableEq, Repr

/-- The host link (R207 to R209): the record in progress (its bytes so far, start byte first) with the milliseconds
since its last byte, complete records that wait, the answer being sent and its bytes on HOST_TXD. -/
structure HostLink where
  inProgress : Option (List Byte) := none
  gapMs : Nat := 0
  waiting : List (List Byte) := []
  answer : Option HostAnswer := none
  txd : List Byte := []
  resetPending : Bool := false
  discarded : Nat := 0
  deriving DecidableEq, Repr

/-- The state of the station. -/
structure State where
  phase : Phase := .config
  pinLow : Bool := false
  supplyLow : Bool := false
  crystalMs : Nat := 0
  store : Layout := {}
  layout : Layout := {}
  clock : Clock := {}
  scan : Scanner := {}
  host : HostLink := {}
  yard : Yard := {}
  pending : List Instr := []
  deriving DecidableEq, Repr

/-- The station right after reset (R22, R42, R43, R75, R91, R113, R139, R158, R186, R205, R206, R222, R224). -/
def State.reset : State := {}

end Sys2Proof.Machine
end

