-- ==== Sys2Proof/Machine/Operands.lean ====
section
/-! DEFINITION. Operand forms: the codes of the enumerations, the bit fields of a frame's payload (R26), building and
checking a frame (R27, R39), its CRC and bit stuffing (R26, R225), the byte fields of the host link (R207), the tag
record (R162) and the sign record (R226). -/

namespace Sys2Proof.Machine

/-! ## Codes of the enumerations (R26, R207) -/

def Fuel.code : Fuel → Nat
  | .diesel => 0 | .gas => 1 | .noFuel => 2

def fuelOf : Nat → Option Fuel
  | 0 => some .diesel | 1 => some .gas | 2 => some .noFuel | _ => none

def Prog.code : Prog → Nat
  | .noWash => 0 | .rinse => 1 | .standard => 2 | .full => 3

def progOf : Nat → Option Prog
  | 0 => some .noWash | 1 => some .rinse | 2 => some .standard | 3 => some .full | _ => none

def Service.code : Service → Nat
  | .fuel => 0 | .wash => 1 | .berth => 2 | .exit => 3

def serviceOf : Nat → Option Service
  | 0 => some .fuel | 1 => some .wash | 2 => some .berth | 3 => some .exit | _ => none

def FuelMark.code : FuelMark → Nat
  | .unmarked => 0 | .full => 1 | .partly => 2 | .deferred => 3

def fuelMarkOf : Nat → Option FuelMark
  | 0 => some .unmarked | 1 => some .full | 2 => some .partly | 3 => some .deferred | _ => none

def WashMark.code : WashMark → Nat
  | .unmarked => 0 | .done => 1 | .skipped => 2 | .aborted => 3

def washMarkOf : Nat → Option WashMark
  | 0 => some .unmarked | 1 => some .done | 2 => some .skipped | 3 => some .aborted | _ => none

/-- Position in the table of record states of chapter 1. -/
def RecState.code : RecState → Nat
  | .arrived => 0 | .seeking => 1 | .handing => 2 | .expected => 3 | .queued => 4 | .called => 5 | .inService => 6
  | .served => 7 | .parked => 8 | .outbound => 9 | .stray => 10 | .adrift => 11

def PointKind.code : PointKind → Nat
  | .gateIn => 0 | .gateOut => 1 | .apronIn => 2 | .bay => 3 | .washIn => 4 | .washOut => 5 | .laneIn => 6
  | .laneOut => 7

def pointKindOf : Nat → Option PointKind
  | 0 => some .gateIn | 1 => some .gateOut | 2 => some .apronIn | 3 => some .bay | 4 => some .washIn
  | 5 => some .washOut | 6 => some .laneIn | 7 => some .laneOut | _ => none

def LineRate.code : LineRate → Nat
  | .r31 => 0 | .r62 => 1 | .r125 => 2

def lineRateOf : Nat → Option LineRate
  | 0 => some .r31 | 1 => some .r62 | 2 => some .r125 | _ => none

/-- Position in the line error summary (R40). -/
def LineFlag.code : LineFlag → Nat
  | .poolFull => 0 | .txFail => 1 | .rxMalformed => 2 | .noTaker => 3 | .unrelated => 4

/-- Row among the SET PARAMETER rows (R216), counted from 0. -/
def Param.code : Param → Nat
  | .wB => 0 | .wS => 1 | .gEmpty => 2 | .spareRelease => 3 | .offerHold => 4 | .answerTime => 5 | .attempts => 6
  | .holdInterval => 7 | .retry => 8 | .travel => 9 | .rowPeriod => 10 | .debounce => 11

def paramOf : Nat → Option Param
  | 0 => some .wB | 1 => some .wS | 2 => some .gEmpty | 3 => some .spareRelease | 4 => some .offerHold
  | 5 => some .answerTime | 6 => some .attempts | 7 => some .holdInterval | 8 => some .retry | 9 => some .travel
  | 10 => some .rowPeriod | 11 => some .debounce | _ => none

def HostResult.code : HostResult → Nat
  | .done => 0 | .phase => 1 | .range => 2 | .full => 3 | .unknown => 4 | .duplicate => 5 | .conflict => 6

def NoticeKind.code : NoticeKind → Nat
  | .arrivalLost => 0 | .readerFault => 1 | .intruder => 2 | .noOffer => 3 | .handoverFailed => 4
  | .claimConflict => 5 | .unplannedExit => 6 | .stray => 7 | .laneBlocked => 8 | .pumpSkip => 9 | .pumpFault => 10
  | .fuelDeferred => 11 | .stockLow => 12 | .stockShort => 13 | .washSkipped => 14 | .washFault => 15
  | .dutyServed => 16 | .dutyUncovered => 17 | .dutyExpired => 18 | .lineError => 19

/-! ## Bit fields, most significant bit first -/

/-- The w low bits of n, most significant first. -/
def natBits : Nat → Nat → List Bool
  | 0, _ => []
  | w + 1, n => n.testBit w :: natBits w n

/-- The number whose binary digits, most significant first, are the bits. -/
def bitsNat (bs : List Bool) : Nat := bs.foldl (fun a b => 2 * a + b.toNat) 0

/-- The bits of a run of bytes, bit 7 of the first byte first. -/
def bytesBits : List Byte → List Bool
  | [] => []
  | b :: bs => natBits 8 b.toNat ++ bytesBits bs

/-- The next n bytes of a run of bits; bits past its end count as 0. -/
def bitsBytes : Nat → List Bool → List Byte
  | 0, _ => []
  | n + 1, bs => BitVec.ofNat 8 (bitsNat ((bs ++ List.replicate 8 false).take 8)) :: bitsBytes n (bs.drop 8)

/-- Reads a field of w bits: its value and the bits behind it. Bits past the end count as 0 (log 33). -/
def takeField (w : Nat) (bs : List Bool) : Nat × List Bool :=
  (bitsNat ((bs ++ List.replicate w false).take w), bs.drop w)

/-- Reads an optional field: a presence bit, then the field, which is not read when absent (R26). -/
def takeOpt (w : Nat) (bs : List Bool) : Option Nat × List Bool :=
  let p := takeField 1 bs
  let v := takeField w p.2
  (if p.1 = 1 then some v.1 else none, v.2)

/-- Reads a list: a 3-bit count and four slots of w bits; slots beyond the count are not read (R26). The count itself is
returned too, since a count above 4 is malformed (R39). -/
def takeList (w : Nat) (bs : List Bool) : Nat × List Nat × List Bool :=
  let c := takeField 3 bs
  let a := takeField w c.2
  let b := takeField w a.2
  let d := takeField w b.2
  let e := takeField w d.2
  (c.1, [a.1, b.1, d.1, e.1].take c.1, e.2)

/-- An optional field as sent: presence bit and field, all 0 when absent. -/
def optBits (w : Nat) : Option Nat → List Bool
  | none => natBits (w + 1) 0
  | some v => true :: natBits w v

/-- A list as sent: its count and four slots, 0 beyond the count. -/
def listBits (w : Nat) (l : List Nat) : List Bool :=
  natBits 3 l.length ++ ((l ++ List.replicate 4 0).take 4).flatMap (natBits w)

/-! ## Frames (R26, R27) -/

def Dest.code : Dest → Nat
  | .station n => n | .fuelGroup => 32 | .washGroup => 33 | .berthGroup => 34 | .all => 63

/-- The destination a code stands for; codes 35 to 62 are not used (R26). -/
def destOf (n : Nat) : Option Dest :=
  if n < 32 then some (.station n)
  else if n = 32 then some .fuelGroup
  else if n = 33 then some .washGroup
  else if n = 34 then some .berthGroup
  else if n = 63 then some .all
  else none

def Answer.value : Answer → Nat
  | .taken => 0 | .hold => 1 | .refuse => 2

/-- Kind rank (R26). -/
def Body.rank : Body → Nat
  | .offer .. => 0 | .answer .. => 1 | .claim .. => 1 | .handover .. => 2 | .cancel .. => 3 | .seek .. => 4
  | .repin .. => 5 | .time .. => 6

/-- Kind value (R26). -/
def Body.value : Body → Nat
  | .offer c .. => c | .answer a _ => a.value | .claim _ => 3 | .time m => m | _ => 0

/-- Payload length in bytes that the kind, service and direction require (R26). -/
def Body.length : Body → Nat
  | .offer _ .exit .. => 4 | .offer .. => 2 | .answer .. => 2 | .claim .. => 2 | .handover .. => 12 | .cancel .. => 2
  | .seek _ _ (.push ..) => 10 | .seek _ _ (.pull ..) => 11 | .repin .. => 5 | .time .. => 0

/-- The payload's fields in order (R26). -/
def Body.bits : Body → List Bool
  | .offer _ s a f =>
    natBits 2 s.code ++ natBits 3 a ++ (match s, f with | .exit, some x => natBits 12 x | _, _ => [])
  | .answer _ f => natBits 12 f
  | .claim f => natBits 12 f
  | .cancel f => natBits 12 f
  | .handover b =>
    natBits 12 b.fleet ++ natBits 3 b.cls ++ natBits 2 b.fuel.code ++ natBits 10 b.capacity ++ natBits 7 b.level
      ++ natBits 2 b.fuelMark.code ++ natBits 2 b.wash.code ++ natBits 2 b.washMark.code
      ++ optBits 14 (b.pin.map (·.duty)) ++ optBits 11 (b.pin.map (·.release))
      ++ listBits 2 (b.itinerary.map Service.code) ++ natBits 11 b.arrival
  | .seek area excl (.push s b) =>
    natBits 3 area ++ natBits 2 s.code ++ natBits 1 0 ++ listBits 5 excl ++ natBits 12 b.fleet ++ natBits 3 b.cls
      ++ natBits 2 b.fuel.code ++ natBits 10 b.capacity ++ natBits 7 b.level ++ natBits 2 b.wash.code
      ++ optBits 11 b.release
  | .seek area excl (.pull d) =>
    natBits 3 area ++ natBits 2 3 ++ natBits 1 1 ++ listBits 5 excl ++ natBits 14 d.duty ++ natBits 11 d.release
      ++ natBits 8 d.mask.toNat ++ natBits 2 d.fuel.code ++ natBits 7 d.minLevel ++ optBits 12 d.pinned
  | .repin f p => natBits 12 f ++ optBits 14 (p.map (·.duty)) ++ optBits 11 (p.map (·.release))
  | .time _ => []

/-- The frame as it goes onto the line (R26, R27). -/
def Frame.raw (f : Frame) : RawFrame where
  rank := BitVec.ofNat 3 f.body.rank
  value := BitVec.ofNat 12 f.body.value
  source := BitVec.ofNat 5 f.source
  dest := BitVec.ofNat 6 f.dest.code
  seekStation := BitVec.ofNat 5 f.ref.station
  seekNumber := BitVec.ofNat 8 f.ref.number
  payload := bitsBytes f.body.length f.body.bits

/-- The arbitration key (R24): rank, kind value, source. -/
def RawFrame.key (r : RawFrame) : ArbKey := r.rank ++ r.value ++ r.source

def Frame.key (f : Frame) : ArbKey := f.raw.key

/-- Fields 2 to 9 of the frame, as sent (R26). -/
def RawFrame.bits (r : RawFrame) : List Bool :=
  natBits 3 r.rank.toNat ++ natBits 12 r.value.toNat ++ natBits 5 r.source.toNat ++ natBits 6 r.dest.toNat
    ++ natBits 5 r.seekStation.toNat ++ natBits 8 r.seekNumber.toNat ++ natBits 5 r.payload.length ++ bytesBits r.payload

/-- One bit of the CRC: polynomial x^16 + x^12 + x^5 + 1 (R26). -/
def crcStep (c : BitVec 16) (b : Bool) : BitVec 16 :=
  if (c.msb ^^ b) then (c <<< 1) ^^^ 0x1021#16 else c <<< 1

/-- The CRC over a run of bits, register preset to all ones (R26). -/
def crc16 (bs : List Bool) : BitVec 16 := bs.foldl crcStep 0xFFFF#16

/-- Bit stuffing (R225): after four equal bits in a row the opposite bit is inserted. last is the bit before and run how
many equal bits end there, stuffed bits counted. -/
def stuff : Bool → Nat → List Bool → List Bool
  | last, run, [] => if run = 4 then [(!last)] else []
  | last, run, b :: bs =>
    if run = 4 then
      if b = (!last) then (!last) :: b :: stuff b 2 bs else (!last) :: b :: stuff b 1 bs
    else if b = last then b :: stuff b (run + 1) bs
    else b :: stuff b 1 bs

/-- The frame on the line from its start mark through its CRC, stuffed (R26, R225). A 0 is dominant, a 1 recessive. -/
def RawFrame.stuffed (r : RawFrame) : List Bool :=
  false :: stuff false 1 (r.bits ++ natBits 16 (crc16 r.bits).toNat)

/-- What the sender puts on LINE_TX (R26, R225): the stuffed frame, then the recessive check slot and end. -/
def RawFrame.lineBits (r : RawFrame) : List Bool := r.stuffed ++ List.replicate 8 true

/-- A receiver takes the stuffed bits out (R225): none at a stuff error, a fifth equal bit where a stuffed bit is due,
or with no bit there. last and run are as for stuff. -/
def unstuff : Bool → Nat → List Bool → Option (List Bool)
  | _, run, [] => if run = 4 then none else some []
  | last, run, b :: bs =>
    if run = 4 then (if b = last then none else unstuff b 1 bs)
    else (unstuff b (if b = last then run + 1 else 1) bs).map (b :: ·)

/-- The fields 2 to 9 that a run of bits gives, with the CRC that follows them; none when the bits are not exactly as
many as the length field asks (R26). -/
def frameFields (bs : List Bool) : Option (RawFrame × Nat) :=
  let rank := takeField 3 bs
  let value := takeField 12 rank.2
  let source := takeField 5 value.2
  let dest := takeField 6 source.2
  let station := takeField 5 dest.2
  let number := takeField 8 station.2
  let len := takeField 5 number.2
  if bs.length = 60 + 8 * len.1 then
    some (⟨BitVec.ofNat 3 rank.1, BitVec.ofNat 12 value.1, BitVec.ofNat 5 source.1, BitVec.ofNat 6 dest.1,
      BitVec.ofNat 5 station.1, BitVec.ofNat 8 number.1, bitsBytes len.1 len.2⟩, (takeField 16 (len.2.drop (8 * len.1))).1)
  else none

/-- What a station that follows the line reads from its bits, start mark through CRC (R37, R225): the frame, or none
when it finds the frame damaged, by a stuff error or by a computed CRC that differs from the received one. -/
def receiveFrame : List Bool → Option RawFrame
  | false :: bits =>
    match (unstuff false 1 bits).bind frameFields with
    | some (r, crc) => if (crc16 r.bits).toNat = crc then some r else none
    | none => none
  | _ => none

/-! ## Reading a frame (R39) -/

/-- A fleet number in range: fleet 0 does not stand in a frame (R39). -/
def fleetOk (n : Nat) : Bool := 1 ≤ n && n ≤ 4095

def dutyOk (n : Nat) : Bool := 1 ≤ n && n ≤ 9999

def minuteOk (n : Nat) : Bool := n ≤ 1439

def capacityOk (n : Nat) : Bool := 50 ≤ n && n ≤ 600

/-- Duty and release both present and in range, or both absent (R39). -/
def pinOf : Option Nat → Option Nat → Option (Option Pin)
  | none, none => some none
  | some d, some r => if dutyOk d && minuteOk r then some (some ⟨d, r⟩) else none
  | _, _ => none

/-- The carried fields of a HANDOVER payload; none when R39 finds them malformed. -/
def parseHandover (bs : List Bool) : Option Body :=
  let fleet := takeField 12 bs
  let cls := takeField 3 fleet.2
  let fuel := takeField 2 cls.2
  let cap := takeField 10 fuel.2
  let lev := takeField 7 cap.2
  let fm := takeField 2 lev.2
  let ww := takeField 2 fm.2
  let wm := takeField 2 ww.2
  let duty := takeOpt 14 wm.2
  let rel := takeOpt 11 duty.2
  let itin := takeList 2 rel.2
  let arr := takeField 11 itin.2.2
  match fuelOf fuel.1, fuelMarkOf fm.1, progOf ww.1, washMarkOf wm.1, pinOf duty.1 rel.1, itin.2.1.mapM serviceOf with
  | some fu, some fmk, some pr, some wmk, some pin, some services =>
    if fleetOk fleet.1 && capacityOk cap.1 && decide (lev.1 ≤ 100) && minuteOk arr.1 && decide (itin.1 ≤ 4)
        && decide services.Nodup then
      some (.handover ⟨fleet.1, cls.1, fu, cap.1, lev.1, fmk, pr, wmk, pin, services, arr.1⟩)
    else none
  | _, _, _, _, _, _ => none

/-- The content of a SEEK payload; none when R39 finds it malformed. -/
def parseSeek (dest : Dest) (len : Nat) (bs : List Bool) : Option Body :=
  let area := takeField 3 bs
  let svc := takeField 2 area.2
  let dir := takeField 1 svc.2
  let excl := takeList 5 dir.2
  if decide (excl.1 ≤ 4) && decide excl.2.1.Nodup then
    match dir.1, serviceOf svc.1 with
    | 0, some s =>
      let fleet := takeField 12 excl.2.2
      let cls := takeField 3 fleet.2
      let fuel := takeField 2 cls.2
      let cap := takeField 10 fuel.2
      let lev := takeField 7 cap.2
      let ww := takeField 2 lev.2
      let rel := takeOpt 11 ww.2
      let group : Bool := match s with
        | .fuel => dest = .fuelGroup | .wash => dest = .washGroup | .berth => dest = .berthGroup | .exit => false
      match fuelOf fuel.1, progOf ww.1 with
      | some fu, some pr =>
        if group && decide (len = 10) && fleetOk fleet.1 && capacityOk cap.1 && decide (lev.1 ≤ 100)
            && (rel.1.all minuteOk) then
          some (.seek area.1 excl.2.1 (.push s ⟨fleet.1, cls.1, fu, cap.1, lev.1, pr, rel.1⟩))
        else none
      | _, _ => none
    | 1, some .exit =>
      let duty := takeField 14 excl.2.2
      let rel := takeField 11 duty.2
      let mask := takeField 8 rel.2
      let fuel := takeField 2 mask.2
      let lev := takeField 7 fuel.2
      let pinned := takeOpt 12 lev.2
      match fuelOf fuel.1 with
      | some fu =>
        if decide (dest = .berthGroup) && decide (len = 11) && dutyOk duty.1 && minuteOk rel.1 && decide (mask.1 ≠ 0)
            && decide (lev.1 ≤ 100) && (pinned.1.all fleetOk) then
          some (.seek area.1 excl.2.1 (.pull ⟨duty.1, rel.1, BitVec.ofNat 8 mask.1, fu, lev.1, pinned.1⟩))
        else none
      | none => none
    | _, _ => none
  else none

/-- The content of an OFFER payload. -/
def parseOffer (cost len : Nat) (bs : List Bool) : Option Body :=
  let svc := takeField 2 bs
  let area := takeField 3 svc.2
  match serviceOf svc.1 with
  | some .exit =>
    let fleet := takeField 12 area.2
    if decide (len = 4) && fleetOk fleet.1 then some (.offer cost .exit area.1 (some fleet.1)) else none
  | some s => if len = 2 then some (.offer cost s area.1 none) else none
  | none => none

/-- The content of a REPIN payload. -/
def parseRepin (bs : List Bool) : Option Body :=
  let fleet := takeField 12 bs
  let duty := takeOpt 14 fleet.2
  let rel := takeOpt 11 duty.2
  match pinOf duty.1 rel.1 with
  | some pin => if fleetOk fleet.1 then some (.repin fleet.1 pin) else none
  | none => none

/-- A payload of one fleet in two bytes. -/
def parseFleet (len : Nat) (bs : List Bool) (k : Nat → Body) : Option Body :=
  let fleet := takeField 12 bs
  if decide (len = 2) && fleetOk fleet.1 then some (k fleet.1) else none

/-- The content of a payload by rank and kind value; none when R39 finds the frame malformed. -/
def parseBody (dest : Dest) (rank value : Nat) (payload : List Byte) : Option Body :=
  let len := payload.length
  let bs := bytesBits payload
  match rank with
  | 0 => parseOffer value len bs
  | 1 =>
    match value with
    | 0 => parseFleet len bs (.answer .taken)
    | 1 => parseFleet len bs (.answer .hold)
    | 2 => parseFleet len bs (.answer .refuse)
    | 3 => parseFleet len bs .claim
    | _ => none
  | 2 => if value = 0 ∧ len = 12 then parseHandover bs else none
  | 3 => if value = 0 then parseFleet len bs .cancel else none
  | 4 => if value = 0 then parseSeek dest len bs else none
  | 5 => if value = 0 ∧ len = 5 then parseRepin bs else none
  | 6 => if value ≤ 1439 ∧ len = 0 then some (.time value) else none
  | _ => none

/-- The check of R39 for a frame that this station did not send: the well-formed frame, or none. own is this station's
number. -/
def RawFrame.parse (own : Nat) (r : RawFrame) : Option Frame :=
  match destOf r.dest.toNat with
  | none => none
  | some dest =>
    if r.source.toNat = own then none
    else if r.rank.toNat = 4 ∧ r.seekStation ≠ r.source then none
    else
      match parseBody dest r.rank.toNat r.value.toNat r.payload with
      | some body => some ⟨r.source.toNat, dest, ⟨r.seekStation.toNat, r.seekNumber.toNat⟩, body⟩
      | none => none

/-- The area a SEEK's payload carries, read by the address filter (R29). A payload too short to hold one reads as area
0, so that the frame passes the area test and is found malformed (log 33). -/
def RawFrame.seekArea (r : RawFrame) : Nat := (takeField 3 (bytesBits r.payload)).1

/-! ## Byte fields of the host link (R207) -/

/-- A number in n bytes, high byte first. -/
def bytesOf : Nat → Nat → List Byte
  | 0, _ => []
  | n + 1, v => BitVec.ofNat 8 (v >>> (8 * n)) :: bytesOf n v

/-- A value of 1 byte. -/
def b1 (v : Nat) : List Byte := bytesOf 1 v
/-- A value of 2 bytes, high byte first. -/
def b2 (v : Nat) : List Byte := bytesOf 2 v
/-- A value of 3 bytes, high byte first. -/
def b3 (v : Nat) : List Byte := bytesOf 3 v
/-- A value of 4 bytes, high byte first. -/
def b4 (v : Nat) : List Byte := bytesOf 4 v

/-- An optional field: one byte 0 or 1, then the field when present. -/
def encOpt (enc : α → List Byte) : Option α → List Byte
  | none => b1 0
  | some v => b1 1 ++ enc v

/-- A list: one byte of length, then the entries. -/
def encList (enc : α → List Byte) (l : List α) : List Byte := b1 l.length ++ l.flatMap enc

/-- A list that can hold more than 255 entries: two bytes of length, high byte first, then the entries. -/
def encLong (enc : α → List Byte) (l : List α) : List Byte := b2 l.length ++ l.flatMap enc

/-- "yes, no" as an enumeration: yes is position 0, no is position 1 (log 11). -/
def encYesNo (b : Bool) : List Byte := b1 (if b then 0 else 1)

/-- A flag whose list is "no, yes" or "clear, set", or which has no list: 0 or 1 (log 11). -/
def encFlag (b : Bool) : List Byte := b1 (if b then 1 else 0)

/-- The bytes of an answer record (R207): start 3C, length, code, result, data, check. -/
def HostAnswer.bytes (a : HostAnswer) : List Byte :=
  let body := b2 (a.data.length + 2) ++ b1 a.code ++ b1 a.result.code ++ a.data
  0x3C#8 :: body ++ [-(body.foldl (· + ·) 0)]

/-- A reader of command fields: the value and the bytes behind it, or none when the bytes do not allow it. -/
abbrev Reader (α : Type) := List Byte → Option (α × List Byte)

/-- A number of n bytes, high byte first. -/
def readNum : Nat → Reader Nat
  | 0, bs => some (0, bs)
  | _ + 1, [] => none
  | n + 1, b :: bs =>
    match readNum n bs with
    | some (v, rest) => some (b.toNat * 256 ^ n + v, rest)
    | none => none

/-- One byte that a table turns into a value. -/
def readCode (table : Nat → Option α) : Reader α := fun bs =>
  match readNum 1 bs with
  | some (v, rest) => (table v).map (·, rest)
  | none => none

/-- An optional field: a presence byte other than 0 or 1 is not allowed. -/
def readOpt (r : Reader α) : Reader (Option α) := fun bs =>
  match readNum 1 bs with
  | some (0, rest) => some (none, rest)
  | some (1, rest) => (r rest).map fun x => (some x.1, x.2)
  | _ => none

/-- A field that must be given, as a present value. -/
def readSome (r : Reader α) : Reader (Option α) := fun bs => (r bs).map fun x => (some x.1, x.2)

/-- yes is position 0, no is position 1 (log 11). -/
def yesNoOf : Nat → Option Bool
  | 0 => some true | 1 => some false | _ => none

def readMask (w : Nat) : Reader (BitVec w) := fun bs =>
  match readNum 1 bs with
  | some (v, rest) => if v < 2 ^ w then some (BitVec.ofNat w v, rest) else none
  | none => none

/-- The whole of the fields, with nothing left over (R209). -/
def readAll (r : Reader α) (bs : List Byte) : Option α :=
  match r bs with
  | some (v, []) => some v
  | _ => none

/-- The check of R207 and R208: the sum of fields 2 to 6 is 0 modulo 256; the record is given start byte first. -/
def checkGood (record : List Byte) : Bool := (record.drop 1).foldl (· + ·) 0 = (0 : Byte)

/-! ## The read transaction of the tag reader (R160) -/

/-- One byte read from the reader, with the poller's acknowledge behind it: SDA low, or left high (R160). -/
def byteClocks (ack : Bool) : List BusItem := List.replicate 8 .readerBit ++ [.send !ack]

/-- The transaction with a reader that acknowledges (R160): a start, the address with the read direction, eight data
bytes of which the first seven are acknowledged, a stop. -/
def readTransaction (address : Nat) : List BusItem :=
  .start :: (natBits 7 address).map .send ++ [.send true, .readerAck]
    ++ (List.replicate 7 (byteClocks true)).flatten ++ byteClocks false ++ [.stop]

/-- How a read transaction ends (R160): NO TAG, RECORD with its eight bytes, ARBITRATION LOST. -/
inductive PollOutcome where
  | noTag
  | tag (bytes : Vector Byte 8)
  | arbitrationLost
  deriving DecidableEq, Repr

/-- The eight bytes of 64 bits, bit 7 of the first byte first. -/
def tagOf (bits : List Bool) : Vector Byte 8 :=
  Vector.ofFn fun i => BitVec.ofNat 8 (bitsNat ((bits.drop (8 * i.val)).take 8))

/-- Follows a transaction with the levels of SDA while SCL is high, one a clock, and the data bits read so far: a sent
bit left high that reads low is a lost arbitration, a reader's acknowledge that reads high is NO TAG (R160). None stands
for a transaction that has not ended. -/
def followTransaction : List BusItem → List Bool → List Bool → Option PollOutcome
  | .start :: is, sda, got => followTransaction is sda got
  | .send b :: is, v :: sda, got => if b && !v then some .arbitrationLost else followTransaction is sda got
  | .readerAck :: is, v :: sda, got => if v then some .noTag else followTransaction is sda got
  | .readerBit :: is, v :: sda, got => followTransaction is sda (got ++ [v])
  | .stop :: _, _, got => some (.tag (tagOf got))
  | _, _, _ => none

/-- How the read transaction with a reader of an address ends, from the levels of SDA (R160). -/
def pollOutcome (address : Nat) (sda : List Bool) : Option PollOutcome :=
  followTransaction (readTransaction address) sda []

/-- What the poller puts on the bus of a transaction while the levels of SDA come in, one a clock, up to the clock whose
level is not there yet: after a sent high bit that reads low it releases the lines, after a reader's acknowledge that
reads high the stop condition follows at once (R160). -/
def drivenItems : List BusItem → List Bool → List BusItem
  | .start :: is, sda => .start :: drivenItems is sda
  | .send b :: is, v :: sda => .send b :: (if b && !v then [] else drivenItems is sda)
  | .readerAck :: is, v :: sda => .readerAck :: (if v then [.stop] else drivenItems is sda)
  | .readerBit :: is, _ :: sda => .readerBit :: drivenItems is sda
  | .stop :: _, _ => [.stop]
  | i :: _, [] => [i]
  | [], _ => []

/-- What the poller puts on the bus in a read transaction, by the levels of SDA so far (R160). -/
def busDriven (address : Nat) (sda : List Bool) : List BusItem := drivenItems (readTransaction address) sda

/-! ## Tag record and sign record (R162, R226) -/

/-- What a collected tag record is (R163). -/
inductive TagResult where
  | noMark | bad | good (bus : BusFields)
  deriving DecidableEq, Repr

/-- The fuel type codes of a tag: 0 NONE, 1 DIESEL, 2 GAS (R162). -/
def tagFuel : Nat → Option Fuel
  | 0 => some .noFuel | 1 => some .diesel | 2 => some .gas | _ => none

/-- Decodes the eight bytes of a tag record (R162, R163). -/
def decodeTag (t : Vector Byte 8) : TagResult :=
  if t[1].getLsbD 0 = false then .noMark
  else if t[7] ≠ t[0] + t[1] + t[2] + t[3] + t[4] + t[5] + t[6] then .bad
  else
    let fleet := t[0].toNat * 16 + (t[1].extractLsb 7 4).toNat
    let cap := (t[2].extractLsb 1 0).toNat * 256 + t[3].toNat
    let lev := (t[4].extractLsb 6 0).toNat
    match tagFuel (t[2].extractLsb 7 6).toNat, progOf (t[2].extractLsb 5 4).toNat with
    | some fu, some pr =>
      if fleetOk fleet && capacityOk cap && decide (lev ≤ 100) then
        .good ⟨fleet, (t[1].extractLsb 3 1).toNat, fu, cap, lev, pr⟩
      else .bad
    | _, _ => .bad

/-- The three bytes of a sign record on SIGN_TX (R226). -/
def SignRec.bytes (r : SignRec) : List Byte := b1 r.number ++ b2 r.value

end Sys2Proof.Machine
end

