-- ==== Sys2Proof/Decode.lean ====
section
/-! DEFINITION. The table of commands gives no row any bits, so no word spells a command. A host command does have a
form in bytes, the record of R207: its code and its fields, in the order and the encoding of R207, R210 and R217. -/

namespace Sys2Proof

open Sys2Proof.Machine

/-- The command that a word spells by the bits of spec/opcode_table.json: none, since no row of the table has bits. -/
def decodeTableWord (_nbits _w : Nat) : Option Instr := none

/-- The bytes of the six bus fields. -/
def busBytes (b : BusFields) : List Byte :=
  b2 b.fleet ++ b1 b.cls ++ b1 b.fuel.code ++ b2 b.capacity ++ b1 b.level ++ b1 b.wash.code

def stationBytes (f : StationFields) : Option (List Byte) := do
  let number ← f.number
  let area1 ← f.area1
  let rate ← f.rate
  some (b1 number ++ b1 area1 ++ encOpt b1 f.area2 ++ b1 rate.code ++ encOpt b1 f.seekFuel ++ encOpt b1 f.seekWash
    ++ encOpt b1 f.seekBerth ++ encOpt b1 f.seekExit)

def laneBytes (f : LaneFields) : Option (List Byte) := do
  let number ← f.number
  let depth ← f.depth
  let mask ← f.mask
  let area ← f.area
  some (b1 number ++ b1 depth ++ b1 mask.toNat ++ b1 area ++ encOpt b1 f.bias)

def pumpBytes (f : PumpFields) : Option (List Byte) := do
  let index ← f.index
  let fuel ← f.fuel
  let pulses ← f.pulses
  let rate ← f.rate
  some (b1 index ++ b1 fuel.code ++ b2 pulses ++ b2 rate ++ encOpt b2 f.maxTurn)

def islandBytes (f : IslandFields) : Option (List Byte) := do
  let capacity ← f.capacity
  let area ← f.area
  some (b1 capacity ++ b1 area ++ encOpt b1 f.bias ++ encOpt b4 f.reserveDiesel ++ encOpt b4 f.reserveGas
    ++ encOpt b1 f.horizon ++ encOpt b2 f.minFill ++ encOpt b1 f.levelStep ++ encOpt b1 f.aging
    ++ encOpt b1 f.callTimeout ++ encOpt b1 f.maxSkips ++ encOpt b2 f.noFlow)

def washBytes (f : WashFields) : Option (List Byte) := do
  let index ← f.index
  let area ← f.area
  let depth ← f.depth
  some (b1 index ++ b1 area ++ encOpt b1 f.bias ++ encOpt (fun m => b1 m.toNat) f.enabled ++ encOpt b1 f.nomRinse
    ++ encOpt b1 f.nomStandard ++ encOpt b1 f.nomFull ++ encOpt b1 f.alpha ++ encOpt b1 f.margin
    ++ encOpt b1 f.startTimeout ++ encOpt b1 f.callTimeout ++ encOpt b1 f.maxSkips ++ b1 depth)

def gateBytes (f : GateFields) : Option (List Byte) := do
  let reader ← f.reader
  some (b1 reader ++ encOpt b2 f.poll ++ encOpt b1 f.window ++ encOpt b1 f.refuel ++ encOpt b1 f.defaultMin
    ++ encOpt b1 f.callLead ++ encOpt b1 f.grace)

def pointBytes (f : PointFields) : Option (List Byte) := do
  let row ← f.row
  let col ← f.col
  let kind ← f.kind
  let index ← f.index
  some (b1 row ++ b1 col ++ b1 kind.code ++ b1 index ++ encOpt b2 f.dwell ++ encOpt encYesNo f.repeats)

/-- The bytes that hold a parameter's range (R207, R216): the value of SET PARAMETER has the width of the range of the
parameter it names, not one width for all (DEDUCED, log 56). -/
def paramWidth : Param → Nat
  | .gEmpty | .spareRelease | .answerTime | .retry => 2
  | _ => 1

def dutyBytes (f : DutyFields) : List Byte :=
  b2 f.number ++ b2 f.release ++ b1 f.mask.toNat ++ b1 f.fuel.code ++ encOpt b1 f.minLevel ++ encOpt b2 f.fleet

def clearBytes (f : ClearFields) : List Byte :=
  b1 f.flags.toNat ++ encYesNo f.line ++ encYesNo f.station ++ encYesNo f.cost ++ encYesNo f.lost

/-- The code and the fields of the record that carries a host command (R207, R210); none for an event, for a code that
names no command, and for a layout command whose record lacks a field that must be given. -/
def Instr.hostFields (i : Instr) : Option (Nat × List Byte) :=
  match i with
  | .setStation f => (stationBytes f).map (1, ·)
  | .addLane f => (laneBytes f).map (2, ·)
  | .addPump f => (pumpBytes f).map (3, ·)
  | .setIsland f => (islandBytes f).map (4, ·)
  | .addWash f => (washBytes f).map (5, ·)
  | .setGate f => (gateBytes f).map (6, ·)
  | .mapPoint f => (pointBytes f).map (7, ·)
  | .setParameter p v => some (8, b1 p.code ++ bytesOf (paramWidth p) v)
  | .lock => some (9, [])
  | .setClock minute seconds => some (10, b2 minute ++ b1 seconds)
  | .placeParked lane bus => some (11, b1 lane ++ busBytes bus)
  | .setStock fuel v => some (12, b1 fuel.code ++ b4 v)
  | .loadDuty f => some (13, dutyBytes f)
  | .start => some (14, [])
  | .dropDuty n => some (15, b2 n)
  | .delivery fuel v => some (16, b1 fuel.code ++ b4 v)
  | .closeLane l => some (17, b1 l)
  | .openLane l => some (18, b1 l)
  | .reopenPump p => some (19, b1 p)
  | .reopenWash w => some (20, b1 w)
  | .admitBus bus => some (21, busBytes bus)
  | .resolveAtPoint f k i => some (22, b2 f ++ b1 0 ++ b1 k.code ++ b1 i)
  | .resolveReseek f => some (22, b2 f ++ b1 1)
  | .resolveLeftYard f => some (22, b2 f ++ b1 2)
  | .readRecord f => some (23, b1 0 ++ b2 f)
  | .readLane l => some (23, b1 1 ++ b1 l)
  | .readApron => some (23, b1 2)
  | .readWashQueue w => some (23, b1 3 ++ b1 w)
  | .readDuty n => some (23, b1 4 ++ b2 n)
  | .readDuties => some (23, b1 5)
  | .readSeekTable => some (23, b1 6)
  | .readCounters => some (23, b1 7)
  | .readLineSummary => some (23, b1 8)
  | .readStatus => some (23, b1 9)
  | .clearFlags f => some (24, clearBytes f)
  | .takeNotice => some (25, [])
  | .reset => some (26, [])
  | _ => none

/-- A command record: start byte, length, code, fields, check (R207). -/
def hostRecord (code : Nat) (fields : List Byte) : List Byte :=
  let body := b2 (fields.length + 1) ++ b1 code ++ fields
  0xC3#8 :: body ++ [-(body.foldl (· + ·) 0)]

end Sys2Proof
end

