-- ==== Sys2Proof/Machine/Ops.lean ====
section
/-! DEFINITION. The shared operations: what the blocks read beside the yard (Env), minutes of the day, lists kept by a
key, custody records, notices, signs and the transmit queue. -/

namespace Sys2Proof.Machine

/-- What a block reads beside the yard while one event is carried out: the layout in force, whether the phase is
RUNNING, the service minute, CLOCK_VALID and the second counted from the crystal. -/
structure Env where
  layout : Layout
  running : Bool
  minute : Nat
  clockValid : Bool
  second : Nat
  deriving DecidableEq, Repr

/-- The environment the blocks read in a state. -/
def State.env (s : State) : Env :=
  ⟨s.layout, decide (s.phase = .running), s.clock.minute, s.clock.valid, s.crystalMs / 1000⟩

/-- The station is in reset: RESET_N low or the supply below its working range (R222). -/
def State.inReset (s : State) : Bool := s.pinLow || s.supplyLow

/-- Carries out a yard event. In reset every input is ignored (R222). -/
def State.onYard (f : Env → Yard → Yard) (s : State) : State :=
  if s.inReset then s else { s with yard := f s.env s.yard }

/-- Carries out a yard event that the blocks act on in the RUNNING phase alone. -/
def State.whenRunning (f : Env → Yard → Yard) (s : State) : State :=
  if s.inReset || decide (s.phase ≠ .running) then s else { s with yard := f s.env s.yard }

/-- This station's own number (R213). -/
def Layout.own (l : Layout) : Nat :=
  match l.station with
  | some c => c.number
  | none => 0

/-! ## Minutes of the day (00_scope 5.1, 5.2, R45) -/

/-- Minute a is later than minute b: (a - b) mod 1440 lies in 1 to 719. -/
def laterThan (a b : Nat) : Bool :=
  let d := (a + 1440 - b % 1440) % 1440
  decide (1 ≤ d) && decide (d ≤ 719)

/-- The forward slack from now to a release; a past release has slack 0. -/
def slackTo (now release : Nat) : Nat :=
  let d := (release + 1440 - now % 1440) % 1440
  if d ≥ 720 then 0 else d

/-- The forward slack of a bus; a spare has 1439 (R77). -/
def slackOf (now : Nat) : Option Nat → Nat
  | none => Config.spareSlack
  | some r => slackTo now r

/-- A change of minute from a to b reaches the awaited minute w (R45). -/
def reaches (a b w : Nat) : Bool := decide (w = b) || (laterThan w a && laterThan b w)

/-- ⌈a ÷ b⌉. -/
def ceilDiv (a b : Nat) : Nat := (a + b - 1) / b

/-- A counter that stops at its largest value. -/
def sat (cap n : Nat) : Nat := min cap (n + 1)

/-! ## Lists kept by a key -/

/-- Puts an item into a list strictly rising by key, in place of an item of the same key. -/
def insertBy (key : α → Nat) (x : α) : List α → List α
  | [] => [x]
  | y :: ys => if key x < key y then x :: y :: ys else if key x = key y then x :: ys else y :: insertBy key x ys

/-- The list is strictly rising by key: the one canonical form of a table that has no order of its own (log 15). -/
def risingBy (key : α → Nat) : List α → Bool
  | [] => true
  | [_] => true
  | x :: y :: ys => decide (key x < key y) && risingBy key (y :: ys)

/-- Changes the first item that satisfies p. -/
def updFirst (p : α → Bool) (f : α → α) : List α → List α
  | [] => []
  | x :: xs => if p x then f x :: xs else x :: updFirst p f xs

/-- Removes the first item that satisfies p. -/
def dropFirst (p : α → Bool) : List α → List α
  | [] => []
  | x :: xs => if p x then xs else x :: dropFirst p xs

/-- Appends an item to a list of bounded length; a full list loses its oldest item (R51, R57, R58). -/
def pushOldest (cap : Nat) (x : α) (l : List α) : List α :=
  (if l.length < cap then l else l.drop 1) ++ [x]

/-! ## Notices (R219) -/

/-- A block raises a notice. -/
def notify (e : Env) (k : NoticeKind) (fleet : Option Nat) (res : Option NoticeRes) (detail : List Nat) (y : Yard) :
    Yard :=
  if y.notices.length < Config.noticeCap then
    { y with notices := y.notices ++ [⟨k, if e.clockValid then e.minute else 0, fleet, res, detail⟩] }
  else { y with lost := sat 255 y.lost }

/-! ## Custody records (chapter 1) -/

def Yard.rec? (y : Yard) (fleet : Nat) : Option Record := y.records.find? (·.bus.fleet == fleet)

/-- The record of a fleet is held in a state at a location. -/
def Yard.heldAt (y : Yard) (fleet : Nat) (st : RecState) (loc : Loc) : Bool :=
  match y.rec? fleet with
  | some r => r.state == st && r.loc == loc
  | none => false

/-- The confirmed field follows from the state (R6). -/
def RecState.confirmed : RecState → Bool
  | .expected | .outbound | .stray | .adrift => false
  | _ => true

def Record.release (r : Record) : Option Nat := r.bus.pin.map (·.release)

/-- The release in the record of a fleet, absent for a spare or a fleet not held. -/
def Yard.releaseOf (y : Yard) (fleet : Nat) : Option Nat := (y.rec? fleet).bind Record.release

/-- Changes the record of a fleet, if it is held. A write to a record that is no longer held is not made (R3). -/
def onRec (fleet : Nat) (f : Record → Record) (y : Yard) : Yard :=
  { y with records := updFirst (·.bus.fleet == fleet) f y.records }

/-- Sets state and location of a record. -/
def placeRec (fleet : Nat) (st : RecState) (loc : Loc) (y : Yard) : Yard :=
  onRec fleet (fun r => { r with state := st, loc := loc }) y

def Record.setPin (p : Option Pin) (r : Record) : Record := { r with bus.pin := p }

/-- Removes the head of the itinerary when it is the service that has ended (R5, log 20). -/
def Record.popHead (sv : Service) (r : Record) : Record :=
  match r.bus.itinerary with
  | s :: rest => if s = sv then { r with bus.itinerary := rest } else r
  | [] => r

/-- The three answers to an insertion request (R10). -/
inductive InsertAnswer where
  | held | full | inserted
  deriving DecidableEq, Repr

/-- HELD is tested before FULL (R10). -/
def insertAnswer (fleet : Nat) (y : Yard) : InsertAnswer :=
  if (y.rec? fleet).isSome then .held
  else if y.records.length ≥ Config.custodyCap then .full
  else .inserted

/-- Adds a record; asked for after the answer INSERTED. -/
def addRec (r : Record) (y : Yard) : Yard := { y with records := insertBy (·.bus.fleet) r y.records }

/-- A record enters SEEKING and joins the tail of the seeking list (R9). Its place, if it has one, stays. -/
def enterSeeking (fleet : Nat) (y : Yard) : Yard :=
  let y := onRec fleet (fun r => { r with state := .seeking }) y
  { y with seeking := y.seeking.filter (· != fleet) ++ [fleet] }

/-- The next step of a record in ARRIVED or SERVED (R8). -/
def nextStep (fleet : Nat) (y : Yard) : Yard :=
  enterSeeking fleet (onRec fleet (fun r =>
    match r.bus.itinerary with
    | [] => { r with bus.itinerary := [.berth] }
    | .exit :: _ => { r with bus.itinerary := [.berth] }
    | _ => r) y)

/-- Takes the record of a fleet out of the custody table and out of the lists that name it: the seeking list (R14), the
taken list (R58) and the fault re-seek list (R154). -/
def removeRec (fleet : Nat) (y : Yard) : Yard :=
  { y with
    records := y.records.filter (·.bus.fleet != fleet)
    seeking := y.seeking.filter (· != fleet)
    seek.taken := y.seek.taken.filter (·.fleet != fleet)
    wash.faultList := y.wash.faultList.filter (· != fleet) }

/-- A record goes ADRIFT or STRAY: location NONE, out of the seeking list (R9) and the fault re-seek list (R154). -/
def loseRec (fleet : Nat) (st : RecState) (y : Yard) : Yard :=
  let y := placeRec fleet st .nowhere y
  { y with
    seeking := y.seeking.filter (· != fleet)
    wash.faultList := y.wash.faultList.filter (· != fleet) }

/-! ## Signs (R201 to R205) -/

/-- The value in hand of a sign: that of its record being sent, else its sent value (R204). -/
def Sign.inHand (p : SignPort) (s : Sign) : Option Nat :=
  match p.sending with
  | some r => if r.number = s.number then some r.value else s.sent
  | none => s.sent

/-- The port takes the oldest waiting record when it sends none (R204, log 22). -/
def SignPort.kick (p : SignPort) : SignPort :=
  match p.sending, p.list with
  | none, r :: rest => { p with sending := some r, list := rest }
  | _, _ => p

/-- A change of a sign's current value is handed to the send list (R204). -/
def SignPort.handOver (n v : Nat) (p : SignPort) : SignPort :=
  match p.signs.find? (·.number == n) with
  | none => p
  | some s =>
    if p.list.any (·.number == n) then
      if s.inHand p = some v then { p with list := p.list.filter (·.number != n) }
      else { p with list := p.list.map fun r => if r.number = n then { r with value := v } else r }
    else if s.inHand p = some v then p
    else { p with list := p.list ++ [⟨n, v⟩] }

/-- An owner gives a sign a value (R201); only a change is handed on, and in the RUNNING phase alone (R204). -/
def setSign (e : Env) (n v : Nat) (y : Yard) : Yard :=
  match y.signs.signs.find? (·.number == n) with
  | none => y
  | some s =>
    if s.current = v then y
    else
      let y := { y with signs.signs := updFirst (·.number == n) (fun s => { s with current := v }) y.signs.signs }
      if e.running then { y with signs := (y.signs.handOver n v).kick } else y

/-- Destination code (R201): 16 × area + 1 for FUEL, 2 for WASH, 3 for BERTH. -/
def destCode (area : Nat) (s : Service) : Nat := 16 * area + s.code + 1

/-! ## The duty list and the pin table, read by other blocks (chapter 8) -/

def Yard.duty? (y : Yard) (n : Nat) : Option Duty := y.gate.duties.find? (·.number == n)

/-- The fleet paired with a duty (R170). -/
def Yard.pinnedFleet (y : Yard) (duty : Nat) : Option Nat := (y.gate.pins.find? (·.duty == duty)).map (·.fleet)

/-- The duty paired with a fleet. -/
def Yard.pairedDuty (y : Yard) (fleet : Nat) : Option Nat := (y.gate.pins.find? (·.fleet == fleet)).map (·.duty)

/-- The pin the pin table holds for a fleet. -/
def Yard.tablePin (y : Yard) (fleet : Nat) : Option Pin :=
  match y.pairedDuty fleet with
  | some d => (y.duty? d).map fun x => ⟨x.number, x.release⟩
  | none => none

/-! ## The transmit queue (R35, R36) -/

def Yard.seekEntry? (y : Yard) (number : Nat) : Option SeekEntry := y.seek.table.find? (·.number == number)

/-- The seek area the layout names for a service (R213). -/
def Layout.seekArea (l : Layout) (s : Service) : Nat :=
  match l.station with
  | none => 0
  | some c => match s with
    | .fuel => c.seekFuel | .wash => c.seekWash | .berth => c.seekBerth | .exit => c.seekExit

/-- The group a SEEK for a service goes to (R52). -/
def seekDest : Service → Dest
  | .fuel => .fuelGroup | .wash => .washGroup | .berth => .berthGroup | .exit => .berthGroup

/-- The bus summary of a record (R52). -/
def busSummary (r : Record) : BusSummary :=
  ⟨r.bus.fleet, r.bus.cls, r.bus.fuel, r.bus.capacity, r.bus.level, r.bus.wash, r.release⟩

/-- Forms a frame's content from the blocks as they stand (R35, R52, R59, R69, R174, R179). A request whose subject is
gone forms no frame. -/
def buildFrame (e : Env) (y : Yard) : TxReq → Option Frame
  | .seek n =>
    match y.seekEntry? n with
    | none => none
    | some en =>
      match en.subject with
      | .bus f s =>
        (y.rec? f).map fun r =>
          ⟨e.layout.own, seekDest s, ⟨e.layout.own, n⟩,
            .seek (e.layout.seekArea s) en.excl (.push s (busSummary r))⟩
      | .duty d =>
        (y.duty? d).map fun x =>
          ⟨e.layout.own, .berthGroup, ⟨e.layout.own, n⟩,
            .seek (e.layout.seekArea .exit) en.excl
              (.pull ⟨x.number, x.release, x.mask, x.fuel, x.minLevel, y.pinnedFleet d⟩)⟩
  | .handover n =>
    match y.seekEntry? n with
    | none => none
    | some en =>
      match en.subject, en.winner with
      | .bus f _, some w =>
        (y.rec? f).map fun r => ⟨e.layout.own, .station w.station, ⟨e.layout.own, n⟩, .handover r.bus⟩
      | _, _ => none
  | .exitHandover ref f =>
    (y.rec? f).map fun r => ⟨e.layout.own, .station ref.station, ref, .handover { r.bus with itinerary := [.exit] }⟩
  | .offer ref cost s area fleet => some ⟨e.layout.own, .station ref.station, ref, .offer cost s area fleet⟩
  | .answer a dest ref f => some ⟨e.layout.own, .station dest, ref, .answer a f⟩
  | .claim dest ref f => some ⟨e.layout.own, .station dest, ref, .claim f⟩
  | .cancel dest ref f => some ⟨e.layout.own, .station dest, ref, .cancel f⟩
  | .repin f => some ⟨e.layout.own, .all, ⟨e.layout.own, 0⟩, .repin f (y.tablePin f)⟩
  | .time m => some ⟨e.layout.own, .all, ⟨e.layout.own, 0⟩, .time m⟩

/-- A request enters the transmit queue: its frame is formed now. -/
def enterTx (e : Env) (r : TxReq) (y : Yard) : Yard :=
  match buildFrame e y r with
  | some f => { y with line.queue := y.line.queue ++ [⟨r, f, 0, false, false⟩] }
  | none => y

/-- Each time a place frees, the oldest waiting request enters the queue (R35). -/
def fillTx (e : Env) : List TxReq → Yard → Yard
  | [], y => { y with line.waiting := [] }
  | r :: rs, y =>
    if y.line.queue.length < Config.txCap then fillTx e rs (enterTx e r y) else { y with line.waiting := r :: rs }

/-- Lets waiting requests into the free places. -/
def refillTx (e : Env) (y : Yard) : Yard := fillTx e y.line.waiting y

/-- A block asks to send a frame (R35): it enters the queue if a place is free and no earlier request waits. -/
def send (e : Env) (r : TxReq) (y : Yard) : Yard :=
  if y.line.queue.length < Config.txCap ∧ y.line.waiting = [] then enterTx e r y
  else { y with line.waiting := y.line.waiting ++ [r] }

/-- A block withdraws what it asked to send (R35): a waiting request and a queued frame go at once; a frame being sent
is sent to its end and is then gone. -/
def withdraw (e : Env) (p : TxReq → Bool) (y : Yard) : Yard :=
  refillTx e { y with
    line.waiting := y.line.waiting.filter (!p ·)
    line.queue := (y.line.queue.map fun t => if p t.req && t.sending then { t with withdrawn := true } else t).filter
      fun t => !(p t.req && !t.sending) }

end Sys2Proof.Machine
end

