-- ==== Sys2Proof/Machine/Flags.lean ====
section
/-! DEFINITION. The flags and counters: the line error summary (R40), the line counters (R41), the station counters
(R217) and what CLEAR FLAGS does to them (R218). -/

namespace Sys2Proof.Machine

def LineFlags.get (f : LineFlags) : LineFlag → Bool
  | .poolFull => f.poolFull | .txFail => f.txFail | .rxMalformed => f.rxMalformed | .noTaker => f.noTaker
  | .unrelated => f.unrelated

def LineFlags.set (f : LineFlags) : LineFlag → LineFlags
  | .poolFull => { f with poolFull := true }
  | .txFail => { f with txFail := true }
  | .rxMalformed => { f with rxMalformed := true }
  | .noTaker => { f with noTaker := true }
  | .unrelated => { f with unrelated := true }

/-- Sets a flag of the line error summary; from clear to set it raises one LINE_ERROR notice (R40). -/
def setFlag (e : Env) (fl : LineFlag) (y : Yard) : Yard :=
  if y.line.flags.get fl then y
  else notify e .lineError none none [fl.code] { y with line.flags := y.line.flags.set fl }

/-- Clears the flags a mask names (R218); that bit k names the flag at position k of R40's table, POOL_FULL at bit 0, is
the model's choice (log 59). -/
def LineFlags.clear (mask : BitVec 5) (f : LineFlags) : LineFlags where
  poolFull := f.poolFull && !mask.getLsbD 0
  txFail := f.txFail && !mask.getLsbD 1
  rxMalformed := f.rxMalformed && !mask.getLsbD 2
  noTaker := f.noTaker && !mask.getLsbD 3
  unrelated := f.unrelated && !mask.getLsbD 4

/-- What CLEAR FLAGS clears in the yard (R218). HOST_DISCARDED is cleared by the host link. -/
def clearYard (f : ClearFields) (y : Yard) : Yard :=
  { y with
    line.flags := y.line.flags.clear f.flags
    line.cnt := if f.line then {} else y.line.cnt
    cnt := if f.station then {} else y.cnt
    saturated := if f.cost then false else y.saturated
    lost := if f.lost then 0 else y.lost }

def countSent (y : Yard) : Yard := { y with line.cnt.sent := sat 65535 y.line.cnt.sent }
def countReceived (y : Yard) : Yard := { y with line.cnt.received := sat 65535 y.line.cnt.received }
def countRxLost (y : Yard) : Yard := { y with line.cnt.rxLost := sat 255 y.line.cnt.rxLost }
def countCrcBad (y : Yard) : Yard := { y with line.cnt.crcBad := sat 65535 y.line.cnt.crcBad }
def countMalformed (y : Yard) : Yard := { y with line.cnt.malformed := sat 65535 y.line.cnt.malformed }
def countTxDamaged (y : Yard) : Yard := { y with line.cnt.txDamaged := sat 65535 y.line.cnt.txDamaged }
def countTxDropped (y : Yard) : Yard := { y with line.cnt.txDropped := sat 65535 y.line.cnt.txDropped }
def countOfferUnsent (y : Yard) : Yard := { y with line.cnt.offerUnsent := sat 65535 y.line.cnt.offerUnsent }
def countTimeAdopted (y : Yard) : Yard := { y with line.cnt.timeAdopted := sat 65535 y.line.cnt.timeAdopted }
def countStale (y : Yard) : Yard := { y with cnt.stale := sat 65535 y.cnt.stale }
def countEmptyClear (y : Yard) : Yard := { y with cnt.emptyClears := sat 65535 y.cnt.emptyClears }
def countNozzleIgnored (y : Yard) : Yard := { y with cnt.nozzleIgnored := sat 65535 y.cnt.nozzleIgnored }
def countTagBad (y : Yard) : Yard := { y with cnt.tagBad := sat 65535 y.cnt.tagBad }
def countDupTag (y : Yard) : Yard := { y with cnt.dupTags := sat 65535 y.cnt.dupTags }
def countPollFailed (y : Yard) : Yard := { y with cnt.pollFailed := sat 65535 y.cnt.pollFailed }

end Sys2Proof.Machine
end

