-- ==== Sys2Proof/Machine/Points.lean ====
section
/-! DEFINITION. Points and their expectation queues (R190, R193 to R196), and the sign that a point's clear ends. -/

namespace Sys2Proof.Machine

def Point.is (k : PointKind) (i : Nat) (p : Point) : Bool := p.cfg.kind == k && p.cfg.index == i

def Yard.point? (y : Yard) (k : PointKind) (i : Nat) : Option Point := y.points.find? (·.is k i)

/-- The four receiving points have an expectation queue (R190). -/
def PointKind.receiving : PointKind → Bool
  | .gateOut | .apronIn | .washIn | .laneIn => true
  | _ => false

/-- Each time the queue of a LANE_IN point changes, the lane's entry light follows: GREEN while it holds an entry
(R193, R201). -/
def entryLight (e : Env) (k : PointKind) (i : Nat) (y : Yard) : Yard :=
  match k, y.point? k i with
  | .laneIn, some p => setSign e i (if p.queue = [] then 0 else 1) y
  | _, _ => y

/-- Changes a point's expectation queue; its lane entry light follows. -/
def onQueue (e : Env) (k : PointKind) (i : Nat) (f : List Expect → List Expect) (y : Yard) : Yard :=
  entryLight e k i { y with points := updFirst (·.is k i) (fun p => { p with queue := f p.queue }) y.points }

/-- The fleet has an entry in some expectation queue of the station. -/
def Yard.expected (y : Yard) (fleet : Nat) : Bool := y.points.any fun p => p.queue.any (·.fleet == fleet)

/-- Pushes an expectation (R194); none stands for the answer FULL. timed says whether the entry has a travel time. -/
def pushExpect (e : Env) (k : PointKind) (i fleet : Nat) (timed : Bool) (y : Yard) : Option Yard :=
  match y.point? k i with
  | none => none
  | some p =>
    if p.queue.length ≥ Config.expectCap || y.expected fleet then none
    else
      some (onQueue e k i (· ++ [⟨fleet, if timed then some (e.second + 60 * e.layout.params.travel) else none⟩]) y)

/-- Removes the entry for a fleet, wherever it stands (R196). -/
def removeExpect (e : Env) (k : PointKind) (i fleet : Nat) (y : Yard) : Yard :=
  onQueue e k i (·.filter (·.fleet != fleet)) y

/-- Moves the entry for a fleet to the tail, its expiry unchanged (R196). -/
def tailExpect (e : Env) (k : PointKind) (i fleet : Nat) (y : Yard) : Yard :=
  onQueue e k i (fun q => q.filter (·.fleet != fleet) ++ q.filter (·.fleet == fleet)) y

/-- Pops the oldest entry (R195). -/
def popExpect (e : Env) (k : PointKind) (i : Nat) (y : Yard) : Option Expect × Yard :=
  match y.point? k i with
  | some p =>
    match p.queue with
    | x :: _ => (some x, onQueue e k i (·.drop 1) y)
    | [] => (none, y)
  | none => (none, y)

/-- Puts a popped entry back at the front (R196). -/
def handBack (e : Env) (k : PointKind) (i : Nat) (x : Expect) (y : Yard) : Yard := onQueue e k i (x :: ·) y

/-- The point whose queue holds an entry for a fleet, with that entry. -/
def Yard.expectation? (y : Yard) (fleet : Nat) : Option (Point × Expect) :=
  match y.points.find? fun p => p.queue.any (·.fleet == fleet) with
  | some p => (p.queue.find? (·.fleet == fleet)).map (p, ·)
  | none => none

end Sys2Proof.Machine
end

