-- ==== Sys2Proof/Machine/Lanes.lean ====
section
/-! DEFINITION. The lane unit (chapter 5): lane state, positions, reservations and commitments, release light. -/

namespace Sys2Proof.Machine

/-- R93. -/
def Lane.state (l : Lane) : LaneState :=
  if l.closed then .closed else if l.blocked then .suspended else .opened

/-- Positions plus reservation list entries (R95). -/
def Lane.occupancy (l : Lane) : Nat := l.positions.length + l.reservs.length

/-- R95. -/
def Lane.room (l : Lane) : Bool := l.occupancy < l.cfg.depth

def PosState.isLeaving : PosState → Bool
  | .leaving _ => true
  | _ => false

/-- The release light: GO while the front position is LEAVING (R104). -/
def Lane.light (l : Lane) : Nat :=
  match l.positions with
  | p :: _ => if p.state.isLeaving then 1 else 0
  | [] => 0

def Yard.lane? (y : Yard) (n : Nat) : Option Lane := y.lanes.find? (·.cfg.number == n)

def onLane (n : Nat) (f : Lane → Lane) (y : Yard) : Yard :=
  { y with lanes := updFirst (·.cfg.number == n) f y.lanes }

/-- Recomputes a lane's release light and gives a new value to the sign port (R104, R201). -/
def laneLight (e : Env) (n : Nat) (y : Yard) : Yard :=
  match y.lane? n with
  | some l => setSign e (16 + n) l.light y
  | none => y

/-- Changes a lane's positions; its light follows. -/
def onPositions (e : Env) (n : Nat) (f : List Position → List Position) (y : Yard) : Yard :=
  laneLight e n (onLane n (fun l => { l with positions := f l.positions }) y)

/-- The fleet has a LEAVING position in some lane of the station (R97). -/
def Yard.hasLeaving (y : Yard) (fleet : Nat) : Bool :=
  y.lanes.any fun l => l.positions.any fun p => p.fleet == fleet && p.state.isLeaving

/-- The lane's reservation list holds an entry of the fleet, HELD or COMMITTED (R95). -/
def Lane.lists (l : Lane) (fleet : Nat) : Bool := l.reservs.any (·.fleet == fleet)

/-- The lane's reservation list holds a COMMITTED entry of the fleet (R95). -/
def Lane.committed (l : Lane) (fleet : Nat) : Bool := l.reservs.any fun r => r.committed && r.fleet == fleet

/-- An entry joins the tail of the reservation list (R96, R97). A fleet appears in the list at most once (R95), so an
earlier entry of the fleet gives way to it (log 41). -/
def Lane.enter (l : Lane) (r : LaneRes) : Lane := { l with reservs := l.reservs.filter (·.fleet != r.fleet) ++ [r] }

/-- The commit test of R97: a late HANDOVER needs room, and so does a live one whose fleet has no place left in the list
(log 41). -/
def laneCommitTest (n fleet : Nat) (late : Bool) (y : Yard) : Bool :=
  match y.lane? n with
  | some l => decide (l.state ≠ .closed) && !y.hasLeaving fleet && (l.room || (!late && l.lists fleet))
  | none => false

/-- A won BERTH offer's HELD entry, when the lane has room (R79, R96); none when it has not. Where the fleet is COMMITTED
there already, the one entry stands for both and stays COMMITTED (R95, log 41). -/
def laneReserve (n : Nat) (ref : SeekRef) (fleet : Nat) (release : Option Nat) (y : Yard) : Option Yard :=
  match y.lane? n with
  | some l =>
    if l.room then some (onLane n (fun l => l.enter ⟨ref, fleet, release, l.committed fleet⟩) y) else none
  | none => none

/-- Removes the HELD entry of a seek reference and fleet (R96). -/
def laneRelease (n : Nat) (ref : SeekRef) (fleet : Nat) (y : Yard) : Yard :=
  onLane n (fun l => { l with reservs := dropFirst (fun r => !r.committed && r.ref == ref && r.fleet == fleet) l.reservs }) y

/-- Turns the fleet's entry into a commitment in its place, or appends one for a late HANDOVER and where the fleet has no
entry (log 41); the release stored is that of the HANDOVER (R97). -/
def laneCommit (n : Nat) (ref : SeekRef) (fleet : Nat) (release : Option Nat) (late : Bool) (y : Yard) : Yard :=
  onLane n (fun l =>
    if !late && l.lists fleet then
      { l with reservs := updFirst (·.fleet == fleet) (fun _ => ⟨ref, fleet, release, true⟩) l.reservs }
    else l.enter ⟨ref, fleet, release, true⟩) y

/-- Removes the COMMITTED entry of a fleet (R99, R101). -/
def laneUncommit (n fleet : Nat) (y : Yard) : Yard :=
  onLane n (fun l => { l with reservs := l.reservs.filter fun r => !(r.committed && r.fleet == fleet) }) y

/-- Sets the release of a fleet's COMMITTED entry (R98). -/
def laneRepin (n fleet : Nat) (release : Option Nat) (y : Yard) : Yard :=
  onLane n (fun l => { l with reservs := l.reservs.map fun r =>
    if r.committed && r.fleet == fleet then { r with release := release } else r }) y

/-- The state of a fleet's position that has a record is changed in its place (R94, R102). -/
def setPosition (e : Env) (n fleet : Nat) (st : PosState) (y : Yard) : Yard :=
  onPositions e n (updFirst (fun p => p.fleet == fleet && !p.state.isLeaving) fun p => { p with state := st }) y

/-- A position becomes LEAVING, with the release its record holds at that moment (R94, R103). -/
def leavePosition (e : Env) (n fleet : Nat) (y : Yard) : Yard :=
  setPosition e n fleet (.leaving (y.releaseOf fleet)) y

/-- The front position of a lane. -/
def Lane.front (l : Lane) : Option Position := l.positions.head?

/-- An arrival of a fleet at LANE_IN (R99). -/
def laneArrival (e : Env) (n fleet : Nat) (y : Yard) : Yard :=
  onPositions e n (· ++ [⟨fleet, .parked⟩])
    (onRec fleet (fun r => { r with state := .parked, loc := .lane n, bus.itinerary := (r.popHead .berth).bus.itinerary })
      (laneUncommit n fleet y))

/-- An arrival at LANE_IN with no expectation (R100). -/
def laneIntruder (e : Env) (n : Nat) (y : Yard) : Yard := notify e .intruder none (some (.lane n)) [] y

/-- A DWELL at LANE_IN (R108). -/
def laneDwell (e : Env) (n : Nat) (y : Yard) : Yard :=
  match y.lane? n with
  | some l =>
    if l.blocked then y
    else notify e .laneBlocked none (some (.lane n)) [] (onLane n (fun l => { l with blocked := true }) y)
  | none => y

/-- A CLEAR at LANE_IN (R108). -/
def laneEntryClear (n : Nat) (y : Yard) : Yard := onLane n (fun l => { l with blocked := false }) y

/-- At the day turn the stored releases of reservations and LEAVING positions go (R98). -/
def lanesDayTurn (y : Yard) : Yard :=
  { y with lanes := y.lanes.map fun l => { l with
      reservs := l.reservs.map fun r => { r with release := none }
      positions := l.positions.map fun p =>
        match p.state with
        | .leaving _ => { p with state := .leaving none }
        | _ => p } }

end Sys2Proof.Machine
end

