-- ==== Sys2Proof/Machine/Rounds.lean ====
section
/-! DEFINITION. The rounds of a seek (chapter 3): seek numbers, giving out entries, exclusion, withdrawing, cancelling
and the failed handover. -/

namespace Sys2Proof.Machine

def onSeek (n : Nat) (f : SeekEntry → SeekEntry) (y : Yard) : Yard :=
  { y with seek.table := updFirst (·.number == n) f y.seek.table }

/-- Takes an entry out of the seek table; its place goes out again when the event's own actions are made (log 5). -/
def removeSeek (n : Nat) (y : Yard) : Yard := { y with seek.table := dropFirst (·.number == n) y.seek.table }

def SeekEntry.isFor (f : Nat) (en : SeekEntry) : Bool :=
  match en.subject with
  | .bus g _ => g == f
  | .duty _ => false

def SeekEntry.isDuty (d : Nat) (en : SeekEntry) : Bool :=
  match en.subject with
  | .duty x => x == d
  | .bus _ _ => false

/-- The seek entry of a bus. -/
def Yard.busSeek? (y : Yard) (fleet : Nat) : Option SeekEntry := y.seek.table.find? (·.isFor fleet)

/-- The seek entry of a duty. -/
def Yard.dutySeek? (y : Yard) (duty : Nat) : Option SeekEntry := y.seek.table.find? (·.isDuty duty)

/-- Notes the fleet a seek number is given for (R72). -/
def noteGiven (k : Nat) (s : Subject) (y : Yard) : Yard :=
  match s with
  | .bus f _ => { y with seek.given := insertBy (·.1) (k, f) y.seek.given }
  | .duty _ => { y with seek.given := y.seek.given.filter (·.1 != k) }

/-- From a counter value on, the first number that no entry of the table holds; fuel bounds the numbers passed over. -/
def firstFree (table : List SeekEntry) : Nat → Nat → Nat
  | 0, k => k % 256
  | fuel + 1, k => if table.any (·.number == k % 256) then firstFree table fuel (k + 1) else k % 256

/-- The number the next entry takes: the counter's value, or, since a number is never given to two entries at once, the
first after it that no entry holds (R49, log 27). -/
def SeekEngine.nextNumber (g : SeekEngine) : Nat := firstFree g.table g.table.length g.counter

/-- The seek counter after it has given number k (R49). -/
def countFrom (k : Nat) (y : Yard) : Yard := { y with seek.counter := (k + 1) % 256 }

/-- The entry enters QUEUED: it takes its seek number from the counter and its SEEK is placed (R49, R52). -/
def newRound (e : Env) (n : Nat) (y : Yard) : Yard :=
  match y.seekEntry? n with
  | none => y
  | some en =>
    let k := y.seek.nextNumber
    send e (.seek k) (noteGiven k en.subject (countFrom k
      (onSeek n (fun x => { x with number := k, state := .queued, timer := none }) y)))

/-- What the next free entry is for (R50): first the first CALLING duty that waits for an entry, else the oldest
record of the seeking list that has none. That record may have an empty itinerary (a foreign HANDOVER for FUEL or WASH
brought none, and R118, R132 or R153 sends the bus seeking); the spec names no service for it, and the model gives out no
entry to any record while it is the oldest without one (DESIGN CHOICE, log 49). -/
def Yard.nextSubject (y : Yard) : Option Subject :=
  match y.gate.duties.find? fun d => match d.state with | .calling true _ => true | _ => false with
  | some d => some (.duty d.number)
  | none =>
    match y.seeking.find? fun f => (y.busSeek? f).isNone with
    | none => none
    | some f =>
      match y.rec? f with
      | some r => r.bus.itinerary.head?.map (.bus f ·)
      | none => none

/-- The duty's call pending becomes "no" (R174). -/
def callGiven (d : Nat) (y : Yard) : Yard :=
  { y with gate.duties := updFirst (·.number == d) (fun x =>
      match x.state with
      | .calling _ g => { x with state := .calling false g }
      | _ => x) y.gate.duties }

/-- Gives out one free entry, if one is free and something waits for it (R50). -/
def giveEntry (e : Env) (y : Yard) : Yard :=
  if y.seek.table.length < Config.seekCap then
    match y.nextSubject with
    | none => y
    | some s =>
      let k := y.seek.nextNumber
      let y := { y with seek.table := y.seek.table ++ [{ number := k, subject := s }] }
      let y := match s with
        | .duty d => callGiven d y
        | .bus _ _ => y
      send e (.seek k) (noteGiven k s (countFrom k y))
  else y

def giveTimes (e : Env) : Nat → Yard → Yard
  | 0, y => y
  | n + 1, y => giveTimes e n (giveEntry e y)

/-- Gives out every free entry; from START on (R50, R75). -/
def giveEntries (e : Env) (y : Yard) : Yard := if e.running then giveTimes e Config.seekCap y else y

/-- Adds a station to an exclusion list (R51). -/
def addExcl (st : Nat) (l : List Nat) : List Nat :=
  if l.contains st then l else pushOldest Config.exclCap st l

/-- Withdraws the HANDOVER of a PUSH entry that has not been carried (R59). -/
def withdrawHandover (e : Env) (n : Nat) (y : Yard) : Yard := withdraw e (· == .handover n) y

/-- Withdraws the HANDOVER of an EXIT offer entry. -/
def withdrawExit (e : Env) (ref : SeekRef) (fleet : Nat) (y : Yard) : Yard :=
  withdraw e (· == .exitHandover ref fleet) y

/-- A cancelled seek entry: the engine acts on the round by its state, and the entry goes (R70). An AWAITING entry whose
winning OFFER named no fleet has none for a CANCEL, and the model sends none (log 34). -/
def cancelSeek (e : Env) (n : Nat) (y : Yard) : Yard :=
  match y.seekEntry? n with
  | none => y
  | some en =>
    let ref : SeekRef := ⟨e.layout.own, n⟩
    let y := removeSeek n y
    match en.state, en.subject, en.winner with
    | .queued, _, _ => withdraw e (· == .seek n) y
    | .handing _, .bus f _, some w => send e (.cancel w.station ref f) (withdrawHandover e n y)
    | .awaiting, _, some w =>
      match en.offered with
      | some f => send e (.cancel w.station ref f) y
      | none => y
    | _, _, _ => y

/-- Cancels the seek of a bus, if it has one. -/
def cancelBusSeek (e : Env) (fleet : Nat) (y : Yard) : Yard :=
  match y.busSeek? fleet with
  | some en => cancelSeek e en.number y
  | none => y

/-- An entry's winner is excluded, the winner, attempts and offered fleet are cleared, and the entry passes through
WAIT_RETRY with no wait to QUEUED with a new seek number (R51, R62, R63, R68). -/
def excludeAndRetry (e : Env) (n st : Nat) (y : Yard) : Yard :=
  newRound e n (onSeek n (fun x =>
    { x with excl := addExcl st x.excl, winner := none, attempts := 0, offered := none, state := .waitRetry,
             timer := none }) y)

/-- A PUSH handover that has failed (R63). -/
def handoverFailed (e : Env) (n : Nat) (y : Yard) : Yard :=
  match y.seekEntry? n with
  | some en =>
    match en.subject, en.winner with
    | .bus f _, some w =>
      excludeAndRetry e n w.station (enterSeeking f (notify e .handoverFailed (some f) none [w.station] y))
    | _, _ => y
  | none => y

/-! ## The offer table -/

/-- An offer entry of a seek reference and a fleet: a HELD one, or, with held false, one in SENDING or PAUSED (R56). -/
def OfferEntry.is (held : Bool) (ref : SeekRef) (fleet : Nat) (o : OfferEntry) : Bool :=
  o.ref == ref && o.fleet == fleet && (o.state == .held) == held

/-- The HELD entry of a seek reference and a fleet (R65, case 1). -/
def Yard.heldOffer? (y : Yard) (ref : SeekRef) (fleet : Nat) : Option OfferEntry := y.seek.offers.find? (·.is true ref fleet)

/-- The entry in SENDING or PAUSED of a seek reference and a fleet (R69). -/
def Yard.exitOffer? (y : Yard) (ref : SeekRef) (fleet : Nat) : Option OfferEntry :=
  y.seek.offers.find? (·.is false ref fleet)

def onOffer (held : Bool) (ref : SeekRef) (fleet : Nat) (f : OfferEntry → OfferEntry) (y : Yard) : Yard :=
  { y with seek.offers := updFirst (·.is held ref fleet) f y.seek.offers }

def removeOffer (held : Bool) (ref : SeekRef) (fleet : Nat) (y : Yard) : Yard :=
  { y with seek.offers := dropFirst (·.is held ref fleet) y.seek.offers }

/-- The lane of an offer entry. -/
def Resource.laneNo : Resource → Option Nat
  | .lane l => some l
  | _ => none

/-- A called-out bus's handover ends without TAKEN: the position returns to PARKED and the entry goes (R69, R102). -/
def endCallOut (e : Env) (o : OfferEntry) (y : Yard) : Yard :=
  let y := removeOffer false o.ref o.fleet (withdrawExit e o.ref o.fleet y)
  match o.resource.laneNo with
  | some l => setPosition e l o.fleet .parked y
  | none => y

/-- Removes the EXIT offer entry of a fleet and withdraws its HANDOVER (R69, R15). -/
def dropExitOffer (e : Env) (fleet : Nat) (y : Yard) : Yard :=
  match y.seek.offers.find? fun o => o.service == .exit && o.fleet == fleet with
  | some o => removeOffer false o.ref o.fleet (withdrawExit e o.ref o.fleet y)
  | none => y

/-- Withdraws a pending OFFER made for a bus to a PULL seek (R15). -/
def dropPendingExit (e : Env) (fleet : Nat) (y : Yard) : Yard :=
  match y.seek.choice with
  | some c =>
    if c.service = .exit ∧ c.fleet = fleet then
      withdraw e (fun t => match t with
        | .offer r .. => r == c.ref
        | _ => false) { y with seek.choice := none }
    else y
  | none => y

end Sys2Proof.Machine
end

