-- ==== Sys2Proof/Machine/Duties.lean ====
section
/-! DEFINITION. Duties and pins at the gate (chapter 8): calling, uncovering, taking for a duty, the pins, the day turn,
and how a round with no offer ends (R54, R154, R176). -/

namespace Sys2Proof.Machine

/-- The gate's values; zeros where the station has no gate, which no duty can reach. -/
def Layout.gateCfg (l : Layout) : GateCfg :=
  match l.gate with
  | some g => g
  | none => ⟨0, 0, 0, 0, 0, 0, 0⟩

/-- CALLING with grace over "yes" (R176). -/
def DutyState.isOver : DutyState → Bool
  | .calling _ g => g
  | _ => false

def onDuty (n : Nat) (f : Duty → Duty) (y : Yard) : Yard :=
  { y with gate.duties := updFirst (·.number == n) f y.gate.duties }

def removeDuty (n : Nat) (y : Yard) : Yard := { y with gate.duties := dropFirst (·.number == n) y.gate.duties }

/-- Removes a duty's pair from the pin table. -/
def unpair (duty : Nat) (y : Yard) : Yard := { y with gate.pins := y.gate.pins.filter (·.duty != duty) }

/-- Adds a pair; the pin table has no order of its own and is kept rising by duty (log 15). -/
def pair (duty fleet : Nat) (y : Yard) : Yard := { y with gate.pins := insertBy (·.duty) ⟨duty, fleet⟩ y.gate.pins }

/-- Queues a REPIN for a fleet to ALL; it carries the pin as the pin table holds it when it enters the queue (R179). -/
def sendRepin (e : Env) (fleet : Nat) (y : Yard) : Yard := send e (.repin fleet) y

/-- The first minute later than release + grace, and the test that the current minute is later than it (R176). -/
def uncoverMinute (e : Env) (release : Nat) : Nat := (release + e.layout.gateCfg.grace + 1) % 1440

def graceOverNow (e : Env) (release : Nat) : Bool :=
  laterThan e.minute ((release + e.layout.gateCfg.grace) % 1440)

/-- The call minute (R174). -/
def callMinute (e : Env) (release : Nat) : Nat := (release + 1440 - e.layout.gateCfg.callLead) % 1440

/-- Removes a fleet's pin from the record, if the gate holds it, and queues REPIN(fleet → none) (R173, R176). The
release stored behind an expected berth of this station follows a received REPIN alone (R98, log 45). -/
def unpinFleet (e : Env) (fleet : Nat) (y : Yard) : Yard := sendRepin e fleet (onRec fleet (Record.setPin none) y)

/-- A duty is uncovered (R176): its entry goes, DUTY_UNCOVERED is raised, its pair and the bus's pin go, the duty
leaves the list. -/
def uncoverDuty (e : Env) (d : Nat) (y : Yard) : Yard :=
  let pinned := y.pinnedFleet d
  let y := match y.dutySeek? d with
    | some en => removeSeek en.number y
    | none => y
  let y := unpair d (notify e .dutyUncovered pinned none [d] y)
  let y := match pinned with
    | some f => unpinFleet e f y
    | none => y
  removeDuty d y

/-- A duty goes to CALLING with call pending "yes" and its grace over as the minute says; with its grace over it is
uncovered at once (R174, R176, R181). -/
def enterCalling (e : Env) (d : Duty) (y : Yard) : Yard :=
  let g := graceOverNow e d.release
  let y := onDuty d.number (fun x => { x with state := .calling true g }) y
  if g then uncoverDuty e d.number y else y

/-- An OPEN or PINNED duty whose slack is at or below the call lead is called at once (R174). -/
def callIfDue (e : Env) (n : Nat) (y : Yard) : Yard :=
  match y.duty? n with
  | some d =>
    match d.state with
    | .unpinned | .pinned => if slackTo e.minute d.release ≤ e.layout.gateCfg.callLead then enterCalling e d y else y
    | _ => y
  | none => y

/-- An OUTBOUND duty returns to CALLING with no served fleet (R181). -/
def recallFor (e : Env) (fleet : Nat) (y : Yard) : Yard :=
  match y.gate.duties.find? (fun d => d.state == .outbound fleet) with
  | some d => enterCalling e d y
  | none => y

/-- What a change of minute from a to b does to one duty (R174, R176). -/
def dutyMinute (e : Env) (a b : Nat) (n : Nat) (y : Yard) : Yard :=
  match y.duty? n with
  | none => y
  | some d =>
    match d.state with
    | .unpinned | .pinned => if reaches a b (callMinute e d.release) then enterCalling e d y else y
    | .calling pending _ =>
      if reaches a b (uncoverMinute e d.release) then
        let y := onDuty n (fun x => { x with state := .calling pending true }) y
        let waits : Bool := match y.dutySeek? n with
          | some en => en.state == .waitRetry
          | none => pending
        if waits then uncoverDuty e n y else y
      else y
    | .outbound _ => y

/-- The duties act on a change of minute (R45, R174, R176). Those rules give no order among duties; the model takes list
order (log 46). -/
def dutiesMinute (e : Env) (a b : Nat) (y : Yard) : Yard :=
  (y.gate.duties.map (·.number)).foldl (fun y n => dutyMinute e a b n y) y

/-- One duty expires at the day turn (R183): it leaves the list with a DUTY_EXPIRED notice. -/
def expireDuty (e : Env) (y : Yard) (d : Duty) : Yard :=
  let fleet := match d.state with
    | .outbound f => some f
    | _ => y.pinnedFleet d.number
  notify e .dutyExpired fleet none [d.number] (removeDuty d.number y)

/-- The seek of a duty, if it has one, is cancelled (R70). -/
def cancelDutySeek (e : Env) (y : Yard) (d : Duty) : Yard :=
  match y.dutySeek? d.number with
  | some en => cancelSeek e en.number y
  | none => y

/-- The gate's day turn (R183): the duties go in list order with DUTY_EXPIRED, their seeks are cancelled, the pin table
is emptied and pending REPINs are withdrawn. -/
def gateDayTurn (e : Env) (y : Yard) : Yard :=
  let y' := y.gate.duties.foldl (cancelDutySeek e) (y.gate.duties.foldl (expireDuty e) y)
  withdraw e (fun t => match t with
    | .repin _ => true
    | _ => false) { y' with gate.pins := [] }

/-- The day turn (R20, R48, R98, R183): every record loses its pin, the lanes' stored releases go, the gate expires its
duties. -/
def dayTurn (e : Env) (y : Yard) : Yard :=
  let y := lanesDayTurn { y with records := y.records.map (Record.setPin none) }
  if e.layout.gate.isSome then gateDayTurn e y else y

/-- A change of minute from a to b, handed to the blocks (R45, R48). e holds the new minute. The day turn comes before
the awaited minutes (log 7); duties are called in the RUNNING phase alone (R186). -/
def minuteChange (e : Env) (a b : Nat) (y : Yard) : Yard :=
  let y := if b < a then dayTurn e y else y
  if e.running then dutiesMinute e a b y else y

/-- The wash lane of a location. -/
def Loc.washRes : Loc → Option NoticeRes
  | .wash w => some (.wash w)
  | _ => none

/-- The wash unit takes a fault re-seek off its wash (R154). -/
def endFaultReseek (e : Env) (n fleet : Nat) (y : Yard) : Yard :=
  let loc := (y.rec? fleet).bind fun r => r.loc.washRes
  let y := removeSeek n y
  let y := onRec fleet (fun r =>
    let r := r.popHead .wash
    { r with bus.itinerary := if r.bus.itinerary = [] then [.berth] else r.bus.itinerary,
             bus.washMark := .skipped }) y
  notify e .washSkipped (some fleet) loc [2] { y with wash.faultList := y.wash.faultList.filter (· != fleet) }

/-- The NO_OFFER notice of a seek entry: the fleet of a PUSH seek or the duty of a PULL seek, and the service (R54). -/
def notifyNoOffer (e : Env) (s : Subject) (y : Yard) : Yard :=
  match s with
  | .bus f sv => notify e .noOffer (some f) (some (.service sv)) [] y
  | .duty d => notify e .noOffer none (some (.service .exit)) [d] y

/-- A round ends with no offer (R54): WAIT_RETRY with the retry period, NO_TAKER, one NO_OFFER notice for the entry;
then the two owners that end a seek differently (R154, R176). -/
def noOffer (e : Env) (n : Nat) (y : Yard) : Yard :=
  match y.seekEntry? n with
  | none => y
  | some en =>
    let y := onSeek n (fun x =>
      { x with state := .waitRetry, timer := some (1000 * e.layout.params.retry), reported := true }) y
    let y := setFlag e .noTaker y
    let y := if en.reported then y else notifyNoOffer e en.subject y
    match en.subject with
    | .bus f .wash => if y.wash.faultList.contains f then endFaultReseek e n f y else y
    | .bus _ _ => y
    | .duty d =>
      match y.duty? d with
      | some x => if x.state.isOver then uncoverDuty e d y else y
      | none => y

/-! ## Pins (R169, R177, R178) -/

/-- The gate's own record of a fleet takes the pin of a duty; the release stored behind an expected berth of this
station follows a received REPIN alone (R98, R178, log 45). -/
def pinRec (fleet : Nat) (d : Duty) (y : Yard) : Yard := onRec fleet (Record.setPin (some ⟨d.number, d.release⟩)) y

/-- The pin attempt for a new record (R169). -/
def pinAttempt (fleet : Nat) (y : Yard) : Yard :=
  match y.tablePin fleet with
  | some p => onRec fleet (Record.setPin (some p)) y
  | none =>
    match y.rec? fleet with
    | none => y
    | some r =>
      match y.gate.duties.find? fun d =>
          d.state == .unpinned && d.mask.getLsbD r.bus.cls && d.fuel == r.bus.fuel with
      | some d => pinRec fleet d (pair d.number fleet (onDuty d.number (fun x => { x with state := .pinned }) y))
      | none => y

/-- A PINNED duty left with no pair becomes OPEN (R178). -/
def openIfPinned (d : Nat) (y : Yard) : Yard :=
  onDuty d (fun x => if x.state = .pinned then { x with state := .unpinned } else x) y

/-- The pins after fleet b is taken for duty n (R178), from the pin table as it stood before Y's pair left it. -/
def resolvePins (e : Env) (n b : Nat) (y : Yard) : Yard :=
  let a := y.pinnedFleet n
  let x := y.pairedDuty b
  let y := unpair n y
  if a = some b then y
  else
    match x, a with
    | some dx, some fa =>
      let y := pair dx fa (unpair dx y)
      let y := match y.duty? dx with
        | some d => pinRec fa d y
        | none => y
      callIfDue e dx (sendRepin e fa y)
    | some dx, none => callIfDue e dx (openIfPinned dx (unpair dx y))
    | none, some fa => unpinFleet e fa y
    | none, none => y

end Sys2Proof.Machine
end

