-- ==== Sys2Proof/Machine/Arrivals.lean ====
section
/-! DEFINITION. From the arrival FIFO to a record (R11, R164, R168), the loop cross-check (R167), and settle: what
follows "whenever" a place of the custody table or a seek entry is free. -/

namespace Sys2Proof.Machine

/-- The itinerary of a new record: FUEL, WASH, BERTH, the first two where the bus needs them (R168). -/
def buildItinerary (refuel : Nat) (b : BusFields) : List Service :=
  (if b.fuel ≠ .noFuel ∧ b.level < refuel then [.fuel] else [])
    ++ (if b.wash ≠ .noWash then [.wash] else []) ++ [.berth]

/-- The carried fields of a record made from a bus's fields: no marks, no pin, the current minute (R11, R13). -/
def freshBus (b : BusFields) (itinerary : List Service) (minute : Nat) : Carried :=
  ⟨b.fleet, b.cls, b.fuel, b.capacity, b.level, .unmarked, b.wash, .unmarked, none, itinerary, minute⟩

/-- Asks for the insertion of the FIFO's head (R11, R168). -/
def fifoStep (e : Env) (y : Yard) : Yard :=
  match y.gate.fifo with
  | [] => y
  | h :: rest =>
    match insertAnswer h.bus.fleet y with
    | .full => y
    | .held => countDupTag { y with gate.fifo := rest }
    | .inserted =>
      let r : Record := ⟨freshBus h.bus (buildItinerary e.layout.gateCfg.refuel h.bus) e.minute, .arrived, .gate⟩
      nextStep h.bus.fleet (pinAttempt h.bus.fleet (addRec r { y with gate.fifo := rest }))

def fifoTimes (e : Env) : Nat → Yard → Yard
  | 0, y => y
  | n + 1, y => fifoTimes e n (fifoStep e y)

/-- At the end of an event: the FIFO's head asks again while it can enter (R11), and free seek entries go out (R50,
log 5). -/
def settle (e : Env) (y : Yard) : Yard := giveEntries e (fifoTimes e Config.fifoCap y)

/-- The gate entry INTRUDER of an arrival that no read matched (R167). -/
def gateIntruder (e : Env) (y : Yard) : Yard := notify e .intruder none (some .gateEntry) [] y

/-- A tag read, or an ADMIT taken, in the loop cross-check (R167). -/
def crossRead (e : Env) (y : Yard) : Yard :=
  match y.gate.arrivals with
  | _ :: rest => { y with gate.arrivals := rest }
  | [] => { y with gate.reads := pushOldest Config.fifoCap e.second y.gate.reads }

/-- An ARRIVE at GATE_IN in the loop cross-check (R167); a full list loses its oldest arrival with its INTRUDER. -/
def crossArrive (e : Env) (y : Yard) : Yard :=
  match y.gate.reads with
  | _ :: rest => { y with gate.reads := rest }
  | [] =>
    let y := if y.gate.arrivals.length < Config.fifoCap then y else gateIntruder e y
    { y with gate.arrivals := pushOldest Config.fifoCap e.second y.gate.arrivals }

/-- The oldest item of a cross-check list reaches the end of the tag window (R167). -/
def windowEnd (e : Env) (arrivals : Bool) (y : Yard) : Yard :=
  if arrivals then
    match y.gate.arrivals with
    | _ :: rest => gateIntruder e { y with gate.arrivals := rest }
    | [] => y
  else { y with gate.reads := y.gate.reads.drop 1 }

/-- A good tag (R165): it joins the FIFO or is lost with ARRIVAL_LOST, and it counts as a tag read. -/
def goodTag (e : Env) (b : BusFields) (y : Yard) : Yard :=
  let y := if y.gate.fifo.length < Config.fifoCap then { y with gate.fifo := y.gate.fifo ++ [⟨b, false⟩] }
    else notify e .arrivalLost (some b.fleet) none [] y
  settle e (crossRead e y)

end Sys2Proof.Machine
end

