-- ==== Sys2Proof/Machine/Fuels.lean ====
section
/-! DEFINITION. The fuel unit (chapter 6): stock, fill targets, the apron, calling, metering and leaving the bay. -/

namespace Sys2Proof.Machine

/-- The island's values; a station with a pump has them (R214, check 5). -/
def Layout.islandCfg (l : Layout) : IslandCfg :=
  match l.island with
  | some c => c
  | none => ⟨0, 0, 0, 0, 0, 0, 0, 1, 0, 0, 0, 0⟩

def IslandCfg.reserve (c : IslandCfg) : Fuel → Nat
  | .diesel => c.reserveDiesel
  | .gas => c.reserveGas
  | .noFuel => 0

def FuelUnit.account (u : FuelUnit) : Fuel → Stock
  | .gas => u.gas
  | _ => u.diesel

def FuelUnit.setAccount (u : FuelUnit) (f : Fuel) (a : Stock) : FuelUnit :=
  match f with
  | .gas => { u with gas := a }
  | .diesel => { u with diesel := a }
  | .noFuel => u

def Yard.pump? (y : Yard) (p : Nat) : Option Pump := y.fuel.pumps.find? (·.cfg.index == p)

def onPump (p : Nat) (f : Pump → Pump) (y : Yard) : Yard :=
  { y with fuel.pumps := updFirst (·.cfg.index == p) f y.fuel.pumps }

/-- The call sign shows the turn's fleet while the pump is CALLING (R115). -/
def Pump.callSign (p : Pump) : Nat :=
  match p.state, p.turn with
  | .calling, some t => t.fleet
  | _, _ => 0

/-- Changes a pump; its call sign follows (R115, R201). -/
def setPump (e : Env) (p : Nat) (f : Pump → Pump) (y : Yard) : Yard :=
  let y := onPump p f y
  match y.pump? p with
  | some q => setSign e (32 + p) q.callSign y
  | none => y

/-- The pumps of a fuel type that are not OUT. -/
def Yard.inService (y : Yard) (f : Fuel) : List Pump :=
  y.fuel.pumps.filter fun p => p.cfg.fuel == f && p.state != .out

/-- A pump of the type is in a state other than OUT. -/
def Yard.served (y : Yard) (f : Fuel) : Bool := !(y.inService f).isEmpty

def listMax (l : List Nat) : Nat := l.foldl max 0

/-- The smallest of the numbers; 0 for none. -/
def listMin : List Nat → Nat
  | [] => 0
  | x :: xs => xs.foldl min x

/-- Apron queue entries plus reservation list entries (R116). -/
def Yard.apronOccupancy (y : Yard) : Nat := y.fuel.queue.length + y.fuel.reservs.length

def apronRoom (e : Env) (y : Yard) : Bool := y.apronOccupancy < e.layout.islandCfg.capacity

/-- The fill target (R83, R123). -/
def fillTarget (e : Env) (y : Yard) (fuel : Fuel) (capacity level maxTurn : Nat) (release : Option Nat) : Nat :=
  let t1 := min (capacity * (100 - level)) maxTurn
  let stock := (y.fuel.account fuel).stock
  if slackOf e.minute release ≤ e.layout.islandCfg.horizon then min t1 stock
  else min t1 (stock - e.layout.islandCfg.reserve fuel)

/-- The largest maximum per turn among the pumps of the type in service (R120, log 19). -/
def Yard.maxTurn (y : Yard) (f : Fuel) : Nat := listMax ((y.inService f).map (·.cfg.maxTurn))

/-- The turn level (R84, R120). -/
def turnLevel (e : Env) (release : Option Nat) : Nat :=
  min 7 (slackOf e.minute release / e.layout.islandCfg.levelStep)

/-! ## Stock (R130, R134, R135) -/

/-- STOCK_LOW is raised once while the stock is below the reserve (R130, R135). -/
def checkLow (e : Env) (f : Fuel) (y : Yard) : Yard :=
  let a := y.fuel.account f
  if a.stock < e.layout.islandCfg.reserve f ∧ a.lowReported = false then
    notify e .stockLow none (some (.fuel f)) [a.stock]
      { y with fuel := y.fuel.setAccount f { a with lowReported := true } }
  else y

/-- A turn's end charges its fuel type's account (R130). -/
def chargeStock (e : Env) (f : Fuel) (d : Nat) (y : Yard) : Yard :=
  let a := y.fuel.account f
  let total := min Config.maxStock (a.dispensed + d)
  let y :=
    if d ≤ a.stock then { y with fuel := y.fuel.setAccount f { a with stock := a.stock - d, dispensed := total } }
    else
      notify e .stockShort none (some (.fuel f)) [d - a.stock]
        { y with fuel := y.fuel.setAccount f { a with stock := 0, dispensed := total, short := true } }
  checkLow e f y

/-! ## The apron (R117 to R120) -/

/-- The apron reservation list holds an entry of the fleet, HELD or COMMITTED (R116). -/
def Yard.apronLists (y : Yard) (fleet : Nat) : Bool := y.fuel.reservs.any (·.fleet == fleet)

/-- The apron reservation list holds a COMMITTED entry of the fleet (R116). -/
def Yard.apronCommitted (y : Yard) (fleet : Nat) : Bool := y.fuel.reservs.any fun r => r.committed && r.fleet == fleet

/-- An entry joins the tail of the apron reservation list (R117). A fleet appears in the list at most once (R116), so an
earlier entry of the fleet gives way to it (log 41). -/
def enterApron (r : ApronRes) (y : Yard) : Yard :=
  { y with fuel.reservs := y.fuel.reservs.filter (·.fleet != r.fleet) ++ [r] }

/-- The commit test of R117: a late HANDOVER needs room, and so does a live one whose fleet has no place left in the
list (log 41). -/
def apronCommitTest (e : Env) (fleet : Nat) (f : Fuel) (late : Bool) (y : Yard) : Bool :=
  y.served f && (apronRoom e y || (!late && y.apronLists fleet))

/-- A won FUEL offer's HELD entry, when the apron has room (R79, R117); none when it has not. Where the fleet is
COMMITTED there already, the one entry stands for both and stays COMMITTED (R116, log 41). -/
def apronReserve (e : Env) (ref : SeekRef) (fleet : Nat) (f : Fuel) (y : Yard) : Option Yard :=
  if apronRoom e y then some (enterApron ⟨ref, fleet, f, y.apronCommitted fleet⟩ y) else none

def apronRelease (ref : SeekRef) (fleet : Nat) (y : Yard) : Yard :=
  { y with fuel.reservs := dropFirst (fun r => !r.committed && r.ref == ref && r.fleet == fleet) y.fuel.reservs }

/-- Turns the fleet's entry into a commitment in its place, or appends one for a late HANDOVER and where the fleet has no
entry (R117, log 41). -/
def apronCommit (ref : SeekRef) (fleet : Nat) (f : Fuel) (late : Bool) (y : Yard) : Yard :=
  if !late && y.apronLists fleet then
    { y with fuel.reservs := updFirst (·.fleet == fleet) (fun _ => ⟨ref, fleet, f, true⟩) y.fuel.reservs }
  else enterApron ⟨ref, fleet, f, true⟩ y

def apronUncommit (fleet : Nat) (y : Yard) : Yard :=
  { y with fuel.reservs := y.fuel.reservs.filter fun r => !(r.committed && r.fleet == fleet) }

def dropApronEntry (fleet : Nat) (y : Yard) : Yard :=
  { y with fuel.queue := y.fuel.queue.filter (·.fleet != fleet) }

/-- Enqueues a bus at the tail of the apron queue and sets its record QUEUED at APRON (R118, R120). -/
def enqueueApron (e : Env) (r : Record) (y : Yard) : Yard :=
  let en : ApronEntry :=
    ⟨r.bus.fleet, r.bus.fuel, turnLevel e r.release, 0,
      fillTarget e y r.bus.fuel r.bus.capacity r.bus.level (y.maxTurn r.bus.fuel) r.release⟩
  placeRec r.bus.fleet .queued .apron { y with fuel.queue := y.fuel.queue ++ [en] }

/-! ## Calling (R122 to R125) -/

/-- The head for a fuel type: the lowest level, and among equal levels the earliest in enqueue order (R122). -/
def apronHead (f : Fuel) (q : List ApronEntry) : Option ApronEntry :=
  (q.filter (·.fuel == f)).foldl (fun best x =>
    match best with
    | none => some x
    | some b => if x.level < b.level then some x else some b) none

/-- The lowest-index FREE pump for whose type the queue holds an entry, with the head of its type (R122). -/
def Yard.nextCall (y : Yard) : Option (Pump × ApronEntry) :=
  y.fuel.pumps.findSome? fun p =>
    if p.state = .free then (apronHead p.cfg.fuel y.fuel.queue).map (p, ·) else none

/-- The head is deferred (R123). -/
def deferHead (e : Env) (en : ApronEntry) (t : Nat) (y : Yard) : Yard :=
  let y := onRec en.fleet (fun r =>
    { r with state := .served, bus.fuelMark := .deferred, bus.itinerary := (r.popHead .fuel).bus.itinerary })
    (dropApronEntry en.fleet y)
  notify e .fuelDeferred (some en.fleet) none [t] (nextStep en.fleet y)

/-- The pump calls the head (R124). -/
def callHead (e : Env) (p : Pump) (en : ApronEntry) (t : Nat) (y : Yard) : Yard :=
  placeRec en.fleet .called .apron
    (setPump e p.cfg.index (fun q => { q with
        state := .calling
        turn := some { fleet := en.fleet, level := en.level, skips := en.skips, target := t }
        timer := some (60000 * e.layout.islandCfg.callTimeout) })
      (dropApronEntry en.fleet y))

/-- The target of an entry at its call by a pump (R123). -/
def callTarget (e : Env) (p : Pump) (en : ApronEntry) (y : Yard) : Nat :=
  match y.rec? en.fleet with
  | some r => fillTarget e y en.fuel r.bus.capacity r.bus.level p.cfg.maxTurn r.release
  | none => 0

/-- One call or deferral, if a FREE pump has a head (R122, R123). -/
def lookOnce (e : Env) (y : Yard) : Yard :=
  match y.nextCall with
  | none => y
  | some (p, en) =>
    if e.layout.islandCfg.minFill ≤ callTarget e p en y then callHead e p en (callTarget e p en y) y
    else deferHead e en (callTarget e p en y) y

def lookTimes (e : Env) : Nat → Yard → Yard
  | 0, y => y
  | n + 1, y => lookTimes e n (lookOnce e y)

/-- The fuel unit looks for heads until no FREE pump or no entry of its type remains (R122). Each call or deferral takes
an entry out of the queue, so its length bounds the turns of the loop. -/
def lookForHeads (e : Env) (y : Yard) : Yard := lookTimes e y.fuel.queue.length y

/-- The turn leaves a pump, which goes to FREE (R125, R133). -/
def freePump (e : Env) (p : Nat) (y : Yard) : Yard :=
  setPump e p (fun q => { q with state := .free, turn := none, timer := none, enable := false }) y

/-- The call timer of a CALLING pump runs out (R125). -/
def pumpSkip (e : Env) (p : Nat) (y : Yard) : Yard :=
  match y.pump? p with
  | none => y
  | some q =>
    match q.state, q.turn with
    | .calling, some t =>
      let k := t.skips + 1
      let y := notify e .pumpSkip (some t.fleet) (some (.pump p)) [k] (freePump e p y)
      if k < e.layout.islandCfg.maxSkips ∧ apronRoom e y then
        settle e (lookForHeads e (placeRec t.fleet .queued .apron
          { y with fuel.queue := y.fuel.queue ++ [⟨t.fleet, q.cfg.fuel, t.level, k, t.target⟩] }))
      else
        settle e (lookForHeads e (notify e .stray (some t.fleet) none [] (loseRec t.fleet .stray y)))
    | _, _ => y

/-! ## The end of a turn (R129 to R132) -/

/-- The record of an ended turn, if it is still held, is written and takes its next step (R129, R133). -/
def endTurnRec (q : Pump) (t : Turn) (d : Nat) (mark : FuelMark) (y : Yard) : Yard :=
  if y.heldAt t.fleet .inService (.pump q.cfg.index) then
    nextStep t.fleet (onRec t.fleet (fun r =>
      { r with
        state := .served
        bus.level := min 100 (r.bus.level + d / r.bus.capacity)
        bus.fuelMark := mark
        bus.itinerary := (r.popHead .fuel).bus.itinerary }) y)
  else y

/-- A turn ends as at a nozzle hang with dispensed amount d: the account is charged and the record written (R129,
R130). -/
def endTurn (e : Env) (q : Pump) (t : Turn) (d : Nat) (y : Yard) : Yard :=
  endTurnRec q t d (if t.target ≤ d then .full else .partly) (chargeStock e q.cfg.fuel d y)

/-- A pump has gone OUT: with no other pump of its type in service the queue's entries of the type are sent seeking
(R132). -/
def pumpOut (f : Fuel) (y : Yard) : Yard :=
  if y.served f then y
  else
    let gone := (y.fuel.queue.filter (·.fuel == f)).map (·.fleet)
    gone.foldl (fun y g => enterSeeking g y) { y with fuel.queue := y.fuel.queue.filter (·.fuel != f) }

/-- A bus in SEEKING or HANDING at the location it has just left goes ADRIFT (R133, R151). -/
def checkAdrift (e : Env) (fleet : Nat) (loc : Loc) (res : NoticeRes) (y : Yard) : Yard :=
  match y.rec? fleet with
  | some r =>
    if (r.state = .seeking ∨ r.state = .handing) ∧ r.loc = loc then
      notify e .unplannedExit (some fleet) (some res) [] (cancelBusSeek e fleet (loseRec fleet .adrift y))
    else y
  | none => y

/-- A CLEAR at the BAY of a pump (R133). -/
def bayClear (e : Env) (p : Nat) (y : Yard) : Yard :=
  match y.pump? p with
  | none => y
  | some q =>
    match q.state, q.turn with
    | .finished, some t => settle e (checkAdrift e t.fleet (.pump p) (.pump p) (lookForHeads e (freePump e p y)))
    | .out, some t =>
      settle e (checkAdrift e t.fleet (.pump p) (.pump p) (setPump e p (fun q => { q with turn := none }) y))
    | .occupied, some t =>
      settle e (checkAdrift e t.fleet (.pump p) (.pump p) (lookForHeads e (freePump e p (endTurnRec q t 0 .partly y))))
    | .fuelling, some t =>
      let y := endTurn e q t t.dispensed (setPump e p (fun q => { q with enable := false, timer := none }) y)
      let y := setPump e p (fun q => { q with state := .out, turn := none }) y
      let y := pumpOut q.cfg.fuel (notify e .pumpFault none (some (.pump p)) [1] y)
      settle e (checkAdrift e t.fleet (.pump p) (.pump p) y)
    | _, _ => y

/-- An ARRIVE at the BAY of a pump (R126). -/
def bayArrive (e : Env) (p : Nat) (y : Yard) : Yard :=
  match y.pump? p with
  | none => y
  | some q =>
    match q.state, q.turn with
    | .calling, some t =>
      placeRec t.fleet .inService (.pump p) (setPump e p (fun q => { q with state := .occupied, timer := none }) y)
    | .free, _ | .finished, _ | .out, _ => notify e .intruder none (some (.pump p)) [] y
    | _, _ => y

/-- An arrival at APRON_IN (R118). -/
def apronArrival (e : Env) (fleet : Nat) (y : Yard) : Yard :=
  let y := apronUncommit fleet y
  match y.rec? fleet with
  | none => y
  | some r =>
    if y.served r.bus.fuel then settle e (lookForHeads e (enqueueApron e r y))
    else settle e (enterSeeking fleet (placeRec fleet .queued .apron y))

def apronIntruder (e : Env) (y : Yard) : Yard := notify e .intruder none (some .apron) [] y

/-! ## Nozzle and meter (R127, R128) -/

/-- A nozzle lift (R127). -/
def nozzleLift (e : Env) (p : Nat) (y : Yard) : Yard :=
  match y.pump? p with
  | none => y
  | some q =>
    match q.state, q.turn with
    | .occupied, some t =>
      setPump e p (fun q => { q with
        state := .fuelling, enable := true, turn := some { t with pulses := 0, dispensed := 0 }
        timer := some (1000 * e.layout.islandCfg.noFlow) }) y
    | _, _ => countNozzleIgnored y

/-- A nozzle hang on a FUELLING pump (R129); in other states it is ignored. -/
def nozzleHang (e : Env) (p : Nat) (y : Yard) : Yard :=
  match y.pump? p with
  | none => y
  | some q =>
    match q.state, q.turn with
    | .fuelling, some t =>
      settle e (endTurn e q t t.dispensed
        (setPump e p (fun q => { q with state := .finished, enable := false, timer := none }) y))
    | _, _ => y

/-- A meter pulse on a FUELLING pump (R128). -/
def meterPulse (e : Env) (p : Nat) (y : Yard) : Yard :=
  match y.pump? p with
  | none => y
  | some q =>
    match q.state, q.turn with
    | .fuelling, some t =>
      let n := sat 16777215 t.pulses
      let d := n * 100 / q.cfg.pulses
      let on := q.enable && decide (d < t.target)
      onPump p (fun q => { q with
        turn := some { t with pulses := n, dispensed := d }, enable := on
        timer := if on then some (1000 * e.layout.islandCfg.noFlow) else none }) y
    | _, _ => y

/-- The no-flow timer runs out (R131). -/
def noFlow (e : Env) (p : Nat) (y : Yard) : Yard :=
  match y.pump? p with
  | none => y
  | some q =>
    match q.state, q.turn, q.timer with
    | .fuelling, some t, some _ =>
      let y := endTurn e q t t.dispensed (setPump e p (fun q => { q with enable := false, timer := none }) y)
      let y := setPump e p (fun q => { q with state := .out }) y
      settle e (pumpOut q.cfg.fuel (notify e .pumpFault none (some (.pump p)) [0] y))
    | _, _, _ => y

/-- The aging timer runs out (R121). -/
def agingEnd (e : Env) (y : Yard) : Yard :=
  match y.fuel.aging with
  | none => y
  | some _ => { y with
      fuel.queue := y.fuel.queue.map fun x => { x with level := x.level - 1 }
      fuel.aging := some (60000 * e.layout.islandCfg.aging) }

/-- REOPEN PUMP's effect on an OUT pump (R136). -/
def reopenPump (e : Env) (p : Nat) (y : Yard) : Yard := settle e (lookForHeads e (freePump e p y))

end Sys2Proof.Machine
end

