-- ==== Sys2Proof/Machine/Washes.lean ====
section
/-! DEFINITION. The wash unit (chapter 7): queues, the downgrade test, calling, washing, faults. -/

namespace Sys2Proof.Machine

def Yard.washLane? (y : Yard) (w : Nat) : Option WashLane := y.wash.lanes.find? (·.cfg.index == w)

def onWash (w : Nat) (f : WashLane → WashLane) (y : Yard) : Yard :=
  { y with wash.lanes := updFirst (·.cfg.index == w) f y.wash.lanes }

/-- The wash entry sign shows the called fleet while the lane is CALLING (R141). -/
def WashLane.entrySign (l : WashLane) : Nat :=
  match l.state, l.called with
  | .calling, some x => x.fleet
  | _, _ => 0

/-- Changes a wash lane; its entry sign follows (R141, R201). -/
def setWash (e : Env) (w : Nat) (f : WashLane → WashLane) (y : Yard) : Yard :=
  let y := onWash w f y
  match y.washLane? w with
  | some l => setSign e (40 + w) l.entrySign y
  | none => y

/-- The START output: raised in STARTING and WASHING (R141). -/
def WashLane.startOut (l : WashLane) : Bool := l.state == .starting || l.state == .washing

/-- The programme lines: the code of the programme washed while START is raised, else 0 (R141). -/
def WashLane.progLines (l : WashLane) : Nat :=
  if l.startOut then (match l.called with
    | some x => x.prog.code
    | none => 0) else 0

def WashLane.estimate (l : WashLane) : Prog → Nat
  | .noWash => 0 | .rinse => l.estRinse | .standard => l.estStandard | .full => l.estFull

def WashLane.setEstimate (l : WashLane) (p : Prog) (v : Nat) : WashLane :=
  match p with
  | .noWash => l
  | .rinse => { l with estRinse := v }
  | .standard => { l with estStandard := v }
  | .full => { l with estFull := v }

/-- A programme is in the set of enabled programmes; that bit 0 stands for RINSE, bit 1 for STANDARD and bit 2 for FULL
is the model's choice (log 53). -/
def WashCfg.enables (c : WashCfg) (p : Prog) : Bool :=
  match p with
  | .noWash => false | .rinse => c.enabled.getLsbD 0 | .standard => c.enabled.getLsbD 1 | .full => c.enabled.getLsbD 2

/-- The highest enabled programme not above the wanted one that passes a test; NONE if there is none (R87, R142). -/
def WashCfg.bestProg (c : WashCfg) (wanted : Prog) (ok : Prog → Bool) : Prog :=
  let fits := fun p : Prog => decide (p.code ≤ wanted.code) && c.enables p && ok p
  if fits .full then .full else if fits .standard then .standard else if fits .rinse then .rinse else .noWash

/-- The downgrade test (R87): x sixteenths of wait, slack s. -/
def WashLane.downgrade (l : WashLane) (wanted : Prog) (x s : Nat) : Prog :=
  l.cfg.bestProg wanted fun p => ceilDiv (x + l.estimate p) 16 + l.cfg.margin ≤ s

/-- The programme an entry is counted at when it joins (R142). -/
def WashCfg.joinProg (c : WashCfg) (wanted : Prog) : Prog := c.bestProg wanted fun _ => true

/-- Queue entries plus reservations are fewer than the queue depth (R142). -/
def WashLane.room (l : WashLane) : Bool := l.queue.length + l.reservs.length < l.cfg.depth

/-- The commit test of R143. -/
def washCommitTest (w : Nat) (wanted : Prog) (late : Bool) (y : Yard) : Bool :=
  match y.washLane? w with
  | some l => l.state != .out && l.cfg.joinProg wanted != .noWash && (!late || l.room)
  | none => false

/-- A won WASH offer's HELD entry, when the lane has room (R143). -/
def washReserve (w : Nat) (ref : SeekRef) (fleet : Nat) (y : Yard) : Option Yard :=
  match y.washLane? w with
  | some l => if l.room then some (onWash w (fun l => { l with reservs := l.reservs ++ [⟨ref, fleet⟩] }) y) else none
  | none => none

def washRelease (w : Nat) (ref : SeekRef) (fleet : Nat) (y : Yard) : Yard :=
  onWash w (fun l => { l with reservs := dropFirst (fun r => r.ref == ref && r.fleet == fleet) l.reservs }) y

/-- The programme the record of a fleet wants; NONE for a fleet not held. -/
def Yard.washWanted (y : Yard) (fleet : Nat) : Prog :=
  match y.rec? fleet with
  | some r => r.bus.wash
  | none => .noWash

/-- An entry joins the tail of a lane's queue, its programme set for that lane (R142). -/
def joinWash (w fleet skips : Nat) (y : Yard) : Yard :=
  onWash w (fun l => { l with queue := l.queue ++ [⟨fleet, l.cfg.joinProg (y.washWanted fleet), skips⟩] }) y

/-- Writes the end of a wash into the record of a bus inside, if it is held there, and lets it take its next step (R148,
R150, R152). -/
def endWash (w fleet : Nat) (mark : WashMark) (y : Yard) : Yard :=
  if y.heldAt fleet .inService (.wash w) then
    nextStep fleet (onRec fleet (fun r =>
      { r with state := .served, bus.washMark := mark, bus.itinerary := (r.popHead .wash).bus.itinerary }) y)
  else y

/-- The head of a FREE lane is not washed: NO_TIME (R145). -/
def skipHead (e : Env) (w : Nat) (en : WashEntry) (y : Yard) : Yard :=
  let y := removeExpect e .washIn w en.fleet (onWash w (fun l => { l with queue := l.queue.drop 1 }) y)
  let y := onRec en.fleet (fun r =>
    { r with state := .served, bus.washMark := .skipped, bus.itinerary := (r.popHead .wash).bus.itinerary }) y
  notify e .washSkipped (some en.fleet) (some (.wash w)) [0] (nextStep en.fleet y)

/-- The head of a FREE lane is called with programme p (R145). -/
def callWashHead (e : Env) (w : Nat) (en : WashEntry) (p : Prog) (y : Yard) : Yard :=
  let y := onRec en.fleet (fun r => { r with state := .called, loc := .wash w, bus.wash := p }) y
  setWash e w (fun l => { l with
    state := .calling, queue := l.queue.drop 1, called := some { en with prog := p }
    timer := some (60000 * l.cfg.callTimeout) }) y

/-- The programme a FREE lane calls its head with: the downgrade test with no wait (R145). -/
def callProg (e : Env) (l : WashLane) (fleet : Nat) (y : Yard) : Prog :=
  match y.rec? fleet with
  | some r => l.downgrade r.bus.wash 0 (slackOf e.minute r.release)
  | none => .noWash

/-- One call or skip of a FREE lane with a queue (R145). -/
def washCallOnce (e : Env) (w : Nat) (y : Yard) : Yard :=
  match y.washLane? w with
  | none => y
  | some l =>
    match l.state, l.queue with
    | .free, en :: _ =>
      if callProg e l en.fleet y = .noWash then skipHead e w en y
      else callWashHead e w en (callProg e l en.fleet y) y
    | _, _ => y

def washCallTimes (e : Env) (w : Nat) : Nat → Yard → Yard
  | 0, y => y
  | n + 1, y => washCallTimes e w n (washCallOnce e w y)

/-- A wash lane calls whenever it is FREE and its queue is not empty (R145). A queue holds at most 8 entries and each
turn of the loop takes one. -/
def washCall (e : Env) (w : Nat) (y : Yard) : Yard := washCallTimes e w 8 y

/-- The call timer of a CALLING lane runs out (R146). -/
def washSkip (e : Env) (w : Nat) (y : Yard) : Yard :=
  match y.washLane? w with
  | none => y
  | some l =>
    match l.state, l.called with
    | .calling, some x =>
      let y := setWash e w (fun l => { l with state := .free, called := none, timer := none }) y
      if x.skips + 1 < l.cfg.maxSkips ∧ l.room then
        let y := onWash w (fun l => { l with queue := l.queue ++ [{ x with skips := x.skips + 1 }] }) y
        settle e (washCall e w (placeRec x.fleet .expected (.wash w) (tailExpect e .washIn w x.fleet y)))
      else
        let y := loseRec x.fleet .stray (removeExpect e .washIn w x.fleet y)
        settle e (washCall e w (notify e .stray (some x.fleet) none [] y))
    | _, _ => y

/-- An arrival at WASH_IN with the popped expectation (R147, log 21). -/
def washArrival (e : Env) (w : Nat) (x : Expect) (y : Yard) : Yard :=
  match y.washLane? w with
  | none => y
  | some l =>
    if l.state = .calling ∧ (l.called.map (·.fleet)) = some x.fleet then
      placeRec x.fleet .inService (.wash w)
        (setWash e w (fun l => { l with state := .loading, current := some x.fleet, timer := none }) y)
    else
      let y := handBack e .washIn w x y
      if l.state = .out then y else notify e .intruder (some x.fleet) (some (.wash w)) [] y

/-- An arrival at WASH_IN with no expectation (R147). -/
def washIntruder (e : Env) (w : Nat) (y : Yard) : Yard :=
  match y.washLane? w with
  | none => y
  | some l => if l.state = .out then y else notify e .intruder none (some (.wash w)) [] y

/-- A DWELL at WASH_IN in LOADING raises START (R148). -/
def washDwell (e : Env) (w : Nat) (y : Yard) : Yard :=
  match y.washLane? w with
  | none => y
  | some l =>
    if l.state = .loading then
      setWash e w (fun l => { l with state := .starting, timer := some (1000 * l.cfg.startTimeout) }) y
    else y

/-- A CLEAR at WASH_IN in LOADING skips the wash (R148). -/
def washInClear (e : Env) (w : Nat) (y : Yard) : Yard :=
  match y.washLane? w with
  | none => y
  | some l =>
    match l.state, l.current with
    | .loading, some f =>
      let y := setWash e w (fun l => { l with state := .draining, called := none }) (endWash w f .skipped y)
      settle e (notify e .washSkipped (some f) (some (.wash w)) [1] y)
    | _, _ => y

/-- BUSY asserted in STARTING (R149). -/
def washBusy (e : Env) (w : Nat) (y : Yard) : Yard :=
  match y.washLane? w with
  | none => y
  | some l =>
    if l.state = .starting then
      setWash e w (fun l => { l with state := .washing, timer := none, washMs := 0 }) y
    else y

/-- The measured duration in sixteenths of a minute (R150). -/
def measured (seconds : Nat) : Nat := min 4080 (seconds * 16 / 60)

/-- The new estimate (R150). -/
def newEstimate (est alpha m : Nat) : Nat := max 16 (min 4080 ((est * (32 - alpha) + m * alpha) / 32))

/-- DONE asserted in WASHING (R150). -/
def washDone (e : Env) (w : Nat) (y : Yard) : Yard :=
  match y.washLane? w with
  | none => y
  | some l =>
    match l.state, l.current, l.called with
    | .washing, some f, some x =>
      let v := newEstimate (l.estimate x.prog) l.cfg.alpha (measured (l.washMs / 1000))
      settle e (endWash w f .done
        (setWash e w (fun l => { (l.setEstimate x.prog v) with state := .draining, called := none }) y))
    | _, _, _ => y

/-- A CLEAR at WASH_OUT (R151). -/
def washOutClear (e : Env) (w : Nat) (y : Yard) : Yard :=
  match y.washLane? w with
  | none => y
  | some l =>
    match l.state, l.current with
    | .draining, some f =>
      let y := washCall e w (setWash e w (fun l => { l with state := .free, current := none }) y)
      settle e (checkAdrift e f (.wash w) (.wash w) y)
    | .out, some f =>
      settle e (checkAdrift e f (.wash w) (.wash w) (onWash w (fun l => { l with current := none }) y))
    | _, _ => y

/-- The station's second wash lane. -/
def otherLane (w : Nat) : Nat := 1 - w

/-- A lane takes an entry handed on: it is not OUT, has room and gives the wanted programme one other than NONE
(R153). -/
def washTakes (w : Nat) (wanted : Prog) (y : Yard) : Bool :=
  match y.washLane? w with
  | some l => l.state != .out && l.room && l.cfg.joinProg wanted != .noWash
  | none => false

/-- The expectation of an entry handed on is pushed at the lane that takes it (R153). -/
def pushHandedOn (e : Env) (v fleet : Nat) (y : Yard) : Option Yard :=
  if washTakes v (y.washWanted fleet) y then pushExpect e .washIn v fleet false y else none

/-- One entry of a lane gone OUT moves to the other lane or is sent seeking (R153). -/
def handOnEntry (e : Env) (w : Nat) (en : WashEntry) (y : Yard) : Yard :=
  let v := otherLane w
  let y := removeExpect e .washIn w en.fleet y
  match pushHandedOn e v en.fleet y with
  | some y => placeRec en.fleet .expected (.wash v) (joinWash v en.fleet en.skips y)
  | none =>
    let y := enterSeeking en.fleet y
    { y with wash.faultList := y.wash.faultList.filter (· != en.fleet) ++ [en.fleet] }

/-- The called entry, if any, and the queue of a lane gone OUT are handed on; then the other lane calls (R153). -/
def handOnQueue (e : Env) (w : Nat) (entries : List WashEntry) (y : Yard) : Yard :=
  washCall e (otherLane w) (entries.foldl (fun y en => handOnEntry e w en y)
    (onWash w (fun l => { l with queue := [], called := none }) y))

/-- The bus that a lane holds is inside with its wash not ended (R152). -/
def WashLane.inside (l : WashLane) : Bool := l.state == .loading || l.state == .starting || l.state == .washing

/-- The wash of a bus inside is aborted (R152, step 2). -/
def abortInside (w : Nat) (l : WashLane) (y : Yard) : Yard :=
  match l.current with
  | some f => if l.inside then endWash w f .aborted y else y
  | none => y

/-- The entry that is called when its lane goes OUT (R152, step 6). -/
def WashLane.calledEntries (l : WashLane) : List WashEntry := if l.state = .calling then l.called.toList else []

/-- A wash lane is taken out of service; the detail is 0 for PLANT_FAULT and 1 for START_TIMEOUT (R152). -/
def washOut (e : Env) (w detail : Nat) (y : Yard) : Yard :=
  match y.washLane? w with
  | none => y
  | some l =>
    if l.state = .out then y
    else
      let y := setWash e w (fun l => { l with state := .out, timer := none }) y
      let y := notify e .washFault none (some (.wash w)) [detail] (abortInside w l y)
      let y := l.calledEntries.foldl (fun y x => placeRec x.fleet .expected (.wash w) y) y
      settle e (handOnQueue e w (l.calledEntries ++ l.queue) y)

/-- The view of a plant input (R226). -/
def PlantView.set (v : PlantView) (i : PlantInput) (b : Bool) : PlantView :=
  match i with
  | .busy => { v with busy := b }
  | .done => { v with done := b }
  | .fault => { v with fault := b }

/-- A plant input of a wash lane changes; an input of a lane that the layout does not have is ignored (R226, log 26). -/
def setPlant (w : Nat) (i : PlantInput) (b : Bool) (y : Yard) : Yard :=
  match y.washLane? w, w with
  | some _, 0 => { y with wash.plant0 := y.wash.plant0.set i b }
  | some _, 1 => { y with wash.plant1 := y.wash.plant1.set i b }
  | _, _ => y

/-- The FAULT input of a lane as the station sees it. -/
def Yard.faultSeen (y : Yard) (w : Nat) : Bool :=
  match w with
  | 0 => y.wash.plant0.fault
  | 1 => y.wash.plant1.fault
  | _ => false

/-- A lane goes to FREE by REOPEN WASH, from OUT or DRAINING, and calls (R155). -/
def freeWash (e : Env) (w : Nat) (y : Yard) : Yard :=
  settle e (washCall e w (setWash e w (fun l => { l with state := .free, current := none }) y))

end Sys2Proof.Machine
end

