-- ==== Sys2Proof/Machine/Costs.lean ====
section
/-! DEFINITION. The cost unit (chapter 4): for a SEEK, the cheapest eligible resource of this station. -/

namespace Sys2Proof.Machine

/-- A candidate: its raw cost, the resource, the area the layout gives it, and the fleet offered for EXIT. -/
structure Candidate where
  raw : Nat
  resource : Resource
  area : Nat
  fleet : Option Nat
  deriving DecidableEq, Repr

/-- The candidate of the lowest raw cost; among equal ones the earliest, so the lowest number (R78). -/
def cheapest : List Candidate → Option Candidate
  | [] => none
  | c :: cs =>
    match cheapest cs with
    | none => some c
    | some d => if d.raw < c.raw then some d else some c

/-! ## Placement (R80 to R82) -/

/-- The releases of a lane's occupants, front to rear, then its reservation list (R80). -/
def occupantReleases (spare : Nat) (y : Yard) (l : Lane) : List Nat :=
  l.positions.map (fun p =>
    match p.state with
    | .leaving r => r.getD spare
    | _ => (y.releaseOf p.fleet).getD spare)
  ++ l.reservs.map fun r => r.release.getD spare

/-- The blocking sum B (R82). -/
def blockingSum (rs : List Nat) (r : Nat) : Nat := (rs.map (· - r)).sum

/-- The tail gap G (R82). -/
def tailGap (gEmpty : Nat) (rs : List Nat) (r : Nat) : Nat :=
  match rs.getLast? with
  | none => gEmpty
  | some x => r - x

/-- The raw placement cost of a lane (R82). -/
def placementCost (p : Params) (l : Lane) (rs : List Nat) (r : Nat) : Nat :=
  p.wB * blockingSum rs r + tailGap p.gEmpty rs r / 4 + p.wS * (l.cfg.depth - rs.length - 1) + l.cfg.bias

/-- The lanes eligible for a bus, with their costs (R81, R82). -/
def berthCandidates (e : Env) (y : Yard) (b : BusSummary) : List Candidate :=
  let p := e.layout.params
  y.lanes.filterMap fun l =>
    let rs := occupantReleases p.spareRelease y l
    if l.state = .opened ∧ l.cfg.mask.getLsbD b.cls ∧ rs.length < l.cfg.depth then
      some ⟨placementCost p l rs (b.release.getD p.spareRelease), .lane l.cfg.number, l.cfg.area, none⟩
    else none

/-! ## Fuel (R83 to R85) -/

/-- The minutes of a fill: ⌈target ÷ rate⌉ + 1 (R84, R85). -/
def fillMinutes (target rate : Nat) : Nat := ceilDiv target rate + 1

/-- The remaining minutes of a pump's turn (R85). -/
def remainingMinutes (p : Pump) : Nat :=
  match p.turn with
  | some t => if p.state = .free then 0 else fillMinutes t.target p.cfg.rate - t.sinceCall / 60000
  | none => 0

/-- The estimated wait W in minutes (R84, R85). -/
def fuelWait (e : Env) (y : Yard) (f : Fuel) (release : Option Nat) : Nat :=
  let pumps := y.inService f
  let rate := listMin (pumps.map (·.cfg.rate))
  let ahead := y.fuel.queue.filter fun x => x.fuel == f && decide (x.level ≤ turnLevel e release)
  let q := (ahead.map fun x => fillMinutes x.target rate).sum
  let r := (pumps.map remainingMinutes).sum
  ceilDiv (q + r) pumps.length

/-- The island as the one candidate for FUEL (R83 to R85). -/
def fuelCandidates (e : Env) (y : Yard) (b : BusSummary) : List Candidate :=
  let c := e.layout.islandCfg
  if b.fuel ≠ .noFuel ∧ y.served b.fuel ∧ apronRoom e y
      ∧ c.minFill ≤ fillTarget e y b.fuel b.capacity b.level (y.maxTurn b.fuel) b.release then
    [⟨4 * fuelWait e y b.fuel b.release + c.bias, .apron b.fuel, c.area, none⟩]
  else []

/-! ## Wash (R86 to R88) -/

/-- The wait X of a wash lane in sixteenths of a minute (R86). -/
def washWait (l : WashLane) : Nat :=
  let est := match l.called with
    | some x => l.estimate x.prog
    | none => 0
  let now := match l.state with
    | .calling | .loading | .starting => est
    | .washing => est - l.washMs / 1000 * 16 / 60
    | _ => 0
  now + (l.queue.map fun x => l.estimate x.prog).sum

/-- The wash lanes eligible for a bus, with their costs (R87, R88). -/
def washCandidates (e : Env) (y : Yard) (b : BusSummary) : List Candidate :=
  y.wash.lanes.filterMap fun l =>
    let x := washWait l
    if l.state ≠ .out ∧ l.room ∧ l.downgrade b.wash x (slackOf e.minute b.release) ≠ .noWash then
      some ⟨4 * ceilDiv x 16 + l.cfg.bias, .wash l.cfg.index, l.cfg.area, none⟩
    else none

/-! ## Exit (R89, R90) -/

/-- The raw exit cost of a record for a duty (R90). -/
def exitCost (d : DutySummary) (r : Record) : Nat :=
  let base :=
    if d.pinned = some r.bus.fleet ∨ r.bus.pin.map (·.duty) = some d.duty then 0
    else match r.bus.pin with
      | none => 256
      | some p => 1024 + ((720 + d.release) - p.release)
  base + (if r.bus.wash ≠ .noWash ∧ r.bus.washMark ≠ .done then 64 else 0)
    + (if r.bus.fuelMark = .partly ∨ r.bus.fuelMark = .deferred then 128 else 0)

/-- The lane fronts that may serve a duty, with their costs (R89, R90). -/
def exitCandidates (y : Yard) (d : DutySummary) : List Candidate :=
  y.lanes.filterMap fun l =>
    match l.positions with
    | [] => none
    | p :: _ =>
      match y.rec? p.fleet with
      | none => none
      | some r =>
        if l.state ≠ .closed ∧ p.state = .parked ∧ r.state = .parked ∧ d.mask.getLsbD r.bus.cls
            ∧ r.bus.fuel = d.fuel ∧ d.minLevel ≤ r.bus.level then
          some ⟨exitCost d r, .lane l.cfg.number, l.cfg.area, some p.fleet⟩
        else none

/-- The candidates of a SEEK, from the block that matches its service (R76). -/
def candidates (e : Env) (y : Yard) : Summary → List Candidate
  | .push .berth b => berthCandidates e y b
  | .push .fuel b => fuelCandidates e y b
  | .push .wash b => washCandidates e y b
  | .push .exit _ => []
  | .pull d => exitCandidates y d

end Sys2Proof.Machine
end

