-- ==== Sys2Proof/Machine/Custody.lean ====
section
/-! DEFINITION. Dropping a record and the custody check (R14 to R17), REPIN (R19, R98), reservations of every serving
block, and the return of a duty or record when an expectation runs out (R197). -/

namespace Sys2Proof.Machine

/-- A PUSH or EXIT frame request for an OFFER of a seek reference. -/
def TxReq.isOffer : TxReq → Bool
  | .offer .. => true
  | _ => false

def TxReq.isTime : TxReq → Bool
  | .time _ => true
  | _ => false

/-- The point whose queue awaits the bus of an EXPECTED record (R7, R15). -/
def Loc.expectPoint : Loc → Option (PointKind × Nat)
  | .lane l => some (.laneIn, l)
  | .apron => some (.apronIn, 0)
  | .wash w => some (.washIn, w)
  | _ => none

/-- The commitment behind an EXPECTED record is released: a lane place, an apron place or the entry in its wash queue
(R15, R101, R119, R142). -/
def releaseCommitment (loc : Loc) (fleet : Nat) (y : Yard) : Yard :=
  match loc with
  | .lane l => laneUncommit l fleet y
  | .apron => apronUncommit fleet y
  | .wash w => onWash w (fun l => { l with queue := l.queue.filter (·.fleet != fleet) }) y
  | _ => y

/-- The pump whose turn is a called fleet. -/
def Yard.callingPump? (y : Yard) (fleet : Nat) : Option Pump :=
  y.fuel.pumps.find? fun p => p.state == .calling && (p.turn.map (·.fleet)) == some fleet

/-- A call of a fleet ends with its record (R15): the pump goes to FREE and looks for heads, or the wash lane goes to
FREE and calls its next head. -/
def endCall (e : Env) (loc : Loc) (fleet : Nat) (y : Yard) : Yard :=
  match loc with
  | .wash w =>
    washCall e w (removeExpect e .washIn w fleet
      (setWash e w (fun l => { l with state := .free, called := none, timer := none }) y))
  | _ =>
    match y.callingPump? fleet with
    | some p => lookForHeads e (freePump e p.cfg.index y)
    | none => y

/-- What stands for a dropped record is ended according to its state (R15). -/
def endEntries (e : Env) (r : Record) (y : Yard) : Yard :=
  let f := r.bus.fleet
  match r.state with
  | .seeking | .handing => cancelBusSeek e f y
  | .parked =>
    let y := dropExitOffer e f (dropPendingExit e f y)
    match r.loc with
    | .lane l => leavePosition e l f y
    | _ => y
  | .expected =>
    let y := match r.loc.expectPoint with
      | some (k, i) => removeExpect e k i f y
      | none => y
    releaseCommitment r.loc f y
  | .outbound => recallFor e f (removeExpect e .gateOut 0 f y)
  | .queued => dropApronEntry f y
  | .called => endCall e r.loc f y
  | _ => y

/-- A record is dropped in a custody conflict (R15): one CLAIM_CONFLICT notice with the state at the drop (raised first,
log 30), its entries end, and it leaves the table. -/
def dropRecord (e : Env) (fleet : Nat) (y : Yard) : Yard :=
  match y.rec? fleet with
  | none => y
  | some r => removeRec fleet (endEntries e r (notify e .claimConflict (some fleet) none [r.state.code] y))

/-- The custody check of R16 on a frame from a source with a seek reference: true when a confirmed copy is kept and a
CLAIM is queued; an unconfirmed copy is dropped. -/
def custodyCheck (e : Env) (fleet source : Nat) (ref : SeekRef) (y : Yard) : Bool × Yard :=
  match y.rec? fleet with
  | none => (false, y)
  | some r => if r.state.confirmed then (true, send e (.claim source ref fleet) y) else (false, dropRecord e fleet y)

/-- REPIN (R19): the pin of a held record is set or removed, and a lane's commitment for it follows (R98). -/
def repin (fleet : Nat) (pin : Option Pin) (y : Yard) : Yard :=
  match y.rec? fleet with
  | none => y
  | some r =>
    let y := onRec fleet (Record.setPin pin) y
    match r.state, r.loc with
    | .expected, .lane l => laneRepin l fleet (pin.map (·.release)) y
    | _, _ => y

/-! ## Reservations of every serving block (R56, R57, R66) -/

/-- The serving block's test of a HANDOVER (R97, R117, R143); late adds the test for room (log 41). -/
def commitTest (e : Env) (res : Resource) (b : Carried) (late : Bool) (y : Yard) : Bool :=
  match res with
  | .lane l => laneCommitTest l b.fleet late y
  | .apron f => apronCommitTest e b.fleet f late y
  | .wash w => washCommitTest w b.wash late y

/-- The serving block releases the reservation of an offer (R57, R66, R71). -/
def releaseRes (res : Resource) (ref : SeekRef) (fleet : Nat) (y : Yard) : Yard :=
  match res with
  | .lane l => laneRelease l ref fleet y
  | .apron _ => apronRelease ref fleet y
  | .wash w => washRelease w ref fleet y

/-- A won PUSH offer's reservation (R79, R96, R117, R143); none when the resource has no room. -/
def reserve (e : Env) (c : Choice) (y : Yard) : Option Yard :=
  match c.resource with
  | .lane l => laneReserve l c.ref c.fleet c.release y
  | .apron f => apronReserve e c.ref c.fleet f y
  | .wash w => washReserve w c.ref c.fleet y

/-- Where a bus taken for a resource is expected (R7). -/
def Resource.loc : Resource → Loc
  | .lane l => .lane l
  | .apron _ => .apron
  | .wash w => .wash w

/-- The receiving point of a resource, with whether its expectation has a travel time (R194). -/
def Resource.point : Resource → PointKind × Nat × Bool
  | .lane l => (.laneIn, l, true)
  | .apron _ => (.apronIn, 0, true)
  | .wash w => (.washIn, w, false)

/-- The reservation becomes a commitment (R97, R117, R144). -/
def commitRes (e : Env) (res : Resource) (ref : SeekRef) (b : Carried) (late : Bool) (y : Yard) : Yard :=
  match res with
  | .lane l => laneCommit l ref b.fleet (b.pin.map (·.release)) late y
  | .apron f => apronCommit ref b.fleet f late y
  | .wash w => washCall e w (joinWash w b.fleet 0 (washRelease w ref b.fleet y))

/-! ## The travel timeout (R197) -/

/-- The owner of a point acts on a bus that has not appeared (R101, R119, R181). -/
def ownerTimeout (e : Env) (k : PointKind) (i fleet : Nat) (y : Yard) : Yard :=
  match k with
  | .laneIn => laneUncommit i fleet y
  | .apronIn => apronUncommit fleet y
  | .gateOut => recallFor e fleet y
  | _ => y

/-- The expiry of the expectation of a fleet (R197). -/
def travelTimeout (e : Env) (fleet : Nat) (y : Yard) : Yard :=
  match y.expectation? fleet with
  | some (p, x) =>
    match x.expiry with
    | none => y
    | some _ =>
      let y := removeExpect e p.cfg.kind p.cfg.index fleet y
      let y := ownerTimeout e p.cfg.kind p.cfg.index fleet (loseRec fleet .stray y)
      settle e (notify e .stray (some fleet) (some (.point p.cfg.kind p.cfg.index)) [] y)
  | none => y

end Sys2Proof.Machine
end

