-- ==== Sys2Proof/Machine/Line.lean ====
section
/-! DEFINITION. The line interface (chapter 2): openings and contention, carried and damaged frames, what is reported
to the block that placed a frame, the receive pool, and the meanings of the five line events. -/

namespace Sys2Proof.Machine

/-! ## Openings (R23 to R25, R30) -/

/-- The seek whose offer opening is under way: the one this opening was given at OPENING, or, when its start was not
reported, the one it is still due to be given (log 17). -/
def LineIf.offerRef (l : LineIf) : Option SeekRef := l.curOffer <|> l.nextOffer

/-- A frame of the queue is eligible at an opening: an OFFER at the offer opening of its own seek, every other frame
always (R25). -/
def TxSlot.eligible (offer : Option SeekRef) (t : TxSlot) : Bool :=
  match t.req with
  | .offer ref .. => offer == some ref
  | _ => true

/-- The frame put forward: the lowest key, among equal keys the one that entered first (R25). -/
def bestSlot (offer : Option SeekRef) : List TxSlot → Option TxSlot
  | [] => none
  | t :: ts =>
    match bestSlot offer ts with
    | none => if t.eligible offer then some t else none
    | some b => if t.eligible offer && decide (t.frame.key ≤ b.frame.key) then some t else some b

/-- The frame of this station on the line. -/
def LineIf.sendingSlot (l : LineIf) : Option TxSlot := l.queue.find? (·.sending)

def TxReq.isHandover : TxReq → Bool
  | .handover _ => true
  | .exitHandover .. => true
  | _ => false

/-- A HANDOVER sent again after a damaged send carries the record as it stands at that resend (R2, log 31). -/
def TxSlot.refresh (e : Env) (y : Yard) (t : TxSlot) : TxSlot :=
  if t.req.isHandover && decide (0 < t.sends) then
    match buildFrame e y t.req with
    | some f => { t with frame := f }
    | none => t
  else t

/-- This station's frame has won the opening: it is on the line (R24, R26, R225). -/
def beginSend (e : Env) (t : TxSlot) (y : Yard) : Yard :=
  let t' := { t.refresh e y with sending := true }
  { y with
    line.queue := updFirst (fun x => x == t) (fun _ => t') y.line.queue
    line.txBits := t'.frame.raw.lineBits }

/-! ## The end of an opening (R30 to R32) -/

/-- The OFFERs still in the queue leave it at the end of the opening, and a pending choice is forgotten (R30, R31,
R56: LOST). -/
def offersLost (e : Env) (y : Yard) : Yard :=
  refillTx e { y with
    line.queue := y.line.queue.filter fun t => !t.req.isOffer
    seek.choice := none }

/-- The opening is over, and this station has left the check slot recessive. When it was the offer opening of this
station's own seek and no OFFER was pooled, NO OFFER is reported (R32, R53). -/
def endOpening (e : Env) (next : Option SeekRef) (pooled : Bool) (y : Yard) : Yard :=
  let offer := y.line.offerRef
  let y := offersLost e { y with line.curOffer := none, line.nextOffer := next, line.checkSlot := false }
  match offer with
  | some ref =>
    if ref.station = e.layout.own ∧ pooled = false then
      match y.seekEntry? ref.number with
      | some en => if en.state = .opened then noOffer e ref.number y else y
      | none => y
    else y
  | none => y

/-- OPENING (R23): this station contends with the lowest key of the others; with no frame pending anywhere the opening
is empty and ends. -/
def opening (e : Env) (others : Option ArbKey) (y : Yard) : Yard :=
  if y.line.following = false ∨ y.line.sendingSlot.isSome then y
  else
    let y := { y with line.curOffer := y.line.nextOffer, line.nextOffer := none }
    match bestSlot y.line.curOffer y.line.queue, others with
    | some t, none => beginSend e t y
    | some t, some k => if t.frame.key ≤ k then beginSend e t y else y
    | none, some _ => y
    | none, none => settle e (endOpening e none false y)

/-! ## What the line interface reports to the block that placed a frame (R31, R36) -/

/-- A won OFFER (R56): the serving block reserves, and the seek engine enters an offer entry. -/
def offerWon (e : Env) (y : Yard) : Yard :=
  match y.seek.choice with
  | none => y
  | some c =>
    let y := { y with seek.choice := none }
    let en (st : OfferState) (timer : Option Nat) : OfferEntry :=
      ⟨c.ref, c.service, c.fleet, c.resource, c.cost, st, timer, 0⟩
    if c.service = .exit then
      match c.resource with
      | .lane l =>
        let front := (y.lane? l).bind Lane.front
        if front = some ⟨c.fleet, .parked⟩ ∧ y.heldAt c.fleet .parked (.lane l) then
          let y := setPosition e l c.fleet .calledOut y
          send e (.exitHandover c.ref c.fleet)
            { y with seek.offers := y.seek.offers ++ [en .sending none] }
        else y
      | _ => y
    else
      match reserve e c y with
      | some y => { y with seek.offers := y.seek.offers ++ [en .held (some (1000 * e.layout.params.offerHold))] }
      | none => y

/-- A HANDOVER's send is over: attempts rise by one and the answer timer starts (R59, R69). -/
def handoverSent (e : Env) (r : TxReq) (y : Yard) : Yard :=
  match r with
  | .handover n =>
    onSeek n (fun x => if x.state = .handing .sending then
      { x with state := .handing .awaiting, attempts := x.attempts + 1, timer := some e.layout.params.answerTime }
      else x) y
  | .exitHandover ref f =>
    onOffer false ref f (fun x => if x.state = .sending then
      { x with attempts := x.attempts + 1, timer := some e.layout.params.answerTime } else x) y
  | _ => y

/-- CARRIED, or WON for an OFFER (R31, R36, R52, R59). -/
def reportCarried (e : Env) (r : TxReq) (y : Yard) : Yard :=
  match r with
  | .seek n => onSeek n (fun x => if x.state = .queued then { x with state := .opened } else x) y
  | .offer .. => offerWon e y
  | _ => handoverSent e r y

/-- DROPPED after the third damaged send (R38, R52, R59). -/
def reportDropped (e : Env) (r : TxReq) (y : Yard) : Yard :=
  match r with
  | .seek n =>
    match y.seekEntry? n with
    | some en => if en.state = .queued then noOffer e n y else y
    | none => y
  | _ => handoverSent e r y

/-- The frame being sent leaves the queue; its place goes to the oldest waiting request (R35, R36). -/
def dropSending (e : Env) (y : Yard) : Yard :=
  refillTx e { y with line.queue := dropFirst (·.sending) y.line.queue, line.txBits := [] }

/-! ## Carried frames (R28, R29, R33, R34, R39) -/

/-- The seek reference of a carried SEEK, whose offer opening comes next (R30). -/
def RawFrame.opensOffers (r : RawFrame) : Option SeekRef :=
  if r.rank.toNat = 4 then some ⟨r.seekStation.toNat, r.seekNumber.toNat⟩ else none

/-- The destination test of the address filter (R28). -/
def Layout.passesDest (l : Layout) (d : Option Dest) : Bool :=
  match d with
  | some (.station n) => n == l.own
  | some .fuelGroup => !l.pumps.isEmpty
  | some .washGroup => !l.washes.isEmpty
  | some .berthGroup => !l.lanes.isEmpty
  | some .all => true
  | none => false

/-- The area test of a SEEK (R29). -/
def Layout.passesArea (l : Layout) (area : Nat) : Bool :=
  area == 0 || (match l.station with
    | some c => area == c.area1 || some area == c.area2
    | none => false)

/-- The address filter (R28, R29). -/
def Layout.passes (l : Layout) (r : RawFrame) : Bool :=
  l.passesDest (destOf r.dest.toNat) && (decide (r.rank.toNat ≠ 4) || l.passesArea r.seekArea)

/-- A frame that passed the filter is checked and pooled, or counted as malformed or lost (R33, R34, R39). -/
def poolFrame (e : Env) (r : RawFrame) (y : Yard) : Yard :=
  match r.parse e.layout.own with
  | none => setFlag e .rxMalformed (countMalformed y)
  | some f =>
    if y.line.pool.length < Config.poolCap then countReceived { y with line.pool := y.line.pool ++ [f] }
    else setFlag e .poolFull (countRxLost y)

/-- The frame carried was an OFFER to a seek reference, and it was pooled (R32). -/
def poolsOffer (e : Env) (r : RawFrame) (ref : Option SeekRef) (y : Yard) : Bool :=
  match r.parse e.layout.own with
  | some f =>
    match f.body with
    | .offer .. => e.layout.passes r && decide (y.line.pool.length < Config.poolCap) && ref == some f.ref
    | _ => false
  | none => false

/-- A frame of another station is carried. -/
def otherCarried (e : Env) (r : RawFrame) (y : Yard) : Yard :=
  let pooled := poolsOffer e r y.line.offerRef y
  endOpening e r.opensOffers pooled (if e.layout.passes r then poolFrame e r y else y)

/-- This station's own frame is carried. A frame withdrawn while it was being sent is carried all the same, and its
block is not told CARRIED (R35). -/
def ownCarried (e : Env) (t : TxSlot) (y : Yard) : Yard :=
  let y := countSent (dropSending e y)
  let y := if t.withdrawn then y else reportCarried e t.req y
  endOpening e t.frame.raw.opensOffers false y

/-- FRAME_CARRIED (R33): the bits of a frame from its start mark through its CRC, which every station reads as good. -/
def frameCarried (e : Env) (bits : List Bool) (y : Yard) : Yard :=
  match receiveFrame bits with
  | none => y
  | some r =>
    if y.line.following = false then y
    else
      match y.line.sendingSlot with
      | some t => if r = t.frame.raw then settle e (ownCarried e t y) else y
      | none => settle e (otherCarried e r y)

/-! ## Damaged frames (R37, R38) -/

/-- This station itself finds the frame damaged: a complete one by its bits (R225), one cut off (R37). -/
def Damage.found : Damage → Bool
  | .complete bits _ => (receiveFrame bits).isNone
  | .cutOff => true

/-- It drives the check slot of a complete frame that it finds damaged dominant (R37). -/
def Damage.drives (d : Damage) : Bool := d.found && decide (d ≠ .cutOff)

/-- The frame is damaged: found so here, or by another station that drives the check slot (R37). -/
def Damage.real : Damage → Bool
  | .complete bits slotDriven => (receiveFrame bits).isNone || slotDriven
  | .cutOff => true

/-- FRAME_DAMAGED (R37): a followed frame of another station is discarded. A frame found damaged here is counted, and
when it is complete its check slot is driven dominant. -/
def frameDamaged (e : Env) (d : Damage) (y : Yard) : Yard :=
  if y.line.following = false ∨ y.line.sendingSlot.isSome ∨ d.real = false then y
  else
    let y := endOpening e none false (if d.found then countCrcBad y else y)
    settle e { y with line.checkSlot := d.drives }

/-- SEND_DAMAGED (R38): this station's own frame is damaged. One that was withdrawn while it was being sent ends as
withdrawn (R35): it leaves the queue with neither TX_DROPPED nor TX_FAIL, also at a third damaged send (log 42). -/
def sendDamaged (e : Env) (y : Yard) : Yard :=
  match y.line.sendingSlot with
  | none => y
  | some t =>
    let y := countTxDamaged y
    let y :=
      if t.withdrawn then dropSending e y
      else if t.req.isOffer then countTxDropped (dropSending e y)
      else if t.sends + 1 < 3 then
        { y with
          line.queue := updFirst (·.sending) (fun x => { x with sends := x.sends + 1, sending := false }) y.line.queue
          line.txBits := [] }
      else reportDropped e t.req (setFlag e .txFail (countTxDropped (dropSending e y)))
    settle e (endOpening e none false y)

/-- LINE_FOLLOW_BEGIN (R42): from here on the station takes frames and contends. -/
def lineFollowBegin (y : Yard) : Yard := { y with line.following := true }

/-! ## The meanings of the five line events -/

def execOpening (others : Option ArbKey) (s : State) : Host.Outcome State Fault Refusal :=
  .next (s.whenRunning (fun e y => opening e others y))

def execFrameCarried (bits : List Bool) (s : State) : Host.Outcome State Fault Refusal :=
  .next (s.whenRunning (fun e y => frameCarried e bits y))

def execFrameDamaged (cause : Damage) (s : State) : Host.Outcome State Fault Refusal :=
  .next (s.whenRunning (fun e y => frameDamaged e cause y))

def execSendDamaged (s : State) : Host.Outcome State Fault Refusal :=
  .next (s.whenRunning (fun e y => sendDamaged e y))

def execLineFollowBegin (s : State) : Host.Outcome State Fault Refusal :=
  .next (s.whenRunning (fun _ y => lineFollowBegin y))

end Sys2Proof.Machine
end

