-- ==== Sys2Proof/Machine/Frames.lean ====
section
/-! DEFINITION. The frames handed from the receive pool to the blocks that take them (chapter 3, R17, R19, R47), and
the meanings of the ten commands that hand them over. -/

namespace Sys2Proof.Machine

/-! ## Handing over (R33) -/

def Body.isSeek : Body → Bool
  | .seek .. => true
  | _ => false

/-- Takes the oldest SEEK out of the pool: a SEEK goes ahead of older frames (R33). -/
def takeSeek (y : Yard) : Option (Frame × Yard) :=
  (y.line.pool.find? (·.body.isSeek)).map fun f =>
    (f, { y with line.pool := dropFirst (·.body.isSeek) y.line.pool })

/-- The oldest frame of the pool that is no SEEK: the one that is handed over next (R33). -/
def LineIf.head (l : LineIf) : Option Frame := l.pool.find? (!·.body.isSeek)

/-- Takes that frame out of the pool. -/
def dropHead (y : Yard) : Yard := { y with line.pool := dropFirst (!·.body.isSeek) y.line.pool }

/-! ## SEEK (R55) -/

/-- The service a SEEK asks for. -/
def Summary.service : Summary → Service
  | .push s _ => s
  | .pull _ => .exit

/-- The OFFER of a chosen candidate and the choice kept with it (R55). -/
def makeOffer (e : Env) (ref : SeekRef) (what : Summary) (c : Candidate) (y : Yard) : Yard :=
  let cost := min c.raw 4095
  let y := if 4095 < c.raw then { y with saturated := true } else y
  if y.line.queue.length < Config.txCap then
    let choice : Choice :=
      match what with
      | .push s b => ⟨ref, s, b.fleet, c.resource, cost, b.release⟩
      | .pull _ => ⟨ref, .exit, c.fleet.getD 0, c.resource, cost, none⟩
    enterTx e (.offer ref cost what.service c.area c.fleet) { y with seek.choice := some choice }
  else countOfferUnsent y

/-- The custody check of a SEEK (R16): only the bus of a PUSH SEEK is checked. -/
def seekCheck (e : Env) (source : Nat) (ref : SeekRef) (what : Summary) (y : Yard) : Bool × Yard :=
  match what with
  | .push _ b => custodyCheck e b.fleet source ref y
  | .pull _ => (false, y)

/-- The offer decision (R16, R55, R76, R78). -/
def decideOffer (e : Env) (source : Nat) (ref : SeekRef) (excl : List Nat) (what : Summary) (y : Yard) : Yard :=
  let checked := seekCheck e source ref what y
  let y := checked.2
  if checked.1 || excl.contains e.layout.own || decide (Config.seekCap ≤ y.seek.offers.length) then y
  else
    match cheapest (candidates e y what) with
    | some c => makeOffer e ref what c y
    | none => y

/-- SEEK_RECEIVED (R55). -/
def seekReceived (e : Env) (y : Yard) : Yard :=
  match takeSeek y with
  | none => y
  | some (f, y) =>
    match f.body with
    | .seek _ excl what => settle e (decideOffer e f.source f.ref excl what y)
    | _ => y

/-! ## OFFER (R53, R72) -/

/-- The seek entry of this station that a seek reference matches (R49). -/
def ownSeek? (e : Env) (ref : SeekRef) (y : Yard) : Option SeekEntry :=
  if ref.station = e.layout.own then y.seekEntry? ref.number else none

/-- The winning offer of a PUSH entry: entry and record go to HANDING and the HANDOVER is prepared (R53, R59). -/
def takePushOffer (e : Env) (n fleet : Nat) (w : Winner) (y : Yard) : Yard :=
  let y := onSeek n (fun x => { x with winner := some w, state := .handing .sending, attempts := 0, timer := none }) y
  let y := onRec fleet (fun r => { r with state := .handing }) y
  send e (.handover n) { y with seeking := y.seeking.filter (· != fleet) }

/-- The winning offer of a PULL entry: the entry goes to AWAITING and its offer hold starts (R53, R68). -/
def takePullOffer (e : Env) (n : Nat) (w : Winner) (fleet : Option Nat) (y : Yard) : Yard :=
  onSeek n (fun x => { x with winner := some w, offered := fleet, state := .awaiting,
                              timer := some (1000 * e.layout.params.offerHold) }) y

/-- The custody check of an OFFER: the fleet it names, if it names one (R16). -/
def offerCheck (e : Env) (source : Nat) (ref : SeekRef) (fleet : Option Nat) (y : Yard) : Bool × Yard :=
  match fleet with
  | some f => custodyCheck e f source ref y
  | none => (false, y)

/-- The CANCEL that answers an OFFER for this station's seek with no entry in OPEN (R72); where the seek number was
never given for a bus its fleet is a free value (log 8). -/
def cancelOffer (e : Env) (source : Nat) (ref : SeekRef) (fleet : Option Nat) (y : Yard) : Yard :=
  match fleet with
  | some f => send e (.cancel source ref f) y
  | none =>
    match y.seek.given.find? (·.1 == ref.number) with
    | some g => send e (.cancel source ref g.2) y
    | none =>
      send e (.cancel source ref (Config.freeFleet y.seek.freeCount).toNat)
        { y with seek.freeCount := y.seek.freeCount + 1 }

/-- What an OFFER of given content does (R53, R72). One for a seek whose SEEK was withdrawn while it was being sent and was
carried is answered with a CANCEL too, as R72 says of every OFFER with no entry in OPEN; R70 lets the winner's offer
hold lapse there, and that R72 is followed is the model's choice (log 63). -/
def takeOffer (e : Env) (source : Nat) (ref : SeekRef) (cost area : Nat) (fleet : Option Nat) (y : Yard) : Yard :=
  let w : Winner := ⟨source, cost, area⟩
  let matched := (ownSeek? e ref y).filter (·.state == .opened)
  match matched with
  | some en =>
    match en.subject with
    | .bus f _ => takePushOffer e en.number f w y
    | .duty _ =>
      let checked := offerCheck e source ref fleet y
      if checked.1 then excludeAndRetry e en.number source checked.2
      else takePullOffer e en.number w fleet checked.2
  | none =>
    let checked := offerCheck e source ref fleet y
    if ref.station = e.layout.own then cancelOffer e source ref fleet checked.2 else checked.2

/-- OFFER_RECEIVED (R53). -/
def offerReceived (e : Env) (y : Yard) : Yard :=
  match y.line.head with
  | some ⟨source, _, ref, .offer cost _ area fleet⟩ => settle e (takeOffer e source ref cost area fleet (dropHead y))
  | _ => y

/-! ## TAKEN, HOLD and REFUSE (R59 to R64, R69) -/

/-- The PUSH entry in HANDING that an answer matches (R59). -/
def pushMatch? (e : Env) (source : Nat) (ref : SeekRef) (fleet : Nat) (y : Yard) : Option SeekEntry :=
  (ownSeek? e ref y).filter fun en =>
    en.isFor fleet && (en.winner.map (·.station)) == some source
      && (match en.state with
        | .handing _ => true
        | _ => false)

/-- The EXIT offer entry that an answer matches (R69). -/
def exitMatch? (source : Nat) (ref : SeekRef) (fleet : Nat) (y : Yard) : Option OfferEntry :=
  if ref.station = source then y.exitOffer? ref fleet else none

/-- The direction sign at the point where a bus stands (R60, R201). -/
def Loc.directionSign : Loc → Option Nat
  | .gate => some 48
  | .pump p => some (36 + p)
  | .wash w => some (42 + w)
  | _ => none

/-- The direction sign of a location is given a destination (R60, R202). -/
def lightDirection (e : Env) (loc : Loc) (area : Nat) (sv : Service) (y : Yard) : Yard :=
  match loc.directionSign with
  | some n => setSign e n (destCode area sv) y
  | none => y

/-- A handover of a bus has succeeded (R60): the record is retired, the entry goes, the sign is lit. -/
def handoverTaken (e : Env) (en : SeekEntry) (fleet : Nat) (w : Winner) (y : Yard) : Yard :=
  let loc := (y.rec? fleet).map (·.loc)
  let y := removeRec fleet (removeSeek en.number (withdrawHandover e en.number y))
  match loc, en.subject with
  | some l, .bus _ sv => lightDirection e l w.area sv y
  | _, _ => y

/-- The gate has taken a called-out bus (R69, R103). -/
def exitTaken (e : Env) (o : OfferEntry) (y : Yard) : Yard :=
  let y := match o.resource.laneNo with
    | some l => leavePosition e l o.fleet y
    | none => y
  removeRec o.fleet (removeOffer false o.ref o.fleet (withdrawExit e o.ref o.fleet y))

/-- The handover of a called-out bus has failed (R69): HANDOVER_FAILED names the gate's station. -/
def exitFailed (e : Env) (o : OfferEntry) (y : Yard) : Yard :=
  endCallOut e o (notify e .handoverFailed (some o.fleet) none [o.ref.station] y)

/-- HOLD for a PUSH entry (R61). -/
def pushHold (e : Env) (en : SeekEntry) (y : Yard) : Yard :=
  let y := withdrawHandover e en.number y
  if en.attempts < e.layout.params.attempts then
    onSeek en.number (fun x =>
      { x with state := .handing .pausing, timer := some (1000 * e.layout.params.holdInterval) }) y
  else handoverFailed e en.number y

/-- HOLD for an EXIT entry (R69). -/
def exitHold (e : Env) (o : OfferEntry) (y : Yard) : Yard :=
  if o.attempts < e.layout.params.attempts then
    onOffer false o.ref o.fleet (fun x =>
      { x with state := .paused, timer := some (1000 * e.layout.params.holdInterval) })
      (withdrawExit e o.ref o.fleet y)
  else exitFailed e o y

/-- REFUSE for a PUSH entry (R62). -/
def pushRefused (e : Env) (en : SeekEntry) (fleet : Nat) (w : Winner) (y : Yard) : Yard :=
  excludeAndRetry e en.number w.station (enterSeeking fleet (withdrawHandover e en.number y))

/-- What an answer of given content does; an answer that matches nothing is stale (R64). -/
def takeAnswer (e : Env) (a : Answer) (source : Nat) (ref : SeekRef) (fleet : Nat) (y : Yard) : Yard :=
  match pushMatch? e source ref fleet y with
  | some en =>
    match a, en.winner with
    | .taken, some w => handoverTaken e en fleet w y
    | .hold, _ => pushHold e en y
    | .refuse, some w => pushRefused e en fleet w y
    | _, none => y
  | none =>
    match exitMatch? source ref fleet y with
    | some o =>
      match a with
      | .taken => exitTaken e o y
      | .hold => exitHold e o y
      | .refuse => endCallOut e o y
    | none => countStale y

/-- TAKEN_RECEIVED, HOLD_RECEIVED or REFUSE_RECEIVED: acts when the frame to be handed over is of that kind. -/
def answerReceived (e : Env) (a : Answer) (y : Yard) : Yard :=
  match y.line.head with
  | some ⟨source, _, ref, .answer b fleet⟩ =>
    if b = a then settle e (takeAnswer e a source ref fleet (dropHead y)) else y
  | _ => y

/-! ## HANDOVER (R65 to R67, R177) -/

/-- The answer frame to a HANDOVER. -/
def reply (e : Env) (a : Answer) (q : Nat) (ref : SeekRef) (fleet : Nat) (y : Yard) : Yard :=
  send e (.answer a q ref fleet) y

/-- The lapsed item of a seek reference and fleet goes (R57). -/
def dropLapsed (ref : SeekRef) (fleet : Nat) (y : Yard) : Yard :=
  { y with seek.lapsed := dropFirst (fun i => i.ref == ref && i.fleet == fleet) y.seek.lapsed }

/-- The time an offer hold restarts with at a HOLD (R67). -/
def Env.heldOn (e : Env) : Nat := 1000 * (e.layout.params.offerHold + e.layout.params.holdInterval)

/-- The three results of the insertion of R12. -/
inductive TakeResult where
  | refused | heldUp | taken (y : Yard)
  deriving DecidableEq, Repr

/-- The insertion and the commitment for a bus on a resource (R12, R66). -/
def insertTaken (e : Env) (res : Resource) (ref : SeekRef) (b : Carried) (late : Bool) (y : Yard) : TakeResult :=
  match insertAnswer b.fleet y with
  | .held => .refused
  | .full => .heldUp
  | .inserted =>
    match pushExpect e res.point.1 res.point.2.1 b.fleet res.point.2.2 (addRec ⟨b, .expected, res.loc⟩ y) with
    | none => .heldUp
    | some y => .taken (commitRes e res ref b late y)

/-- A round taken joins the taken list (R58). -/
def noteTaken (ref : SeekRef) (fleet : Nat) (y : Yard) : Yard :=
  { y with seek.taken := pushOldest Config.seekCap ⟨ref, fleet⟩ y.seek.taken }

/-- A HANDOVER for a live offer of this station (R65 case 1, R66, R67). -/
def takeLive (e : Env) (q : Nat) (o : OfferEntry) (b : Carried) (y : Yard) : Yard :=
  let giveUp := removeOffer true o.ref o.fleet (releaseRes o.resource o.ref o.fleet y)
  if commitTest e o.resource b false y then
    match insertTaken e o.resource o.ref b false y with
    | .refused => reply e .refuse q o.ref o.fleet giveUp
    | .heldUp => reply e .hold q o.ref o.fleet (onOffer true o.ref o.fleet (fun x => { x with timer := some e.heldOn }) y)
    | .taken y => reply e .taken q o.ref o.fleet (noteTaken o.ref o.fleet (removeOffer true o.ref o.fleet y))
  else reply e .refuse q o.ref o.fleet giveUp

/-- A late HANDOVER for a lapsed item (R65 case 3, R66, R67). -/
def takeLate (e : Env) (q : Nat) (i : LapsedItem) (b : Carried) (y : Yard) : Yard :=
  if commitTest e i.resource b true y then
    match insertTaken e i.resource i.ref b true y with
    | .refused => reply e .refuse q i.ref i.fleet (dropLapsed i.ref i.fleet y)
    | .heldUp => reply e .hold q i.ref i.fleet y
    | .taken y => reply e .taken q i.ref i.fleet (noteTaken i.ref i.fleet (dropLapsed i.ref i.fleet y))
  else reply e .refuse q i.ref i.fleet (setFlag e .unrelated (dropLapsed i.ref i.fleet y))

/-- The gate's AWAITING entry that a HANDOVER names (R65, R177). -/
def awaiting? (e : Env) (q : Nat) (ref : SeekRef) (fleet : Nat) (y : Yard) : Option (SeekEntry × Nat) :=
  match ownSeek? e ref y with
  | some en =>
    match en.subject with
    | .duty d =>
      if en.state = .awaiting ∧ en.winner.map (·.station) = some q ∧ en.offered = some fleet then some (en, d) else none
    | .bus _ _ => none
  | none => none

/-- The duty is listed and CALLING (R177). -/
def dutyCalling (d : Nat) (y : Yard) : Bool :=
  match y.duty? d with
  | some x => match x.state with
    | .calling _ _ => true
    | _ => false
  | none => false

/-- What follows the insertion and the push when the gate takes bus b for duty d (R177, steps 3 to 7). -/
def gateTaken (e : Env) (q : Nat) (ref : SeekRef) (n d : Nat) (b : Carried) (y : Yard) : Yard :=
  let y := reply e .taken q ref b.fleet y
  let y := removeSeek n (noteTaken ref b.fleet y)
  let y := resolvePins e d b.fleet (onDuty d (fun x => { x with state := .outbound b.fleet }) y)
  match y.duty? d with
  | some x => pinRec b.fleet x y
  | none => y

/-- A HANDOVER for the gate's own AWAITING entry (R66, R67, R177). -/
def takeAtGate (e : Env) (q : Nat) (ref : SeekRef) (n d : Nat) (b : Carried) (y : Yard) : Yard :=
  let hold := reply e .hold q ref b.fleet (onSeek n (fun x => { x with timer := some e.heldOn }) y)
  if dutyCalling d y then
    match insertAnswer b.fleet y with
    | .held => reply e .refuse q ref b.fleet y
    | .full => hold
    | .inserted =>
      match pushExpect e .gateOut 0 b.fleet true (addRec ⟨b, .outbound, .gate⟩ y) with
      | none => hold
      | some y => gateTaken e q ref n d b y
  else reply e .refuse q ref b.fleet y

def lapsed? (ref : SeekRef) (fleet : Nat) (y : Yard) : Option LapsedItem :=
  y.seek.lapsed.find? fun i => i.ref == ref && i.fleet == fleet

/-- A repeat of a HANDOVER already taken (R65, case 2). -/
def isRepeat (ref : SeekRef) (fleet : Nat) (y : Yard) : Bool :=
  y.seek.taken.contains ⟨ref, fleet⟩ && (y.rec? fleet).isSome

/-- What a HANDOVER of bus b from station q does: the first case of R65 that applies. -/
def takeHandover (e : Env) (q : Nat) (ref : SeekRef) (b : Carried) (y : Yard) : Yard :=
  match y.heldOffer? ref b.fleet with
  | some o => takeLive e q o b y
  | none =>
    match awaiting? e q ref b.fleet y with
    | some (en, d) => takeAtGate e q ref en.number d b y
    | none =>
      if isRepeat ref b.fleet y then reply e .taken q ref b.fleet y
      else
        match lapsed? ref b.fleet y with
        | some i => takeLate e q i b y
        | none => reply e .refuse q ref b.fleet (setFlag e .unrelated y)

/-- HANDOVER_RECEIVED (R65). -/
def handoverReceived (e : Env) (y : Yard) : Yard :=
  match y.line.head with
  | some ⟨q, _, ref, .handover b⟩ => settle e (takeHandover e q ref b (dropHead y))
  | _ => y

/-! ## CLAIM, CANCEL and REPIN (R17, R71, R19) -/

/-- CLAIM_RECEIVED (R17). -/
def claimReceived (e : Env) (y : Yard) : Yard :=
  match y.line.head with
  | some ⟨_, _, _, .claim fleet⟩ => settle e (dropRecord e fleet (dropHead y))
  | _ => y

/-- What a CANCEL of given content does (R71). -/
def takeCancel (e : Env) (ref : SeekRef) (fleet : Nat) (y : Yard) : Yard :=
  match y.heldOffer? ref fleet with
  | some o => removeOffer true ref fleet (releaseRes o.resource ref fleet y)
  | none =>
    match y.exitOffer? ref fleet with
    | some o => endCallOut e o y
    | none => dropLapsed ref fleet y

/-- CANCEL_RECEIVED (R71). -/
def cancelReceived (e : Env) (y : Yard) : Yard :=
  match y.line.head with
  | some ⟨_, _, ref, .cancel fleet⟩ => settle e (takeCancel e ref fleet (dropHead y))
  | _ => y

/-- REPIN_RECEIVED (R19, R98). -/
def repinReceived (y : Yard) : Yard :=
  match y.line.head with
  | some ⟨_, _, _, .repin fleet pin⟩ => repin fleet pin (dropHead y)
  | _ => y

/-! ## TIME and the changes of minute (R45 to R47) -/

/-- A change of the clock to another minute: the blocks that wait for minutes act on it (R45, R48). -/
def State.changeMinute (c : Clock) (s : State) : State :=
  let a := s.clock.minute
  let s := { s with clock := c }
  { s with yard := settle s.env (minuteChange s.env a c.minute s.yard) }

/-- The seen minute becomes m if it was none or if m is later than it (R47). -/
def Clock.see (m : Nat) (c : Clock) : Clock :=
  match c.seen with
  | none => { c with seen := some m }
  | some v => if laterThan m v then { c with seen := some m } else c

/-- A TIME of this station that is pending is withdrawn by a received TIME of its minute or a later one (R47). -/
def withdrawTime (e : Env) (m : Nat) (y : Yard) : Yard :=
  withdraw e (fun t => match t with
    | .time n => decide (m = n) || laterThan m n
    | _ => false) y

/-- TIME with minute m at the yard clock (R47). At an adoption the pending TIME is withdrawn before the blocks get the
change of minute (log 28). -/
def State.takeTime (m : Nat) (s : State) : State :=
  if m = s.clock.minute then { s with clock := s.clock.see m, yard := withdrawTime s.env m s.yard }
  else if laterThan m s.clock.minute then
    let s := { s with yard := countTimeAdopted (withdrawTime s.env m s.yard) }
    s.changeMinute { s.clock.see m with minute := m, seconds := 0, subMs := 0 }
  else s

/-- TIME_RECEIVED (R47). -/
def State.timeReceived (s : State) : State :=
  if s.inReset || decide (s.phase ≠ .running) then s
  else
    match s.yard.line.head with
    | some ⟨_, _, _, .time m⟩ => State.takeTime m { s with yard := dropHead s.yard }
    | _ => s

/-! ## The meanings -/

def execSeekReceived (s : State) : Host.Outcome State Fault Refusal := .next (s.whenRunning seekReceived)

def execOfferReceived (s : State) : Host.Outcome State Fault Refusal := .next (s.whenRunning offerReceived)

def execTakenReceived (s : State) : Host.Outcome State Fault Refusal :=
  .next (s.whenRunning (fun e y => answerReceived e .taken y))

def execHoldReceived (s : State) : Host.Outcome State Fault Refusal :=
  .next (s.whenRunning (fun e y => answerReceived e .hold y))

def execRefuseReceived (s : State) : Host.Outcome State Fault Refusal :=
  .next (s.whenRunning (fun e y => answerReceived e .refuse y))

def execHandoverReceived (s : State) : Host.Outcome State Fault Refusal := .next (s.whenRunning handoverReceived)

def execClaimReceived (s : State) : Host.Outcome State Fault Refusal := .next (s.whenRunning claimReceived)

def execCancelReceived (s : State) : Host.Outcome State Fault Refusal := .next (s.whenRunning cancelReceived)

def execRepinReceived (s : State) : Host.Outcome State Fault Refusal :=
  .next (s.whenRunning (fun _ y => repinReceived y))

def execTimeReceived (s : State) : Host.Outcome State Fault Refusal := .next s.timeReceived

end Sys2Proof.Machine
end

