-- ==== Sys2Proof/Machine/Tracker.lean ====
section
/-! DEFINITION. The loop scanner and the point tracker (R187 to R197), the lane exit (R105 to R107), the exit passage
(R180), the sign line (R204), and the meanings of the events they take. -/

namespace Sys2Proof.Machine

/-! ## Owners' actions that need the whole yard -/

/-- A CLEAR at LANE_OUT (R105 to R107). -/
def laneExit (e : Env) (n : Nat) (y : Yard) : Yard :=
  match (y.lane? n).bind Lane.front with
  | none => countEmptyClear y
  | some p =>
    match p.state with
    | .leaving _ => onPositions e n (·.drop 1) y
    | .parked =>
      notify e .unplannedExit (some p.fleet) (some (.lane n)) []
        (loseRec p.fleet .adrift (onPositions e n (·.drop 1) y))
    | .calledOut =>
      notify e .unplannedExit (some p.fleet) (some (.lane n)) []
        (dropExitOffer e p.fleet (loseRec p.fleet .adrift (onPositions e n (·.drop 1) y)))

/-- The lateness of a served duty (R180). -/
def lateness (now release : Nat) : Nat := if laterThan now release then (now + 1440 - release % 1440) % 1440 else 0

/-- An arrival of a fleet at GATE_OUT (R180). -/
def exitPassage (e : Env) (fleet : Nat) (y : Yard) : Yard :=
  let y := removeRec fleet y
  match y.gate.duties.find? (fun d => d.state == .outbound fleet) with
  | some d =>
    removeDuty d.number (notify e .dutyServed (some fleet) none [d.number, lateness e.minute d.release] y)
  | none => y

/-- An intruder at a receiving point (R100, R118, R147, R180). -/
def intruder (e : Env) (k : PointKind) (i : Nat) (y : Yard) : Yard :=
  match k with
  | .gateOut => notify e .intruder none (some .gateExit) [] y
  | .apronIn => apronIntruder e y
  | .washIn => washIntruder e i y
  | .laneIn => laneIntruder e i y
  | _ => y

/-- An arrival with the popped expectation (R99, R118, R147, R180). -/
def arrival (e : Env) (k : PointKind) (i : Nat) (x : Expect) (y : Yard) : Yard :=
  match k with
  | .gateOut => exitPassage e x.fleet y
  | .apronIn => apronArrival e x.fleet y
  | .washIn => washArrival e i x y
  | .laneIn => laneArrival e i x.fleet y
  | _ => y

/-! ## Point events (R191, R192, R195, R203) -/

/-- ARRIVE at a point (R192, R195). -/
def arriveAt (e : Env) (k : PointKind) (i : Nat) (y : Yard) : Yard :=
  if k.receiving then
    match popExpect e k i y with
    | (some x, y) => arrival e k i x y
    | (none, y) => intruder e k i y
  else
    match k with
    | .gateIn => crossArrive e y
    | .bay => bayArrive e i y
    | _ => y

/-- The direction sign whose showing ends at the CLEAR of a point (R203). -/
def PointKind.sign : PointKind → Nat → Option Nat
  | .gateIn, _ => some 48
  | .bay, p => some (36 + p)
  | .washOut, w => some (42 + w)
  | _, _ => none

/-- CLEAR at a point (R192, R203); the sign returns to its first value before the owner acts (log 22). -/
def clearAt (e : Env) (k : PointKind) (i : Nat) (y : Yard) : Yard :=
  let y := match k.sign i with
    | some n => setSign e n 0 y
    | none => y
  match k with
  | .bay => bayClear e i y
  | .washIn => washInClear e i y
  | .washOut => washOutClear e i y
  | .laneIn => laneEntryClear i y
  | .laneOut => laneExit e i y
  | _ => y

/-- DWELL at a point (R192). -/
def dwellAt (e : Env) (k : PointKind) (i : Nat) (y : Yard) : Yard :=
  match k with
  | .laneIn => laneDwell e i y
  | .washIn => washDwell e i y
  | _ => y

def Point.at (row col : Nat) (p : Point) : Bool := p.cfg.row == row && p.cfg.col == col

def Yard.contactPoint? (y : Yard) (row col : Nat) : Option Point := y.points.find? (·.at row col)

/-- Sets the dwell timer of a contact's point. -/
def setDwell (row col : Nat) (t : Option Nat) (y : Yard) : Yard :=
  { y with points := updFirst (·.at row col) (fun p => { p with dwell := t }) y.points }

/-- A rise or a fall of a contact: the dwell timer starts or stops, and the owner gets its ARRIVE or CLEAR (R191,
R192). An unmapped contact's change has no further effect (R188). -/
def contactEvent (e : Env) (row : Nat) (y : Yard) (ev : Nat × Bool) : Yard :=
  match y.contactPoint? row ev.1 with
  | none => y
  | some p =>
    if ev.2 then settle e (arriveAt e p.cfg.kind p.cfg.index (setDwell row ev.1 (some (1000 * p.cfg.dwell)) y))
    else settle e (clearAt e p.cfg.kind p.cfg.index (setDwell row ev.1 none y))

/-- The dwell timer of a contact's point runs out (R191). -/
def dwellExpiry (e : Env) (row col : Nat) (y : Yard) : Yard :=
  match y.contactPoint? row col with
  | none => y
  | some p =>
    match p.dwell with
    | none => y
    | some _ =>
      dwellAt e p.cfg.kind p.cfg.index
        (setDwell row col (if p.cfg.repeats then some (1000 * p.cfg.dwell) else none) y)

/-! ## The scanner (R187, R188) -/

/-- One reading of a contact against the debounce count n: the contact after it, and whether it rose or fell. -/
def Contact.read (n : Nat) (reading : Bool) (c : Contact) : Contact × Option Bool :=
  if reading = c.occupied then ({ c with run := 0 }, none)
  else if n ≤ min 16 (c.run + 1) then ({ occupied := reading, run := 0 }, some reading)
  else ({ c with run := min 16 (c.run + 1) }, none)

/-- Reads row r; bit j of cols is the level of column input j, and low marks an occupied contact (R226). k is the place of
the list's first contact. The changes are listed in column order. -/
def readRow (n r : Nat) (cols : BitVec 8) : Nat → List Contact → List Contact × List (Nat × Bool)
  | _, [] => ([], [])
  | k, c :: cs =>
    let rest := readRow n r cols (k + 1) cs
    if k / 8 = r then
      let x := c.read n (!cols.getLsbD (k % 8))
      match x.2 with
      | some b => (x.1 :: rest.1, (k % 8, b) :: rest.2)
      | none => (x.1 :: rest.1, rest.2)
    else (c :: rest.1, rest.2)

/-- The row period ends (R187, R188): the row's contacts are read, the next row is driven, and in the RUNNING phase the
changes go to the point tracker. -/
def State.rowScan (cols : BitVec 8) (s : State) : State :=
  if s.inReset then s
  else
    let row := s.scan.row
    let res := readRow s.layout.params.debounce row cols 0 s.scan.contacts
    let s := { s with scan := { row := (row + 1) % 8, contacts := res.1 } }
    if s.phase = .running then { s with yard := res.2.foldl (contactEvent s.env row) s.yard } else s

/-! ## The sign line (R204) -/

/-- The sending of the record ends: its value becomes the sent value, and the oldest waiting record is begun. -/
def signSent (y : Yard) : Yard :=
  match y.signs.sending with
  | none => y
  | some r =>
    let p := { y.signs with
      sending := none
      signs := updFirst (·.number == r.number) (fun x => { x with sent := some r.value }) y.signs.signs }
    { y with signs := p.kick }

/-! ## The meanings -/

def execRowScan (columns : BitVec 8) (s : State) : Host.Outcome State Fault Refusal := .next (s.rowScan columns)

def execDwellTimerExpiry (row col : Nat) (s : State) : Host.Outcome State Fault Refusal :=
  .next (s.whenRunning (fun e y => dwellExpiry e row col y))

def execTravelTimeout (fleet : Nat) (s : State) : Host.Outcome State Fault Refusal :=
  .next (s.whenRunning (fun e y => travelTimeout e fleet y))

def execSignRecordSent (s : State) : Host.Outcome State Fault Refusal :=
  .next (s.whenRunning (fun _ y => signSent y))

end Sys2Proof.Machine
end

