-- ==== Sys2Proof/Machine/Timers.lean ====
section
/-! DEFINITION. The yard clock's count (R43, R45, R46), the seek engine's timers (R54, R57, R61, R63, R68, R69), and the
meanings of the clock and seek timer events. -/

namespace Sys2Proof.Machine

/-! ## The clock -/

/-- TIME announcement at a rollover to minute n (R46). -/
def announce (e : Env) (seen : Option Nat) (n : Nat) (y : Yard) : Yard :=
  let known : Bool := match seen with
    | some v => decide (v = n) || laterThan v n
    | none => false
  if known then y else send e (.time n) (withdraw e TxReq.isTime y)

/-- The local rollover (R43, R46); the announcement is decided before the blocks get the minute (log 28). -/
def State.rollover (s : State) : State :=
  if s.inReset || !s.clock.valid then s
  else
    let n := (s.clock.minute + 1) % 1440
    let s := if s.phase = .running then { s with yard := announce s.env s.clock.seen n s.yard } else s
    s.changeMinute { s.clock with minute := n, seconds := 0, subMs := 0, seen := none }

/-- A second passes without the count passing 59 (R43). -/
def State.countSecond (s : State) : State :=
  if s.inReset || !s.clock.valid || decide (59 ≤ s.clock.seconds) then s
  else { s with clock := { s.clock with seconds := s.clock.seconds + 1, subMs := 0 } }

/-! ## The seek engine's timers -/

/-- The retry timer of a WAIT_RETRY entry runs out (R54). -/
def retryExpiry (e : Env) (n : Nat) (y : Yard) : Yard :=
  match y.seekEntry? n with
  | some en => if en.state = .waitRetry then newRound e n y else y
  | none => y

/-- The offer hold of a HELD entry runs out (R57). -/
def offerHoldExpiry (ref : SeekRef) (fleet : Nat) (y : Yard) : Yard :=
  match y.heldOffer? ref fleet with
  | some o =>
    let y := removeOffer true ref fleet (releaseRes o.resource ref fleet y)
    { y with seek.lapsed := pushOldest Config.seekCap ⟨ref, o.service, o.resource, fleet⟩ y.seek.lapsed }
  | none => y

/-- The offer hold of an AWAITING entry runs out (R68). -/
def awaitingHoldExpiry (e : Env) (n : Nat) (y : Yard) : Yard :=
  match y.seekEntry? n with
  | some en =>
    match en.state, en.winner with
    | .awaiting, some w => excludeAndRetry e n w.station y
    | _, _ => y
  | none => y

/-- A new HANDOVER of a PUSH entry is built and placed (R59). -/
def sendPush (e : Env) (n : Nat) (y : Yard) : Yard :=
  send e (.handover n) (onSeek n (fun x => { x with state := .handing .sending, timer := none }) y)

/-- A new HANDOVER of an EXIT entry is built and placed (R69). -/
def sendExit (e : Env) (o : OfferEntry) (y : Yard) : Yard :=
  send e (.exitHandover o.ref o.fleet) (onOffer false o.ref o.fleet (fun x => { x with state := .sending, timer := none }) y)

/-- The answer timer of a handover runs out (R63, R69). -/
def answerExpiry (e : Env) (h : HandoverId) (y : Yard) : Yard :=
  match h with
  | .push n =>
    match y.seekEntry? n with
    | some en =>
      if en.state = .handing .awaiting then
        if en.attempts < e.layout.params.attempts then sendPush e n y else settle e (handoverFailed e n y)
      else y
    | none => y
  | .exit ref fleet =>
    match y.exitOffer? ref fleet with
    | some o =>
      if o.state = .sending ∧ o.timer.isSome then
        if o.attempts < e.layout.params.attempts then sendExit e o y else settle e (exitFailed e o y)
      else y
    | none => y

/-- The pause after a HOLD ends (R61, R69). -/
def holdEnd (e : Env) (h : HandoverId) (y : Yard) : Yard :=
  match h with
  | .push n =>
    match y.seekEntry? n with
    | some en => if en.state = .handing .pausing then sendPush e n y else y
    | none => y
  | .exit ref fleet =>
    match y.exitOffer? ref fleet with
    | some o => if o.state = .paused then sendExit e o y else y
    | none => y

/-! ## The meanings -/

def execMinuteRollover (s : State) : Host.Outcome State Fault Refusal := .next s.rollover

def execSecondsCount (s : State) : Host.Outcome State Fault Refusal := .next s.countSecond

def execRetryTimerExpiry (number : Nat) (s : State) : Host.Outcome State Fault Refusal :=
  .next (s.whenRunning (fun e y => retryExpiry e number y))

def execOfferHoldExpiry (offer : OfferId) (s : State) : Host.Outcome State Fault Refusal :=
  .next (s.whenRunning (fun _ y => offerHoldExpiry offer.ref offer.fleet y))

def execAwaitingHoldExpiry (number : Nat) (s : State) : Host.Outcome State Fault Refusal :=
  .next (s.whenRunning (fun e y => awaitingHoldExpiry e number y))

def execAnswerTimerExpiry (handover : HandoverId) (s : State) : Host.Outcome State Fault Refusal :=
  .next (s.whenRunning (fun e y => answerExpiry e handover y))

def execHoldIntervalEnd (handover : HandoverId) (s : State) : Host.Outcome State Fault Refusal :=
  .next (s.whenRunning (fun e y => holdEnd e handover y))

end Sys2Proof.Machine
end

