-- ==== Sys2Proof/Machine/Ports.lean ====
section
/-! DEFINITION. The yard-side ports: pumps and nozzles (chapter 6), wash plant inputs (chapter 7), the tag reader
(R160 to R163), the output pins (R222, R226), and the meanings of their events. -/

namespace Sys2Proof.Machine

/-! ## The tag reader -/

/-- A failed poll (R160, R161). -/
def pollFailed (e : Env) (y : Yard) : Yard :=
  let n := min 3 (y.gate.failCount + 1)
  let y := countPollFailed { y with gate.failCount := n }
  if n = 3 ∧ y.gate.faultRaised = false then
    notify e .readerFault none none [e.layout.gateCfg.reader] { y with gate.faultRaised := true }
  else y

/-- A successful poll (R161). -/
def pollGood (y : Yard) : Yard := { y with gate.failCount := 0, gate.faultRaised := false }

/-- The poll timer runs out (R160); lineLow says that SCL or SDA reads low while the poller drives neither. A poll that
finds the bus busy begins no transfer; one that finds it free begins the read transaction. -/
def pollTimer (e : Env) (lineLow : Bool) (y : Yard) : Yard :=
  match y.gate.pollTimer with
  | none => y
  | some _ =>
    let y := { y with gate.pollTimer := some e.layout.gateCfg.poll }
    if y.gate.polling then y
    else if y.gate.busHeld || lineLow then pollFailed e { y with gate.busOut := [] }
    else { y with gate.polling := true, gate.busOut := busDriven e.layout.gateCfg.reader [] }

/-- A record read whole is decoded (R163). -/
def tagRead (e : Env) (t : Vector Byte 8) (y : Yard) : Yard :=
  match decodeTag t with
  | .noMark => y
  | .bad => countTagBad y
  | .good b => goodTag e b y

/-- A read transaction ends, as the levels of SDA in its clocks tell, and they tell too what the poller has put on the
bus until its end (R160, R163); levels that do not end it change nothing (log 4). Losing the arbitration leaves the bus
with the other master (log 25). -/
def pollEnd (e : Env) (sda : List Bool) (y : Yard) : Yard :=
  if y.gate.polling = false then y
  else
    let done := { y with gate.polling := false, gate.busOut := busDriven e.layout.gateCfg.reader sda }
    match pollOutcome e.layout.gateCfg.reader sda with
    | none => y
    | some .noTag => pollGood done
    | some .arbitrationLost => pollFailed e { done with gate.busHeld := true }
    | some (.tag t) => tagRead e t (pollGood done)

/-- A start or stop condition of another master between the poller's own transactions (R160, log 25). -/
def startStop (e : Env) (start : Bool) (y : Yard) : Yard :=
  if e.layout.gate.isSome && !y.gate.polling then { y with gate.busHeld := start } else y

/-! ## Plant inputs -/

/-- A plant input of a lane laid out becomes asserted: the station's view of it is set, and in the RUNNING phase the wash
unit acts (R149, R150, R152, R158, log 26). -/
def State.plantInput (w : Nat) (i : PlantInput) (f : Env → Yard → Yard) (s : State) : State :=
  (s.onYard fun _ y => setPlant w i true y).whenRunning f

/-! ## Output pins (R222, R226) -/

/-- The levels of the eight row outputs of the loop matrix, bit r for row r: the row that is scanned is low. In reset no
row is scanned (log 62). -/
def State.rowPins (s : State) : BitVec 8 := if s.inReset then ~~~0#8 else ~~~(1#8 <<< s.scan.row)

/-- The ENABLE output of a pump, high while fuel is enabled; low in reset and for a pump not laid out (log 62). -/
def State.enablePin (s : State) (p : Nat) : Bool := !s.inReset && (s.yard.pump? p).any (·.enable)

/-- The code on the PROG pins of a wash lane; 0 in reset and for a lane not laid out (log 62). -/
def State.progCode (s : State) (w : Nat) : Nat :=
  if s.inReset then 0 else (s.yard.washLane? w).elim 0 WashLane.progLines

/-- The START output of a wash lane, high while raised; low in reset and for a lane not laid out (log 62). -/
def State.startPin (s : State) (w : Nat) : Bool := !s.inReset && (s.yard.washLane? w).any (·.startOut)

/-- The PROG A pin of a wash lane: the low bit of the programme code. -/
def State.progA (s : State) (w : Nat) : Bool := (s.progCode w).testBit 0

/-- The PROG B pin of a wash lane: the high bit of the programme code. -/
def State.progB (s : State) (w : Nat) : Bool := (s.progCode w).testBit 1

/-! ## The meanings -/

def execPumpCallTimeout (pump : Nat) (s : State) : Host.Outcome State Fault Refusal :=
  .next (s.whenRunning (fun e y => pumpSkip e pump y))

def execNozzleLift (pump : Nat) (s : State) : Host.Outcome State Fault Refusal :=
  .next (s.whenRunning (fun e y => nozzleLift e pump y))

def execNozzleHang (pump : Nat) (s : State) : Host.Outcome State Fault Refusal :=
  .next (s.whenRunning (fun e y => nozzleHang e pump y))

def execMeterPulse (pump : Nat) (s : State) : Host.Outcome State Fault Refusal :=
  .next (s.whenRunning (fun e y => meterPulse e pump y))

def execNoFlowTimeout (pump : Nat) (s : State) : Host.Outcome State Fault Refusal :=
  .next (s.whenRunning (fun e y => noFlow e pump y))

def execAgingTimerExpiry (s : State) : Host.Outcome State Fault Refusal :=
  .next (s.whenRunning (fun e y => agingEnd e y))

def execWashCallTimeout (wash : Nat) (s : State) : Host.Outcome State Fault Refusal :=
  .next (s.whenRunning (fun e y => washSkip e wash y))

/-- The start timer runs out in STARTING (R149, R152). -/
def startExpiry (e : Env) (w : Nat) (y : Yard) : Yard :=
  match y.washLane? w with
  | some l => if l.state = .starting then washOut e w 1 y else y
  | none => y

def execStartTimeout (wash : Nat) (s : State) : Host.Outcome State Fault Refusal :=
  .next (s.whenRunning (fun e y => startExpiry e wash y))

def execBusy (wash : Nat) (s : State) : Host.Outcome State Fault Refusal :=
  .next (s.plantInput wash .busy (fun e y => washBusy e wash y))

def execDone (wash : Nat) (s : State) : Host.Outcome State Fault Refusal :=
  .next (s.plantInput wash .done (fun e y => washDone e wash y))

def execFault (wash : Nat) (s : State) : Host.Outcome State Fault Refusal :=
  .next (s.plantInput wash .fault (fun e y => washOut e wash 0 y))

def execPlantInputReleased (wash : Nat) (input : PlantInput) (s : State) : Host.Outcome State Fault Refusal :=
  .next (s.onYard (fun _ y => setPlant wash input false y))

def execPollTimerExpiry (lineLow : Bool) (s : State) : Host.Outcome State Fault Refusal :=
  .next (s.whenRunning (fun e y => pollTimer e lineLow y))

def execPollTransactionEnd (sda : List Bool) (s : State) : Host.Outcome State Fault Refusal :=
  .next (s.whenRunning (fun e y => pollEnd e sda y))

def execTagWindowExpiry (arrivals : Bool) (s : State) : Host.Outcome State Fault Refusal :=
  .next (s.whenRunning (fun e y => windowEnd e arrivals y))

def execI2cStartStopSeen (start : Bool) (s : State) : Host.Outcome State Fault Refusal :=
  .next (s.onYard (fun e y => startStop e start y))

end Sys2Proof.Machine
end

