-- ==== Sys2Proof/WellFormed.lean ====
section
/-! DEFINITION. When a command is well formed: every number fits the field that carries it (the bytes of R207, the bit
fields of R26, the pins of R226), and an index names a row, column, pump, wash lane or station that the part has.
A number that fits its field may still be out of the range a rule gives it; that is the rule's own test. -/

namespace Sys2Proof

open Sys2Proof.Machine

/-- An optional number fits n bytes. -/
def fits (n : Nat) (v : Option Nat) : Bool := v.all (· < 256 ^ n)

def StationFields.wf (f : StationFields) : Bool :=
  fits 1 f.number && fits 1 f.area1 && fits 1 f.area2 && fits 1 f.seekFuel && fits 1 f.seekWash && fits 1 f.seekBerth
    && fits 1 f.seekExit

def LaneFields.wf (f : LaneFields) : Bool := fits 1 f.number && fits 1 f.depth && fits 1 f.area && fits 1 f.bias

def PumpFields.wf (f : PumpFields) : Bool :=
  fits 1 f.index && fits 2 f.pulses && fits 2 f.rate && fits 2 f.maxTurn

def IslandFields.wf (f : IslandFields) : Bool :=
  fits 1 f.capacity && fits 1 f.area && fits 1 f.bias && fits 4 f.reserveDiesel && fits 4 f.reserveGas
    && fits 1 f.horizon && fits 2 f.minFill && fits 1 f.levelStep && fits 1 f.aging && fits 1 f.callTimeout
    && fits 1 f.maxSkips && fits 2 f.noFlow

def WashFields.wf (f : WashFields) : Bool :=
  fits 1 f.index && fits 1 f.area && fits 1 f.bias && fits 1 f.nomRinse && fits 1 f.nomStandard && fits 1 f.nomFull
    && fits 1 f.alpha && fits 1 f.margin && fits 1 f.startTimeout && fits 1 f.callTimeout && fits 1 f.maxSkips
    && fits 1 f.depth

def GateFields.wf (f : GateFields) : Bool :=
  fits 1 f.reader && fits 2 f.poll && fits 1 f.window && fits 1 f.refuel && fits 1 f.defaultMin && fits 1 f.callLead
    && fits 1 f.grace

def PointFields.wf (f : PointFields) : Bool := fits 1 f.row && fits 1 f.col && fits 1 f.index && fits 2 f.dwell

def BusFields.wf (b : BusFields) : Bool :=
  decide (b.fleet < 65536) && decide (b.cls < 256) && decide (b.capacity < 65536) && decide (b.level < 256)

def DutyFields.wf (f : DutyFields) : Bool :=
  decide (f.number < 65536) && decide (f.release < 65536) && fits 1 f.minLevel && fits 2 f.fleet

/-- A parameter's value fits its bytes. -/
def paramWf (p : Param) (v : Nat) : Bool :=
  match p with
  | .gEmpty | .spareRelease | .answerTime | .retry => decide (v < 65536)
  | _ => decide (v < 256)

def SeekRef.wf (r : SeekRef) : Bool := decide (r.station < 32) && decide (r.number < 256)

def HandoverId.wf : HandoverId → Bool
  | .push n => decide (n < 256)
  | .exit ref fleet => SeekRef.wf ref && decide (fleet < 4096)

/-- A frame on the line is at most 309 bits from its start mark through its CRC, of which no more than 102 make the
sender stuff a bit (R26, R225). -/
def Damage.wf : Damage → Bool
  | .complete bits _ => decide (bits.length ≤ 411)
  | .cutOff => true

/-- A command is well formed. -/
def Instr.wf (i : Instr) : Bool :=
  match i with
  | .setStation f => StationFields.wf f
  | .addLane f => LaneFields.wf f
  | .addPump f => PumpFields.wf f
  | .setIsland f => IslandFields.wf f
  | .addWash f => WashFields.wf f
  | .setGate f => GateFields.wf f
  | .mapPoint f => PointFields.wf f
  | .setParameter p v => paramWf p v
  | .lock => true
  | .setClock minute seconds => decide (minute < 65536) && decide (seconds < 256)
  | .placeParked lane bus => decide (lane < 256) && BusFields.wf bus
  | .setStock _ v => decide (v < 4294967296)
  | .loadDuty f => DutyFields.wf f
  | .start => true
  | .dropDuty n => decide (n < 65536)
  | .delivery _ v => decide (v < 4294967296)
  | .closeLane l => decide (l < 256)
  | .openLane l => decide (l < 256)
  | .reopenPump p => decide (p < 256)
  | .reopenWash w => decide (w < 256)
  | .admitBus bus => BusFields.wf bus
  | .resolveAtPoint f _ i => decide (f < 65536) && decide (i < 256)
  | .resolveReseek f => decide (f < 65536)
  | .resolveLeftYard f => decide (f < 65536)
  | .readRecord f => decide (f < 65536)
  | .readLane l => decide (l < 256)
  | .readApron => true
  | .readWashQueue w => decide (w < 256)
  | .readDuty n => decide (n < 65536)
  | .readDuties => true
  | .readSeekTable => true
  | .readCounters => true
  | .readLineSummary => true
  | .readStatus => true
  | .clearFlags _ => true
  | .takeNotice => true
  | .reset => true
  | .unknownCommandCode code => decide (code.toNat = 0 ∨ 26 < code.toNat)
  | .resetAfterAnswer => true
  | .hostByteReceived _ _ => true
  | .hostInterbyteTimeout => true
  | .hostAnswerSent => true
  | .resetPinAsserted => true
  | .resetPinReleased => true
  | .powerUp => true
  | .opening _ => true
  | .frameCarried bits => decide (bits.length ≤ 411)
  | .frameDamaged cause => Damage.wf cause
  | .sendDamaged => true
  | .lineFollowBegin => true
  | .seekReceived => true
  | .offerReceived => true
  | .takenReceived => true
  | .holdReceived => true
  | .refuseReceived => true
  | .handoverReceived => true
  | .claimReceived => true
  | .cancelReceived => true
  | .repinReceived => true
  | .timeReceived => true
  | .minuteRollover => true
  | .retryTimerExpiry n => decide (n < 256)
  | .offerHoldExpiry offer => SeekRef.wf offer.ref && decide (offer.fleet < 4096)
  | .awaitingHoldExpiry n => decide (n < 256)
  | .answerTimerExpiry h => HandoverId.wf h
  | .holdIntervalEnd h => HandoverId.wf h
  | .rowScan _ => true
  | .dwellTimerExpiry row col => decide (row < 8) && decide (col < 8)
  | .travelTimeout f => decide (f < 4096)
  | .pumpCallTimeout p => decide (p < 4)
  | .nozzleLift p => decide (p < 4)
  | .nozzleHang p => decide (p < 4)
  | .meterPulse p => decide (p < 4)
  | .noFlowTimeout p => decide (p < 4)
  | .agingTimerExpiry => true
  | .washCallTimeout w => decide (w < 2)
  | .busy w => decide (w < 2)
  | .startTimeout w => decide (w < 2)
  | .done w => decide (w < 2)
  | .fault w => decide (w < 2)
  | .pollTimerExpiry _ => true
  | .pollTransactionEnd sda => decide (sda.length ≤ 81)
  | .tagWindowExpiry _ => true
  | .signRecordSent => true
  | .plantInputReleased w _ => decide (w < 2)
  | .i2cStartStopSeen _ => true
  | .secondsCount => true

end Sys2Proof
end

