-- ==== Sys2Proof/Machine/Answers.lean ====
section
/-! DEFINITION. How a command is answered: the phases that take it (R210), the answer record (R207, R209), the records
that wait for the answer before them (R208, R209), and the reset (R222, R224). -/

namespace Sys2Proof.Machine

/-- What the block that a command concerns answers: DONE with the state after it and data, or a refusal, which changes
no state (R209). -/
inductive Reply where
  | done (s : State) (data : List Byte)
  | refused (r : HostResult) (data : List Byte)
  deriving DecidableEq, Repr

/-- DONE with no data. -/
def Reply.ok (s : State) : Reply := .done s []

/-- A refusal with no data. -/
def Reply.no (r : HostResult) : Reply := .refused r []

/-- The phases that take a command code (R210). -/
def takenIn (code : Nat) : Phase → Bool
  | .config => decide (1 ≤ code ∧ code ≤ 10) || decide (23 ≤ code ∧ code ≤ 26)
  | .locked => decide (10 ≤ code ∧ code ≤ 14) || decide (23 ≤ code ∧ code ≤ 26)
  | .running => code == 12 || code == 13 || decide (15 ≤ code ∧ code ≤ 26)

/-- An answer record begins to be sent (R207, R209). -/
def State.answer (code : Nat) (r : HostResult) (data : List Byte) (s : State) : State :=
  { s with host := { s.host with answer := some ⟨code, r, data⟩, txd := (HostAnswer.mk code r data).bytes } }

/-- Sends the block's answer. -/
def Reply.give (code : Nat) (s : State) : Reply → State
  | .done s' data => s'.answer code .done data
  | .refused r data => s.answer code r data

/-- A command of a code is carried out (R209). In reset it is ignored (R222), and so is one behind a RESET that is to
follow its answer (R223). -/
def State.command (code : Nat) (f : State → Reply) (s : State) : State :=
  if s.inReset || s.host.resetPending then s
  else if takenIn code s.phase then (f s).give code s
  else s.answer code .phase []

/-! ## Commands that arrive while an answer is being sent (R208, R209) -/

/-- The bytes in the receive buffer. -/
def HostLink.used (h : HostLink) : Nat := (h.waiting.map List.length).sum + (h.inProgress.getD []).length

/-- An answer is on its way: a command that arrives now waits for its end (R209). -/
def State.answering (s : State) : Bool := !s.inReset && s.host.answer.isSome

/-- A complete record waits in the receive buffer; one that finds no place there is discarded and counted (R208). -/
def State.wait (record : List Byte) (s : State) : State :=
  if s.host.used + record.length ≤ Config.rxBufCap then
    { s with host := { s.host with waiting := s.host.waiting ++ [record] } }
  else { s with host := { s.host with discarded := sat 65535 s.host.discarded } }

/-- The record that stands for a command row of a code while it waits (log 9): that of the command, or, where no record
holds its fields, one without fields, which is answered RANGE as the command would be. -/
def rowRecord (i : Instr) (code : Nat) : List Byte :=
  match i.hostFields with
  | some (_, fields) => hostRecord code (if i.wf then fields else [])
  | none => hostRecord code []

/-- A host command as a row of the table: it waits for an answer that is being sent, else it is carried out (R209). -/
def State.hostRow (i : Instr) (code : Nat) (f : State → Reply) (s : State) : State :=
  if s.answering then s.wait (rowRecord i code) else s.command code f

/-- Changes the yard by a block's action. -/
def State.inYard (f : Env → Yard → Yard) (s : State) : State := { s with yard := f s.env s.yard }

/-- The state after reset, with the queue of commands kept and the reset pin and the supply as they are (R222, R224,
log 14). -/
def State.afterReset (s : State) : State :=
  { State.reset with pending := s.pending, pinLow := s.pinLow, supplyLow := s.supplyLow }

/-- An optional layout value is absent or satisfies a range (R212). -/
def optIn (p : Nat → Bool) : Option Nat → Bool
  | none => true
  | some v => p v

/-- A layout value that must be given satisfies its range (R212). -/
def mustIn (p : Nat → Bool) : Option Nat → Bool
  | none => false
  | some v => p v

/-- The range lo..hi. -/
def within (lo hi v : Nat) : Bool := decide (lo ≤ v) && decide (v ≤ hi)

/-- The six bus fields lie in their ranges (R1, R163, R209). -/
def BusFields.ok (b : BusFields) : Bool :=
  fleetOk b.fleet && decide (b.cls ≤ 7) && capacityOk b.capacity && decide (b.level ≤ 100)

end Sys2Proof.Machine
end

