-- ==== Sys2Proof/Machine/Layouts.lean ====
section
/-! DEFINITION. The layout commands and LOCK (R212 to R216), and START (R211). -/

namespace Sys2Proof.Machine

/-! ## The layout store (R212, R216) -/

/-- An item of the store from the fields of its command; none when a field is out of range or one without a default is
absent (R212). -/
def StationFields.item (f : StationFields) : Option StationCfg :=
  match f.number, f.area1, f.rate with
  | some n, some a, some r =>
    if decide (n ≤ 31) && within 1 7 a && optIn (within 1 7) f.area2 && decide (f.area2 ≠ some a)
        && optIn (· ≤ 7) f.seekFuel && optIn (· ≤ 7) f.seekWash && optIn (· ≤ 7) f.seekBerth && optIn (· ≤ 7) f.seekExit
    then some ⟨n, a, f.area2, r, f.seekFuel.getD 0, f.seekWash.getD 0, f.seekBerth.getD 0, f.seekExit.getD 0⟩
    else none
  | _, _, _ => none

def LaneFields.item (f : LaneFields) : Option LaneCfg :=
  match f.number, f.depth, f.mask, f.area with
  | some n, some d, some m, some a =>
    if decide (n ≤ 11) && within 1 12 d && within 1 7 a && optIn (· ≤ 255) f.bias then some ⟨n, d, m, a, f.bias.getD 0⟩
    else none
  | _, _, _, _ => none

def PumpFields.item (f : PumpFields) : Option PumpCfg :=
  match f.index, f.fuel, f.pulses, f.rate with
  | some i, some fu, some p, some r =>
    if decide (i ≤ 3) && decide (fu ≠ .noFuel) && within 10 1000 p && within 1000 20000 r
        && optIn (within 1000 60000) f.maxTurn
    then some ⟨i, fu, p, r, f.maxTurn.getD 60000⟩
    else none
  | _, _, _, _ => none

def IslandFields.item (f : IslandFields) : Option IslandCfg :=
  match f.capacity, f.area with
  | some c, some a =>
    if within 1 16 c && within 1 7 a && optIn (· ≤ 255) f.bias && optIn (· ≤ Config.maxStock) f.reserveDiesel
        && optIn (· ≤ Config.maxStock) f.reserveGas && optIn (· ≤ 240) f.horizon && optIn (within 100 20000) f.minFill
        && optIn (within 15 240) f.levelStep && optIn (within 5 60) f.aging && optIn (within 1 10) f.callTimeout
        && optIn (within 1 3) f.maxSkips && optIn (within 30 300) f.noFlow
    then some ⟨c, a, f.bias.getD 0, f.reserveDiesel.getD 0, f.reserveGas.getD 0, f.horizon.getD 90, f.minFill.getD 2000,
                f.levelStep.getD 90, f.aging.getD 20, f.callTimeout.getD 3, f.maxSkips.getD 2, f.noFlow.getD 60⟩
    else none
  | _, _ => none

def WashFields.item (f : WashFields) : Option WashCfg :=
  match f.index, f.area, f.depth with
  | some i, some a, some d =>
    if decide (i ≤ 1) && within 1 7 a && within 1 8 d && optIn (· ≤ 255) f.bias && decide (f.enabled ≠ some 0)
        && optIn (within 1 255) f.nomRinse && optIn (within 1 255) f.nomStandard && optIn (within 1 255) f.nomFull
        && optIn (within 1 32) f.alpha && optIn (· ≤ 60) f.margin && optIn (within 5 60) f.startTimeout
        && optIn (within 1 10) f.callTimeout && optIn (within 1 3) f.maxSkips
    then some ⟨i, a, f.bias.getD 0, f.enabled.getD 7#3, f.nomRinse.getD 4, f.nomStandard.getD 9, f.nomFull.getD 14,
                f.alpha.getD 8, f.margin.getD 10, f.startTimeout.getD 10, f.callTimeout.getD 3, f.maxSkips.getD 2, d⟩
    else none
  | _, _, _ => none

def GateFields.item (f : GateFields) : Option GateCfg :=
  match f.reader with
  | some r =>
    if within 8 119 r && optIn (within 100 1000) f.poll && optIn (within 5 60) f.window && optIn (within 50 100) f.refuel
        && optIn (· ≤ 100) f.defaultMin && optIn (within 5 60) f.callLead && optIn (· ≤ 60) f.grace
    then some ⟨r, f.poll.getD 250, f.window.getD 15, f.refuel.getD 90, f.defaultMin.getD 60, f.callLead.getD 15,
                f.grace.getD 10⟩
    else none
  | none => none

/-- The largest resource index of a point kind (R190). -/
def PointKind.maxIndex : PointKind → Nat
  | .laneIn | .laneOut => 11
  | .bay => 3
  | .washIn | .washOut => 1
  | _ => 0

def PointFields.item (f : PointFields) : Option PointCfg :=
  match f.row, f.col, f.kind, f.index with
  | some r, some c, some k, some i =>
    if decide (r ≤ 7) && decide (c ≤ 7) && decide (i ≤ k.maxIndex) && optIn (within 5 600) f.dwell then
      some ⟨r, c, k, i, f.dwell.getD 30, f.repeats.getD false⟩
    else none
  | _, _, _, _ => none

/-- The range of a parameter (R216). -/
def Param.inRange (p : Param) (v : Nat) : Bool :=
  match p with
  | .wB | .wS => decide (v ≤ 15)
  | .gEmpty | .spareRelease => decide (v ≤ 1439)
  | .offerHold | .holdInterval => within 1 10 v
  | .answerTime => within 50 1000 v
  | .attempts => within 1 7 v
  | .retry => within 10 300 v
  | .travel => within 1 30 v
  | .rowPeriod => within 1 16 v
  | .debounce => v == 2 || v == 4 || v == 8 || v == 16

def Params.set (ps : Params) (p : Param) (v : Nat) : Params :=
  match p with
  | .wB => { ps with wB := v }
  | .wS => { ps with wS := v }
  | .gEmpty => { ps with gEmpty := v }
  | .spareRelease => { ps with spareRelease := v }
  | .offerHold => { ps with offerHold := v }
  | .answerTime => { ps with answerTime := v }
  | .attempts => { ps with attempts := v }
  | .holdInterval => { ps with holdInterval := v }
  | .retry => { ps with retry := v }
  | .travel => { ps with travel := v }
  | .rowPeriod => { ps with rowPeriod := v }
  | .debounce => { ps with debounce := v }

/-- A contact's place among the 64. -/
def PointCfg.contact (p : PointCfg) : Nat := 8 * p.row + p.col

/-- A layout command is taken into the store, or refused with RANGE (R212). -/
def storeItem (item : Option α) (put : α → Layout → Layout) (s : State) : Reply :=
  match item with
  | some x => .ok { s with store := put x s.store }
  | none => .no .range

def putStation (x : StationCfg) (l : Layout) : Layout := { l with station := some x }
def putLane (x : LaneCfg) (l : Layout) : Layout := { l with lanes := insertBy (·.number) x l.lanes }
def putPump (x : PumpCfg) (l : Layout) : Layout := { l with pumps := insertBy (·.index) x l.pumps }
def putIsland (x : IslandCfg) (l : Layout) : Layout := { l with island := some x }
def putWash (x : WashCfg) (l : Layout) : Layout := { l with washes := insertBy (·.index) x l.washes }
def putGate (x : GateCfg) (l : Layout) : Layout := { l with gate := some x }
def putPoint (x : PointCfg) (l : Layout) : Layout := { l with points := insertBy PointCfg.contact x l.points }
def putParam (x : Param × Nat) (l : Layout) : Layout := { l with params := l.params.set x.1 x.2 }

def cmdSetStation (f : StationFields) (s : State) : Reply := storeItem f.item putStation s
def cmdAddLane (f : LaneFields) (s : State) : Reply := storeItem f.item putLane s
def cmdAddPump (f : PumpFields) (s : State) : Reply := storeItem f.item putPump s
def cmdSetIsland (f : IslandFields) (s : State) : Reply := storeItem f.item putIsland s
def cmdAddWash (f : WashFields) (s : State) : Reply := storeItem f.item putWash s
def cmdSetGate (f : GateFields) (s : State) : Reply := storeItem f.item putGate s
def cmdMapPoint (f : PointFields) (s : State) : Reply := storeItem f.item putPoint s
def cmdSetParameter (p : Param) (v : Nat) (s : State) : Reply :=
  storeItem (if p.inRange v then some (p, v) else none) putParam s

/-! ## LOCK (R214, R215) -/

/-- A point of a kind and index is mapped. -/
def Layout.mapped (l : Layout) (k : PointKind) (i : Nat) : Bool := l.points.any fun p => p.kind == k && p.index == i

/-- The resource a point names is laid out (R214, check 2). -/
def Layout.owns (l : Layout) (p : PointCfg) : Bool :=
  match p.kind with
  | .laneIn | .laneOut => l.lanes.any (·.number == p.index)
  | .bay => l.pumps.any (·.index == p.index)
  | .washIn | .washOut => l.washes.any (·.index == p.index)
  | .apronIn => l.island.isSome
  | .gateIn | .gateOut => l.gate.isSome

def Layout.hasArea (l : Layout) (a : Nat) : Bool :=
  match l.station with
  | some c => a == c.area1 || some a == c.area2
  | none => false

/-- The conditions of LOCK, numbered as R214 numbers them. -/
def Layout.check (l : Layout) : Nat → Bool
  | 1 => l.station.isSome
  | 2 => l.points.all l.owns
  | 3 => decide (l.points.map fun p => (p.kind, p.index)).Nodup
  | 4 => l.lanes.all fun x => l.mapped .laneIn x.number && l.mapped .laneOut x.number
  | 5 => (l.pumps.isEmpty || (l.island.isSome && l.mapped .apronIn 0 && l.pumps.all fun x => l.mapped .bay x.index))
           && (l.island.isNone || !l.pumps.isEmpty)
  | 6 => l.washes.all fun x => l.mapped .washIn x.index && l.mapped .washOut x.index
  | 7 => l.gate.isNone || (l.mapped .gateIn 0 && l.mapped .gateOut 0)
  | 8 => (l.lanes.all fun x => l.hasArea x.area) && (l.island.all fun x => l.hasArea x.area)
           && l.washes.all fun x => l.hasArea x.area
  | 9 => l.lanes.all fun x => x.mask != 0
  | 10 => decide ((l.lanes.map (·.depth)).sum ≤ 96)
  | _ => true

/-- The first check of R214 that fails. -/
def Layout.firstFailed (l : Layout) : Option Nat :=
  [1, 2, 3, 4, 5, 6, 7, 8, 9, 10].find? fun k => !l.check k

/-- The reason of a failed check (R214). -/
def checkReason (k : Nat) : HostResult := if k = 9 ∨ k = 10 then .range else .conflict

/-- The signs of a layout in ascending number, each at its first value (R201, R205). -/
def Layout.signs (l : Layout) : List Sign :=
  let sign (n : Nat) : Sign := ⟨n, 0, some 0⟩
  l.lanes.map (fun x => sign x.number) ++ l.lanes.map (fun x => sign (16 + x.number))
    ++ l.pumps.map (fun x => sign (32 + x.index)) ++ l.pumps.map (fun x => sign (36 + x.index))
    ++ l.washes.map (fun x => sign (40 + x.index)) ++ l.washes.map (fun x => sign (42 + x.index))
    ++ (if l.gate.isSome then [sign 48] else [])

/-- A new wash lane, its estimates from its nominal minutes (R140). -/
def WashCfg.newLane (c : WashCfg) : WashLane where
  cfg := c
  estRinse := min 4080 (16 * c.nomRinse)
  estStandard := min 4080 (16 * c.nomStandard)
  estFull := min 4080 (16 * c.nomFull)

/-- The blocks take up the layout (R92, R114, R140, R190, R193, R205, R215). -/
def takeUp (l : Layout) (y : Yard) : Yard :=
  { y with
    lanes := l.lanes.map fun c => { cfg := c }
    fuel.pumps := l.pumps.map fun c => { cfg := c }
    wash.lanes := l.washes.map WashCfg.newLane
    points := l.points.map fun c => { cfg := c }
    signs := { signs := l.signs } }

/-- LOCK (R214, R215). -/
def cmdLock (s : State) : Reply :=
  match s.store.firstFailed with
  | some k => .refused (checkReason k) (b1 k)
  | none => .ok { s with phase := .locked, layout := s.store, yard := takeUp s.store s.yard }

/-! ## START (R211) -/

/-- One record for every sign, in ascending number; the sent values are unknown (R205). -/
def startSigns (y : Yard) : Yard :=
  let p : SignPort :=
    { signs := y.signs.signs.map fun x => { x with sent := none }
      list := y.signs.signs.map fun x => ⟨x.number, x.current⟩
      sending := none }
  { y with signs := p.kick }

/-- The dwell timers of the contacts that are occupied at START (R189). -/
def startDwell (contacts : List Contact) (y : Yard) : Yard :=
  { y with points := y.points.map fun p =>
      match contacts[8 * p.cfg.row + p.cfg.col]? with
      | some c => if c.occupied then { p with dwell := some (1000 * p.cfg.dwell) } else p
      | none => p }

/-- The island's aging timer starts (R121, R139). -/
def startAging (e : Env) (y : Yard) : Yard :=
  if y.fuel.pumps.isEmpty then y else { y with fuel.aging := some (60000 * e.layout.islandCfg.aging) }

/-- At START a REPIN is queued for the pin of a duty whose fleet the gate does not hold (R186). -/
def startRepin (e : Env) (y : Yard) (n : Nat) : Yard :=
  match y.pinnedFleet n with
  | some f => if (y.rec? f).isSome then y else sendRepin e f y
  | none => y

/-- The gate at START (R186): the poll timer starts, duties within their call lead are called, and REPINs for pins of
fleets the gate does not hold are queued, in list order. -/
def startGate (e : Env) (y : Yard) : Yard :=
  match e.layout.gate with
  | none => y
  | some g =>
    let y := { y with gate.pollTimer := some g.poll }
    let y := (y.gate.duties.map (·.number)).foldl (fun y n => callIfDue e n y) y
    (y.gate.duties.map (·.number)).foldl (startRepin e) y

/-- START is handed to every block (R211, log 6). -/
def startBlocks (contacts : List Contact) (e : Env) (y : Yard) : Yard :=
  settle e (startGate e (startAging e (startDwell contacts (startSigns y))))

def cmdStart (s : State) : Reply :=
  if s.clock.valid then .ok ({ s with phase := .running }.inYard (startBlocks s.scan.contacts))
  else .no .conflict

/-! ## The meanings -/

def execSetStation (f : StationFields) (s : State) : Host.Outcome State Fault Refusal :=
  .next (s.hostRow (.setStation f) 1 (cmdSetStation f))

def execAddLane (f : LaneFields) (s : State) : Host.Outcome State Fault Refusal :=
  .next (s.hostRow (.addLane f) 2 (cmdAddLane f))

def execAddPump (f : PumpFields) (s : State) : Host.Outcome State Fault Refusal :=
  .next (s.hostRow (.addPump f) 3 (cmdAddPump f))

def execSetIsland (f : IslandFields) (s : State) : Host.Outcome State Fault Refusal :=
  .next (s.hostRow (.setIsland f) 4 (cmdSetIsland f))

def execAddWash (f : WashFields) (s : State) : Host.Outcome State Fault Refusal :=
  .next (s.hostRow (.addWash f) 5 (cmdAddWash f))

def execSetGate (f : GateFields) (s : State) : Host.Outcome State Fault Refusal :=
  .next (s.hostRow (.setGate f) 6 (cmdSetGate f))

def execMapPoint (f : PointFields) (s : State) : Host.Outcome State Fault Refusal :=
  .next (s.hostRow (.mapPoint f) 7 (cmdMapPoint f))

def execSetParameter (p : Param) (value : Nat) (s : State) : Host.Outcome State Fault Refusal :=
  .next (s.hostRow (.setParameter p value) 8 (cmdSetParameter p value))

def execLock (s : State) : Host.Outcome State Fault Refusal := .next (s.hostRow .lock 9 cmdLock)

def execStart (s : State) : Host.Outcome State Fault Refusal := .next (s.hostRow .start 14 cmdStart)

end Sys2Proof.Machine
end

