-- ==== Sys2Proof/Machine/Hosts.lean ====
section
/-! DEFINITION. The other commands that change the station (R44, R109, R110, R134 to R137, R155, R156, R166, R172,
R173, R198 to R200, R218, R221, R223). -/

namespace Sys2Proof.Machine

/-! ## Clock, parked buses, stock -/

/-- SET CLOCK (R44). -/
def cmdSetClock (minute seconds : Nat) (s : State) : Reply :=
  if minuteOk minute && decide (seconds ≤ 59) then
    let c : Clock := { minute := minute, seconds := seconds, valid := true, seen := none, subMs := 0 }
    if s.clock.valid = false ∨ minute = s.clock.minute then .ok { s with clock := c }
    else if laterThan minute s.clock.minute then .ok (s.changeMinute c)
    else .no .range
  else .no .range

/-- A new parked record and its position at the rear of the lane (R13, R110). -/
def placeParked (lane : Nat) (b : BusFields) (e : Env) (y : Yard) : Yard :=
  onPositions e lane (· ++ [⟨b.fleet, .parked⟩]) (addRec ⟨freshBus b [] e.minute, .parked, .lane lane⟩ y)

/-- PLACE PARKED (R13, R110). -/
def cmdPlaceParked (lane : Nat) (b : BusFields) (s : State) : Reply :=
  if b.ok then
    match s.yard.lane? lane with
    | none => .no .range
    | some l =>
      if l.room then
        match insertAnswer b.fleet s.yard with
        | .held => .no .duplicate
        | .full => .no .full
        | .inserted => .ok (s.inYard (placeParked lane b))
      else .no .full
  else .no .range

/-- The station has the fuel unit (R114). -/
def Yard.hasFuel (y : Yard) : Bool := !y.fuel.pumps.isEmpty

/-- The account set afresh (R135). -/
def setStock (f : Fuel) (v : Nat) (e : Env) (y : Yard) : Yard :=
  checkLow e f { y with fuel := y.fuel.setAccount f { stock := v, setTotal := v } }

/-- SET STOCK (R135). -/
def cmdSetStock (f : Fuel) (v : Nat) (s : State) : Reply :=
  if s.yard.hasFuel && decide (f ≠ .noFuel) && decide (v ≤ Config.maxStock) then .ok (s.inYard (setStock f v))
  else .no .range

/-- DELIVERY's effect on an account (R134). -/
def deliver (f : Fuel) (v : Nat) (e : Env) (y : Yard) : Yard :=
  let a := y.fuel.account f
  { y with fuel := y.fuel.setAccount f { a with
      stock := a.stock + v
      setTotal := a.setTotal + v
      lowReported := a.lowReported && decide (a.stock + v < e.layout.islandCfg.reserve f) } }

/-- DELIVERY (R134). -/
def cmdDelivery (f : Fuel) (v : Nat) (s : State) : Reply :=
  let a := s.yard.fuel.account f
  if s.yard.hasFuel && decide (f ≠ .noFuel) && within 1 Config.maxStock v && decide (a.stock + v ≤ Config.maxStock)
      && decide (a.setTotal + v ≤ Config.maxStock)
  then .ok (s.inYard (deliver f v))
  else .no .range

/-! ## Duties -/

/-- A duty's place in list order: by release, then by number (R170). -/
def Duty.order (d : Duty) : Nat := d.release * 10000 + d.number

/-- The duty of a LOAD DUTY (R172). -/
def DutyFields.duty (f : DutyFields) (e : Env) : Duty where
  number := f.number
  release := f.release
  mask := f.mask
  fuel := f.fuel
  minLevel := f.minLevel.getD e.layout.gateCfg.defaultMin
  state := if f.fleet.isSome then .pinned else .unpinned

/-- LOAD DUTY's effect (R172, R174). -/
def loadDuty (f : DutyFields) (e : Env) (y : Yard) : Yard :=
  let d := f.duty e
  let y := { y with gate.duties := insertBy Duty.order d y.gate.duties }
  let y := match f.fleet with
    | none => y
    | some g =>
      let y := pinRec g d (pair d.number g y)
      if e.running then sendRepin e g y else y
  if e.running then settle e (callIfDue e f.number y) else y

/-- The fields of a LOAD DUTY lie in their ranges (R170, R172). -/
def DutyFields.ok (f : DutyFields) (now : Nat) : Bool :=
  dutyOk f.number && minuteOk f.release && decide (f.mask ≠ 0) && f.minLevel.all (· ≤ 100) && f.fleet.all fleetOk
    && decide (slackTo now f.release ≠ 0)

/-- LOAD DUTY (R172). -/
def cmdLoadDuty (f : DutyFields) (s : State) : Reply :=
  let y := s.yard
  if s.layout.gate.isNone || !f.ok s.clock.minute then .no .range
  else if (y.duty? f.number).isSome || f.fleet.any (fun g => (y.pairedDuty g).isSome) then .no .duplicate
  else if f.fleet.any (fun g => y.heldAt g .outbound .gate) then .no .conflict
  else if Config.dutyCap ≤ y.gate.duties.length then .no .full
  else .ok (s.inYard (loadDuty f))

/-- DROP DUTY of an OPEN or PINNED duty (R173). -/
def dropDuty (n : Nat) (e : Env) (y : Yard) : Yard :=
  match y.pinnedFleet n with
  | some f => unpinFleet e f (unpair n (removeDuty n y))
  | none => removeDuty n y

/-- DROP DUTY (R173). -/
def cmdDropDuty (n : Nat) (s : State) : Reply :=
  if s.layout.gate.isNone || !dutyOk n then .no .range
  else
    match s.yard.duty? n with
    | none => .no .unknown
    | some d =>
      match d.state with
      | .unpinned | .pinned => .ok (s.inYard (dropDuty n))
      | _ => .no .conflict

/-! ## Lanes, pumps, wash lanes -/

/-- CLOSE LANE and OPEN LANE (R109). -/
def setClosed (lane : Nat) (b : Bool) (s : State) : Reply :=
  match s.yard.lane? lane with
  | none => .no .range
  | some _ => .ok { s with yard := onLane lane (fun l => { l with closed := b }) s.yard }

def cmdCloseLane (lane : Nat) (s : State) : Reply := setClosed lane true s
def cmdOpenLane (lane : Nat) (s : State) : Reply := setClosed lane false s

/-- REOPEN PUMP (R136). -/
def cmdReopenPump (p : Nat) (s : State) : Reply :=
  match s.yard.pump? p with
  | none => .no .range
  | some q => if q.state = .out then .ok (s.inYard fun e y => reopenPump e p y) else .ok s

/-- REOPEN WASH (R155). -/
def cmdReopenWash (w : Nat) (s : State) : Reply :=
  match s.yard.washLane? w with
  | none => .no .range
  | some l =>
    match l.state with
    | .out => if l.current.isSome || s.yard.faultSeen w then .no .conflict
              else .ok (s.inYard fun e y => freeWash e w y)
    | .draining => .ok (s.inYard fun e y => freeWash e w y)
    | _ => .ok s

/-! ## ADMIT and RESOLVE -/

/-- ADMIT's effect (R166). -/
def admitBus (b : BusFields) (e : Env) (y : Yard) : Yard :=
  settle e (crossRead e { y with gate.fifo := y.gate.fifo ++ [⟨b, true⟩] })

/-- ADMIT (R166). -/
def cmdAdmit (b : BusFields) (s : State) : Reply :=
  let y := s.yard
  if s.layout.gate.isNone || !b.ok then .no .range
  else if (y.rec? b.fleet).isSome || y.gate.fifo.any (·.bus.fleet == b.fleet) then .no .duplicate
  else if Config.fifoCap ≤ y.gate.fifo.length then .no .full
  else .ok (s.inYard (admitBus b))

/-- The record a RESOLVE names, or the reason to refuse it (R198). -/
def resolvable (fleet : Nat) (y : Yard) : Except HostResult Record :=
  if fleetOk fleet then
    match y.rec? fleet with
    | none => .error .unknown
    | some r => if r.state = .stray ∨ r.state = .adrift then .ok r else .error .conflict
  else .error .range

/-- RESOLVE AT POINT GATE_IN (R185). -/
def resolveGateIn (fleet : Nat) (e : Env) (y : Yard) : Yard :=
  settle e (nextStep fleet (placeRec fleet .arrived .gate y))

/-- RESOLVE AT POINT GATE_OUT and RESOLVE LEFT YARD (R185, R200). -/
def resolveGone (fleet : Nat) (e : Env) (y : Yard) : Yard := settle e (removeRec fleet y)

/-- RESOLVE AT POINT APRON_IN (R137). -/
def resolveApron (r : Record) (e : Env) (y : Yard) : Yard := settle e (lookForHeads e (enqueueApron e r y))

/-- RESOLVE AT POINT WASH_IN of lane w, its expectation pushed (R156). -/
def resolveWash (w fleet : Nat) (e : Env) (y : Yard) : Yard :=
  settle e (washCall e w (placeRec fleet .expected (.wash w) (joinWash w fleet 0 y)))

/-- RESOLVE AT POINT LANE_IN of lane l (R111). -/
def resolveLane (l fleet : Nat) (e : Env) (y : Yard) : Yard :=
  onPositions e l (· ++ [⟨fleet, .parked⟩])
    (onRec fleet (fun r => { r with state := .parked, loc := .lane l, bus.itinerary := [] }) y)

/-- The owner's handling of a record entered at its point (R111, R137, R156, R185, R199). -/
def resolveAt (r : Record) (k : PointKind) (i : Nat) (s : State) : Reply :=
  let f := r.bus.fleet
  let y := s.yard
  match k with
  | .gateIn => .ok (s.inYard (resolveGateIn f))
  | .gateOut => .ok (s.inYard (resolveGone f))
  | .apronIn =>
    if r.bus.itinerary.head? ≠ some .fuel ∨ y.served r.bus.fuel = false then .no .conflict
    else if apronRoom s.env y then .ok (s.inYard (resolveApron r))
    else .no .full
  | .washIn =>
    match y.washLane? i with
    | none => .no .range
    | some l =>
      if r.bus.itinerary.head? ≠ some .wash ∨ l.state = .out ∨ l.cfg.joinProg r.bus.wash = .noWash then .no .conflict
      else if l.room then
        match pushExpect s.env .washIn i f false y with
        | some y => .ok ({ s with yard := y }.inYard (resolveWash i f))
        | none => .no .full
      else .no .full
  | .laneIn =>
    match y.lane? i with
    | none => .no .range
    | some l =>
      if l.room then
        if y.hasLeaving f then .no .conflict else .ok (s.inYard (resolveLane i f))
      else .no .full
  | .bay | .washOut | .laneOut => .no .conflict

/-- RESOLVE with AT POINT (R198, R199). -/
def cmdResolveAtPoint (fleet : Nat) (k : PointKind) (i : Nat) (s : State) : Reply :=
  match resolvable fleet s.yard with
  | .error r => .no r
  | .ok r => if (s.yard.point? k i).isSome then resolveAt r k i s else .no .range

/-- RESOLVE with RESEEK (R200). -/
def resolveReseek (fleet : Nat) (e : Env) (y : Yard) : Yard :=
  settle e (nextStep fleet (placeRec fleet .served .nowhere y))

def cmdResolveReseek (fleet : Nat) (s : State) : Reply :=
  match resolvable fleet s.yard with
  | .error r => .no r
  | .ok _ => .ok (s.inYard (resolveReseek fleet))

/-- RESOLVE with LEFT YARD (R200). -/
def cmdResolveLeftYard (fleet : Nat) (s : State) : Reply :=
  match resolvable fleet s.yard with
  | .error r => .no r
  | .ok _ => .ok (s.inYard (resolveGone fleet))

/-! ## Flags and reset -/

/-- CLEAR FLAGS (R218). -/
def cmdClearFlags (f : ClearFields) (s : State) : Reply :=
  .ok { s with
    yard := clearYard f s.yard
    host := { s.host with discarded := if f.station then 0 else s.host.discarded } }

/-- RESET is answered DONE; the reset follows the last byte of that answer (R223). -/
def cmdReset (s : State) : Reply := .ok { s with host := { s.host with resetPending := true } }

/-! ## The meanings -/

def execSetClock (minute seconds : Nat) (s : State) : Host.Outcome State Fault Refusal :=
  .next (s.hostRow (.setClock minute seconds) 10 (cmdSetClock minute seconds))

def execPlaceParked (lane : Nat) (bus : BusFields) (s : State) : Host.Outcome State Fault Refusal :=
  .next (s.hostRow (.placeParked lane bus) 11 (cmdPlaceParked lane bus))

def execSetStock (fuel : Fuel) (value : Nat) (s : State) : Host.Outcome State Fault Refusal :=
  .next (s.hostRow (.setStock fuel value) 12 (cmdSetStock fuel value))

def execLoadDuty (f : DutyFields) (s : State) : Host.Outcome State Fault Refusal :=
  .next (s.hostRow (.loadDuty f) 13 (cmdLoadDuty f))

def execDropDuty (duty : Nat) (s : State) : Host.Outcome State Fault Refusal :=
  .next (s.hostRow (.dropDuty duty) 15 (cmdDropDuty duty))

def execDelivery (fuel : Fuel) (amount : Nat) (s : State) : Host.Outcome State Fault Refusal :=
  .next (s.hostRow (.delivery fuel amount) 16 (cmdDelivery fuel amount))

def execCloseLane (lane : Nat) (s : State) : Host.Outcome State Fault Refusal :=
  .next (s.hostRow (.closeLane lane) 17 (cmdCloseLane lane))

def execOpenLane (lane : Nat) (s : State) : Host.Outcome State Fault Refusal :=
  .next (s.hostRow (.openLane lane) 18 (cmdOpenLane lane))

def execReopenPump (pump : Nat) (s : State) : Host.Outcome State Fault Refusal :=
  .next (s.hostRow (.reopenPump pump) 19 (cmdReopenPump pump))

def execReopenWash (wash : Nat) (s : State) : Host.Outcome State Fault Refusal :=
  .next (s.hostRow (.reopenWash wash) 20 (cmdReopenWash wash))

def execAdmitBus (bus : BusFields) (s : State) : Host.Outcome State Fault Refusal :=
  .next (s.hostRow (.admitBus bus) 21 (cmdAdmit bus))

def execResolveAtPoint (fleet : Nat) (kind : PointKind) (index : Nat) (s : State) : Host.Outcome State Fault Refusal :=
  .next (s.hostRow (.resolveAtPoint fleet kind index) 22 (cmdResolveAtPoint fleet kind index))

def execResolveReseek (fleet : Nat) (s : State) : Host.Outcome State Fault Refusal :=
  .next (s.hostRow (.resolveReseek fleet) 22 (cmdResolveReseek fleet))

def execResolveLeftYard (fleet : Nat) (s : State) : Host.Outcome State Fault Refusal :=
  .next (s.hostRow (.resolveLeftYard fleet) 22 (cmdResolveLeftYard fleet))

def execClearFlags (f : ClearFields) (s : State) : Host.Outcome State Fault Refusal :=
  .next (s.hostRow (.clearFlags f) 24 (cmdClearFlags f))

def execReset (s : State) : Host.Outcome State Fault Refusal := .next (s.hostRow .reset 26 cmdReset)

end Sys2Proof.Machine
end

