-- ==== Sys2Proof/Machine/Reads.lean ====
section
/-! DEFINITION. The reads and TAKE NOTICE (R21, R40, R74, R112, R138, R157, R184, R217, R219 to R221): what they return,
in the byte encoding of R207 (log 12). -/

namespace Sys2Proof.Machine

/-! ## Fields of several forms -/

/-- A record's location: GATE, APRON, PUMP p, WASH w, LANE l, NONE (R1, R207). -/
def Loc.bytes : Loc → List Byte
  | .gate => b1 0
  | .apron => b1 1
  | .pump p => b1 2 ++ b1 p
  | .wash w => b1 3 ++ b1 w
  | .lane l => b1 4 ++ b1 l
  | .nowhere => b1 5

/-- A notice's resource, in the order of R219. -/
def NoticeRes.bytes : NoticeRes → List Byte
  | .lane l => b1 0 ++ b1 l
  | .pump p => b1 1 ++ b1 p
  | .wash w => b1 2 ++ b1 w
  | .apron => b1 3
  | .gateEntry => b1 4
  | .gateExit => b1 5
  | .point k i => b1 6 ++ b1 k.code ++ b1 i
  | .fuel f => b1 7 ++ b1 f.code
  | .service s => b1 8 ++ b1 s.code

/-- An offer entry's resource: lane, apron with fuel type, wash lane (R56). -/
def Resource.bytes : Resource → List Byte
  | .lane l => b1 0 ++ b1 l
  | .apron f => b1 1 ++ b1 f.code
  | .wash w => b1 2 ++ b1 w

def SeekRef.bytes (r : SeekRef) : List Byte := b1 r.station ++ b1 r.number

/-- The kind of a reservation: HELD, COMMITTED. -/
def kindBytes (committed : Bool) : List Byte := b1 (if committed then 1 else 0)

/-- A mapped point that belongs to a resource's layout fields: its contact, row and column (R190, log 43). -/
def Yard.pointBytes (y : Yard) (k : PointKind) (i : Nat) : List Byte :=
  match y.point? k i with
  | some p => b1 p.cfg.row ++ b1 p.cfg.col
  | none => []

/-! ## RECORD (R21) -/

def Record.bytes (r : Record) : List Byte :=
  let b := r.bus
  b2 b.fleet ++ b1 b.cls ++ b1 b.fuel.code ++ b2 b.capacity ++ b1 b.level ++ b1 b.fuelMark.code ++ b1 b.wash.code
    ++ b1 b.washMark.code ++ encOpt b2 (b.pin.map (·.duty)) ++ encOpt b2 (b.pin.map (·.release))
    ++ encList (fun s => b1 s.code) b.itinerary ++ b2 b.arrival ++ b1 r.state.code ++ r.loc.bytes
    ++ encYesNo r.state.confirmed

def cmdReadRecord (fleet : Nat) (s : State) : Reply :=
  if fleetOk fleet then
    match s.yard.rec? fleet with
    | some r => .done s r.bytes
    | none => .no .unknown
  else .no .range

/-! ## LANE (R112) -/

def PosState.code : PosState → Nat
  | .parked => 0 | .calledOut => 1 | .leaving _ => 2

def LaneState.code : LaneState → Nat
  | .opened => 0 | .suspended => 1 | .closed => 2

/-- The release READ reports for a position (R112). -/
def Position.shownRelease (y : Yard) (p : Position) : Option Nat :=
  match p.state with
  | .leaving r => r
  | _ => y.releaseOf p.fleet

/-- A lane's layout fields in the order of R92's table. -/
def LaneCfg.bytes (y : Yard) (c : LaneCfg) : List Byte :=
  b1 c.number ++ b1 c.depth ++ b1 c.mask.toNat ++ b1 c.area ++ b1 c.bias ++ y.pointBytes .laneIn c.number
    ++ y.pointBytes .laneOut c.number

def Lane.bytes (y : Yard) (l : Lane) : List Byte :=
  l.cfg.bytes y ++ encYesNo l.closed ++ encYesNo l.blocked ++ b1 l.state.code ++ b1 l.light
    ++ encList (fun p => b2 p.fleet ++ b1 p.state.code ++ encOpt b2 (p.shownRelease y)) l.positions
    ++ encList (fun r => kindBytes r.committed ++ r.ref.bytes ++ b2 r.fleet ++ encOpt b2 r.release) l.reservs

def cmdReadLane (lane : Nat) (s : State) : Reply :=
  match s.yard.lane? lane with
  | some l => .done s (l.bytes s.yard)
  | none => .no .range

/-! ## APRON (R138) -/

def PumpState.code : PumpState → Nat
  | .free => 0 | .calling => 1 | .occupied => 2 | .fuelling => 3 | .finished => 4 | .out => 5

/-- The island's layout values in the order of R114's table. -/
def IslandCfg.bytes (y : Yard) (c : IslandCfg) : List Byte :=
  b1 c.capacity ++ y.pointBytes .apronIn 0 ++ b1 c.area ++ b1 c.bias ++ b4 c.reserveDiesel ++ b4 c.reserveGas
    ++ b1 c.horizon ++ b2 c.minFill ++ b1 c.levelStep ++ b1 c.aging ++ b1 c.callTimeout ++ b1 c.maxSkips ++ b2 c.noFlow

def Stock.bytes (a : Stock) : List Byte :=
  b4 a.stock ++ b4 a.setTotal ++ b4 a.dispensed ++ encFlag a.short ++ encFlag a.lowReported

/-- A turn, its seconds since the call in whole seconds (R138). The spec gives them no range; 4 bytes hold any that
occurs (log 44). -/
def Turn.bytes (t : Turn) : List Byte :=
  b2 t.fleet ++ b1 t.level ++ b1 t.skips ++ b2 t.target ++ b4 (t.sinceCall / 1000) ++ b3 t.pulses ++ b4 t.dispensed

/-- A pump: its layout fields in the order of R115's table, then what it shows (R138). The call sign is sent as its value
code of R201 in 2 bytes, 0 for blank (log 47). The running call or no-flow timer is an optional field of the pump beside
its optional turn, so a pump with no turn sends two bytes 0 (DEDUCED, log 51). -/
def Pump.bytes (y : Yard) (p : Pump) : List Byte :=
  b1 p.cfg.index ++ b1 p.cfg.fuel.code ++ b2 p.cfg.pulses ++ b2 p.cfg.rate ++ b2 p.cfg.maxTurn
    ++ y.pointBytes .bay p.cfg.index ++ b1 p.state.code ++ b2 p.callSign ++ encFlag p.enable
    ++ encOpt Turn.bytes p.turn ++ encOpt b4 p.timer

def apronBytes (e : Env) (y : Yard) : List Byte :=
  let u := y.fuel
  e.layout.islandCfg.bytes y ++ u.diesel.bytes ++ u.gas.bytes
    ++ encList (fun x => b2 x.fleet ++ b1 x.fuel.code ++ b1 x.level ++ b1 x.skips ++ b2 x.target) u.queue
    ++ encList (fun x => kindBytes x.committed ++ x.ref.bytes ++ b2 x.fleet ++ b1 x.fuel.code) u.reservs
    ++ b1 y.apronOccupancy ++ encList (Pump.bytes y) u.pumps

def cmdReadApron (s : State) : Reply :=
  if s.yard.hasFuel then .done s (apronBytes s.env s.yard) else .no .range

/-! ## WASH QUEUE (R157) -/

def WashState.code : WashState → Nat
  | .free => 0 | .calling => 1 | .loading => 2 | .starting => 3 | .washing => 4 | .draining => 5 | .out => 6

/-- A wash lane's layout fields in the order of R140's table. -/
def WashCfg.bytes (y : Yard) (c : WashCfg) : List Byte :=
  b1 c.index ++ b1 c.area ++ b1 c.bias ++ b1 c.enabled.toNat ++ b1 c.nomRinse ++ b1 c.nomStandard ++ b1 c.nomFull
    ++ b1 c.alpha ++ b1 c.margin ++ b1 c.startTimeout ++ b1 c.callTimeout ++ b1 c.maxSkips ++ b1 c.depth
    ++ y.pointBytes .washIn c.index ++ y.pointBytes .washOut c.index

/-- An entry of a wash queue (R142). R142 lists its programmes as RINSE, STANDARD, FULL and 5.4 of the scope file lists
NONE before them; that the programme is sent as its position in the list of four, RINSE as 1, is the model's choice
(log 61). -/
def WashEntry.bytes (x : WashEntry) : List Byte := b2 x.fleet ++ b1 x.prog.code ++ b1 x.skips

/-- The called entry, reported when CALLING (R157). -/
def WashLane.shownCall (l : WashLane) : Option WashEntry := if l.state = .calling then l.called else none

/-- A wash lane (R157). The entry sign is sent as its value code of R201 in 2 bytes, 0 for blank (log 47). The spec gives
the wash seconds no range; 4 bytes hold any that occur (log 44). The called entry and its call timer's time left stand
together behind one presence byte (DEDUCED, log 52). -/
def WashLane.bytes (y : Yard) (l : WashLane) : List Byte :=
  l.cfg.bytes y ++ b2 l.estRinse ++ b2 l.estStandard ++ b2 l.estFull ++ b1 l.state.code ++ encOpt b2 l.current
    ++ encFlag l.startOut ++ b1 l.progLines ++ b2 l.entrySign
    ++ encOpt (fun x => x.bytes ++ b4 (l.timer.getD 0)) l.shownCall
    ++ encOpt b4 (if l.state = .starting then l.timer else none)
    ++ encOpt b4 (if l.state = .washing then some (l.washMs / 1000) else none)
    ++ encList WashEntry.bytes l.queue ++ encList (fun r => r.ref.bytes ++ b2 r.fleet) l.reservs

def cmdReadWashQueue (w : Nat) (s : State) : Reply :=
  match s.yard.washLane? w with
  | some l => .done s (l.bytes s.yard)
  | none => .no .range

/-! ## DUTY and DUTIES (R184) -/

def DutyState.code : DutyState → Nat
  | .unpinned => 0 | .pinned => 1 | .calling .. => 2 | .outbound _ => 3

def DutyState.served : DutyState → Option Nat
  | .outbound f => some f
  | _ => none

def SeekState.code : SeekState → Nat
  | .queued => 0 | .opened => 1 | .handing _ => 2 | .awaiting => 3 | .waitRetry => 4

/-- Call pending and grace over are fields of a CALLING duty alone (R170); the model sends each as an optional field,
present in CALLING (log 12). -/
def DutyState.flags : DutyState → List Byte
  | .calling p g => b1 1 ++ encYesNo p ++ b1 1 ++ encYesNo g
  | _ => b1 0 ++ b1 0

/-- A duty (R184). The seek number and the state of its seek entry stand together behind one presence byte (DEDUCED,
log 54). -/
def Duty.bytes (y : Yard) (d : Duty) : List Byte :=
  b2 d.number ++ b2 d.release ++ b1 d.mask.toNat ++ b1 d.fuel.code ++ b1 d.minLevel ++ b1 d.state.code ++ d.state.flags
    ++ encOpt b2 d.state.served ++ encOpt b2 (y.pinnedFleet d.number)
    ++ encOpt (fun en => b1 en.number ++ b1 en.state.code) (y.dutySeek? d.number)

/-- One line of READ of the duties. -/
def Duty.short (y : Yard) (d : Duty) : List Byte :=
  b2 d.number ++ b2 d.release ++ b1 d.state.code ++ encOpt b2 (y.pinnedFleet d.number) ++ encOpt b2 d.state.served

def cmdReadDuty (n : Nat) (s : State) : Reply :=
  if s.layout.gate.isNone || !dutyOk n then .no .range
  else
    match s.yard.duty? n with
    | some d => .done s (d.bytes s.yard)
    | none => .no .unknown

def cmdReadDuties (s : State) : Reply :=
  if s.layout.gate.isNone then .no .range else .done s (encLong (Duty.short s.yard) s.yard.gate.duties)

/-! ## SEEK TABLE (R74) -/

/-- Service, direction and subject of a seek entry (R50). The direction tells a fleet from a duty, and the model sends the
subject as 2 bytes with no form byte of its own (log 48). -/
def Subject.bytes : Subject → List Byte
  | .bus f s => b1 s.code ++ b1 0 ++ b2 f
  | .duty d => b1 3 ++ b1 1 ++ b2 d

/-- A seek entry: number, service, direction, subject, exclusion list, state, attempts, winner, offered fleet, reported,
and the running timer (R50, R74). -/
def SeekEntry.bytes (x : SeekEntry) : List Byte :=
  b1 x.number ++ x.subject.bytes ++ encList b1 x.excl ++ b1 x.state.code ++ b1 x.attempts
    ++ encOpt (fun w => b1 w.station ++ b2 w.cost ++ b1 w.area) x.winner ++ encOpt b2 x.offered
    ++ encYesNo x.reported ++ encOpt b4 x.timer

def OfferState.code : OfferState → Nat
  | .held => 0 | .sending => 1 | .paused => 2

/-- An offer entry (R56, R74). R56 gives attempts to EXIT entries; the model sends the byte for every entry, 0 in HELD
(log 12). R56's table names the hold timer alone; the answer timer or the pause of an EXIT entry, which R74 has reported
too, is sent in its place, as one optional field (DEDUCED, log 50). -/
def OfferEntry.bytes (o : OfferEntry) : List Byte :=
  o.ref.bytes ++ b1 o.service.code ++ b2 o.fleet ++ o.resource.bytes ++ b2 o.cost ++ b1 o.state.code
    ++ encOpt b4 o.timer ++ b1 o.attempts

/-- READ of the seek table (R74). Of seek entries (R50) and of offer entries (R56) the spec gives no order; that each kind
is listed in the order in which its entries were given out or won, the oldest first, and not by its key, is the model's
choice (log 58). -/
def cmdReadSeekTable (s : State) : Reply :=
  .done s (encList SeekEntry.bytes s.yard.seek.table ++ encList OfferEntry.bytes s.yard.seek.offers)

/-! ## COUNTERS, LINE SUMMARY, STATUS (R40, R217) -/

def LineCounters.bytes (c : LineCounters) : List Byte :=
  b2 c.sent ++ b2 c.received ++ b1 c.rxLost ++ b2 c.crcBad ++ b2 c.malformed ++ b2 c.txDamaged ++ b2 c.txDropped
    ++ b2 c.offerUnsent ++ b2 c.timeAdopted

def countersBytes (s : State) : List Byte :=
  let y := s.yard
  y.line.cnt.bytes ++ b1 y.records.length ++ b1 y.gate.fifo.length ++ encFlag y.saturated ++ b2 y.cnt.stale
    ++ b2 y.cnt.emptyClears ++ b2 y.cnt.nozzleIgnored ++ b2 y.cnt.tagBad ++ b2 y.cnt.dupTags ++ b2 y.cnt.pollFailed
    ++ b2 s.host.discarded ++ b1 y.lost

def cmdReadCounters (s : State) : Reply := .done s (countersBytes s)

/-- The five flags as a set (R40, R207). The spec gives a set no bit order; that bit k stands for the flag at position k
of R40's table, POOL_FULL at bit 0, is the model's choice (log 59). -/
def LineFlags.mask (f : LineFlags) : Nat :=
  f.poolFull.toNat + 2 * f.txFail.toNat + 4 * f.rxMalformed.toNat + 8 * f.noTaker.toNat + 16 * f.unrelated.toNat

def cmdReadLineSummary (s : State) : Reply := .done s (b1 s.yard.line.flags.mask)

def Phase.code : Phase → Nat
  | .config => 0 | .locked => 1 | .running => 2

/-- The NOTICE output (R220). -/
def Yard.noticeOut (y : Yard) : Bool := !y.notices.isEmpty

/-- READ STATUS (R217). The station number and the areas, absent before LOCK, stand together behind one presence byte, and
the one or two areas are sent as a list with its length (DEDUCED, log 55). -/
def statusBytes (s : State) : List Byte :=
  b1 s.phase.code
    ++ encOpt (fun c => b1 c.number ++ encList b1 (c.area1 :: c.area2.toList)) s.layout.station
    ++ b2 s.clock.minute ++ b1 s.clock.seconds ++ encFlag s.clock.valid ++ b1 s.yard.notices.length ++ b1 s.yard.lost
    ++ encFlag s.yard.noticeOut

def cmdReadStatus (s : State) : Reply := .done s (statusBytes s)

/-! ## TAKE NOTICE (R221) -/

/-- A notice (R219); the model sends the detail as a list of 0 to 2 values of 4 bytes each (log 12). -/
def Notice.bytes (n : Notice) : List Byte :=
  b1 n.kind.code ++ b2 n.minute ++ encOpt b2 n.fleet ++ encOpt NoticeRes.bytes n.resource ++ encList b4 n.detail

/-- TAKE NOTICE (R221). The notice stands first, with no presence byte before it, and an empty queue answers the two
numbers alone: that is the model's choice (log 60). -/
def cmdTakeNotice (s : State) : Reply :=
  match s.yard.notices with
  | [] => .done s (b1 0 ++ b1 s.yard.lost)
  | n :: rest => .done { s with yard := { s.yard with notices := rest } } (n.bytes ++ b1 rest.length ++ b1 s.yard.lost)

/-! ## The meanings -/

def execReadRecord (fleet : Nat) (s : State) : Host.Outcome State Fault Refusal :=
  .next (s.hostRow (.readRecord fleet) 23 (cmdReadRecord fleet))

def execReadLane (lane : Nat) (s : State) : Host.Outcome State Fault Refusal :=
  .next (s.hostRow (.readLane lane) 23 (cmdReadLane lane))

def execReadApron (s : State) : Host.Outcome State Fault Refusal := .next (s.hostRow .readApron 23 cmdReadApron)

def execReadWashQueue (wash : Nat) (s : State) : Host.Outcome State Fault Refusal :=
  .next (s.hostRow (.readWashQueue wash) 23 (cmdReadWashQueue wash))

def execReadDuty (duty : Nat) (s : State) : Host.Outcome State Fault Refusal :=
  .next (s.hostRow (.readDuty duty) 23 (cmdReadDuty duty))

def execReadDuties (s : State) : Host.Outcome State Fault Refusal := .next (s.hostRow .readDuties 23 cmdReadDuties)

def execReadSeekTable (s : State) : Host.Outcome State Fault Refusal :=
  .next (s.hostRow .readSeekTable 23 cmdReadSeekTable)

def execReadCounters (s : State) : Host.Outcome State Fault Refusal :=
  .next (s.hostRow .readCounters 23 cmdReadCounters)

def execReadLineSummary (s : State) : Host.Outcome State Fault Refusal :=
  .next (s.hostRow .readLineSummary 23 cmdReadLineSummary)

def execReadStatus (s : State) : Host.Outcome State Fault Refusal := .next (s.hostRow .readStatus 23 cmdReadStatus)

def execTakeNotice (s : State) : Host.Outcome State Fault Refusal := .next (s.hostRow .takeNotice 25 cmdTakeNotice)

end Sys2Proof.Machine
end

