-- ==== Sys2Proof/Machine/Link.lean ====
section
/-! DEFINITION. The host link's receiver (R207 to R209): bytes into records, records into commands, the end of an answer,
and the reset events (R222, R223). -/

namespace Sys2Proof.Machine

/-! ## The fields of the commands, in the order their rules name them (R207, log 10) -/

def fStation : Reader StationFields := fun bs => do
  let (number, bs) ← readSome (readNum 1) bs
  let (area1, bs) ← readSome (readNum 1) bs
  let (area2, bs) ← readOpt (readNum 1) bs
  let (rate, bs) ← readSome (readCode lineRateOf) bs
  let (seekFuel, bs) ← readOpt (readNum 1) bs
  let (seekWash, bs) ← readOpt (readNum 1) bs
  let (seekBerth, bs) ← readOpt (readNum 1) bs
  let (seekExit, bs) ← readOpt (readNum 1) bs
  some (⟨number, area1, area2, rate, seekFuel, seekWash, seekBerth, seekExit⟩, bs)

def fLane : Reader LaneFields := fun bs => do
  let (number, bs) ← readSome (readNum 1) bs
  let (depth, bs) ← readSome (readNum 1) bs
  let (mask, bs) ← readSome (readMask 8) bs
  let (area, bs) ← readSome (readNum 1) bs
  let (bias, bs) ← readOpt (readNum 1) bs
  some (⟨number, depth, mask, area, bias⟩, bs)

def fPump : Reader PumpFields := fun bs => do
  let (index, bs) ← readSome (readNum 1) bs
  let (fuel, bs) ← readSome (readCode fuelOf) bs
  let (pulses, bs) ← readSome (readNum 2) bs
  let (rate, bs) ← readSome (readNum 2) bs
  let (maxTurn, bs) ← readOpt (readNum 2) bs
  some (⟨index, fuel, pulses, rate, maxTurn⟩, bs)

def fIsland : Reader IslandFields := fun bs => do
  let (capacity, bs) ← readSome (readNum 1) bs
  let (area, bs) ← readSome (readNum 1) bs
  let (bias, bs) ← readOpt (readNum 1) bs
  let (reserveDiesel, bs) ← readOpt (readNum 4) bs
  let (reserveGas, bs) ← readOpt (readNum 4) bs
  let (horizon, bs) ← readOpt (readNum 1) bs
  let (minFill, bs) ← readOpt (readNum 2) bs
  let (levelStep, bs) ← readOpt (readNum 1) bs
  let (aging, bs) ← readOpt (readNum 1) bs
  let (callTimeout, bs) ← readOpt (readNum 1) bs
  let (maxSkips, bs) ← readOpt (readNum 1) bs
  let (noFlow, bs) ← readOpt (readNum 2) bs
  some (⟨capacity, area, bias, reserveDiesel, reserveGas, horizon, minFill, levelStep, aging, callTimeout, maxSkips,
    noFlow⟩, bs)

def fWash : Reader WashFields := fun bs => do
  let (index, bs) ← readSome (readNum 1) bs
  let (area, bs) ← readSome (readNum 1) bs
  let (bias, bs) ← readOpt (readNum 1) bs
  let (enabled, bs) ← readOpt (readMask 3) bs
  let (nomRinse, bs) ← readOpt (readNum 1) bs
  let (nomStandard, bs) ← readOpt (readNum 1) bs
  let (nomFull, bs) ← readOpt (readNum 1) bs
  let (alpha, bs) ← readOpt (readNum 1) bs
  let (margin, bs) ← readOpt (readNum 1) bs
  let (startTimeout, bs) ← readOpt (readNum 1) bs
  let (callTimeout, bs) ← readOpt (readNum 1) bs
  let (maxSkips, bs) ← readOpt (readNum 1) bs
  let (depth, bs) ← readSome (readNum 1) bs
  some (⟨index, area, bias, enabled, nomRinse, nomStandard, nomFull, alpha, margin, startTimeout, callTimeout,
    maxSkips, depth⟩, bs)

def fGate : Reader GateFields := fun bs => do
  let (reader, bs) ← readSome (readNum 1) bs
  let (poll, bs) ← readOpt (readNum 2) bs
  let (window, bs) ← readOpt (readNum 1) bs
  let (refuel, bs) ← readOpt (readNum 1) bs
  let (defaultMin, bs) ← readOpt (readNum 1) bs
  let (callLead, bs) ← readOpt (readNum 1) bs
  let (grace, bs) ← readOpt (readNum 1) bs
  some (⟨reader, poll, window, refuel, defaultMin, callLead, grace⟩, bs)

def fPoint : Reader PointFields := fun bs => do
  let (row, bs) ← readSome (readNum 1) bs
  let (col, bs) ← readSome (readNum 1) bs
  let (kind, bs) ← readSome (readCode pointKindOf) bs
  let (index, bs) ← readSome (readNum 1) bs
  let (dwell, bs) ← readOpt (readNum 2) bs
  let (repeats, bs) ← readOpt (readCode yesNoOf) bs
  some (⟨row, col, kind, index, dwell, repeats⟩, bs)

def fParam : Reader (Param × Nat) := fun bs => do
  let (p, bs) ← readCode paramOf bs
  let (v, bs) ← readNum (Sys2Proof.paramWidth p) bs
  some ((p, v), bs)

def fClock : Reader (Nat × Nat) := fun bs => do
  let (minute, bs) ← readNum 2 bs
  let (seconds, bs) ← readNum 1 bs
  some ((minute, seconds), bs)

def fBus : Reader BusFields := fun bs => do
  let (fleet, bs) ← readNum 2 bs
  let (cls, bs) ← readNum 1 bs
  let (fuel, bs) ← readCode fuelOf bs
  let (capacity, bs) ← readNum 2 bs
  let (level, bs) ← readNum 1 bs
  let (wash, bs) ← readCode progOf bs
  some (⟨fleet, cls, fuel, capacity, level, wash⟩, bs)

def fParked : Reader (Nat × BusFields) := fun bs => do
  let (lane, bs) ← readNum 1 bs
  let (bus, bs) ← fBus bs
  some ((lane, bus), bs)

/-- SET STOCK and DELIVERY: a fuel type and an amount of 4 bytes. -/
def fStock : Reader (Fuel × Nat) := fun bs => do
  let (fuel, bs) ← readCode fuelOf bs
  let (v, bs) ← readNum 4 bs
  some ((fuel, v), bs)

def fDuty : Reader DutyFields := fun bs => do
  let (number, bs) ← readNum 2 bs
  let (release, bs) ← readNum 2 bs
  let (mask, bs) ← readMask 8 bs
  let (fuel, bs) ← readCode fuelOf bs
  let (minLevel, bs) ← readOpt (readNum 1) bs
  let (fleet, bs) ← readOpt (readNum 2) bs
  some (⟨number, release, mask, fuel, minLevel, fleet⟩, bs)

def fClear : Reader ClearFields := fun bs => do
  let (flags, bs) ← readMask 5 bs
  let (line, bs) ← readCode yesNoOf bs
  let (station, bs) ← readCode yesNoOf bs
  let (cost, bs) ← readCode yesNoOf bs
  let (lost, bs) ← readCode yesNoOf bs
  some (⟨flags, line, station, cost, lost⟩, bs)

/-- The fields are read to their end and given to the block, else RANGE (R209, test 3). -/
def withFields (r : Reader α) (fields : List Byte) (f : α → State → Reply) (s : State) : Reply :=
  match readAll r fields with
  | some x => f x s
  | none => .no .range

/-- A command with no fields. -/
def noFields (fields : List Byte) (f : State → Reply) (s : State) : Reply :=
  match fields with
  | [] => f s
  | _ :: _ => .no .range

/-- RESOLVE (R198): the fleet, then the outcome AT POINT 0 with kind and index, RESEEK 1 or LEFT YARD 2. -/
def resolveFields (fields : List Byte) (s : State) : Reply :=
  match fields with
  | a :: b :: o :: rest =>
    let fleet := a.toNat * 256 + b.toNat
    match o.toNat with
    | 0 =>
      match rest with
      | [k, i] =>
        match pointKindOf k.toNat with
        | some k => cmdResolveAtPoint fleet k i.toNat s
        | none => .no .range
      | _ => .no .range
    | 1 => noFields rest (cmdResolveReseek fleet) s
    | 2 => noFields rest (cmdResolveLeftYard fleet) s
    | _ => .no .range
  | _ => .no .range

/-- READ (R217): the subject by its position in the table, then its key. -/
def readFields (fields : List Byte) (s : State) : Reply :=
  match fields with
  | subject :: key =>
    match subject.toNat with
    | 0 => withFields (readNum 2) key cmdReadRecord s
    | 1 => withFields (readNum 1) key cmdReadLane s
    | 2 => noFields key cmdReadApron s
    | 3 => withFields (readNum 1) key cmdReadWashQueue s
    | 4 => withFields (readNum 2) key cmdReadDuty s
    | 5 => noFields key cmdReadDuties s
    | 6 => noFields key cmdReadSeekTable s
    | 7 => noFields key cmdReadCounters s
    | 8 => noFields key cmdReadLineSummary s
    | 9 => noFields key cmdReadStatus s
    | _ => .no .range
  | [] => .no .range

/-- What a command code does with its fields (R210). -/
def commandOf (code : Nat) (fs : List Byte) : State → Reply :=
  match code with
  | 1 => withFields fStation fs cmdSetStation
  | 2 => withFields fLane fs cmdAddLane
  | 3 => withFields fPump fs cmdAddPump
  | 4 => withFields fIsland fs cmdSetIsland
  | 5 => withFields fWash fs cmdAddWash
  | 6 => withFields fGate fs cmdSetGate
  | 7 => withFields fPoint fs cmdMapPoint
  | 8 => withFields fParam fs fun x => cmdSetParameter x.1 x.2
  | 9 => noFields fs cmdLock
  | 10 => withFields fClock fs fun x => cmdSetClock x.1 x.2
  | 11 => withFields fParked fs fun x => cmdPlaceParked x.1 x.2
  | 12 => withFields fStock fs fun x => cmdSetStock x.1 x.2
  | 13 => withFields fDuty fs cmdLoadDuty
  | 14 => noFields fs cmdStart
  | 15 => withFields (readNum 2) fs cmdDropDuty
  | 16 => withFields fStock fs fun x => cmdDelivery x.1 x.2
  | 17 => withFields (readNum 1) fs cmdCloseLane
  | 18 => withFields (readNum 1) fs cmdOpenLane
  | 19 => withFields (readNum 1) fs cmdReopenPump
  | 20 => withFields (readNum 1) fs cmdReopenWash
  | 21 => withFields fBus fs cmdAdmit
  | 22 => resolveFields fs
  | 23 => readFields fs
  | 24 => withFields fClear fs cmdClearFlags
  | 25 => noFields fs cmdTakeNotice
  | 26 => noFields fs cmdReset
  | _ => fun _ => .no .unknown

/-- A code that names no command is answered UNKNOWN in every phase (R209, test 1). -/
def State.unknownCode (code : Nat) (s : State) : State :=
  if s.inReset || s.host.resetPending then s else s.answer code .unknown []

/-- A complete record, start byte first, is carried out, or waits for the answer that is being sent (R209). -/
def State.carryOut (record : List Byte) (s : State) : State :=
  if s.answering then s.wait record
  else
    match record.drop 3 with
    | [] => s
    | c :: rest =>
      if within 1 26 c.toNat then s.command c.toNat (commandOf c.toNat rest.dropLast) else s.unknownCode c.toNat

/-! ## The receiver (R208) -/

/-- The record in progress, or one just begun, is discarded and counted (R208). -/
def HostLink.discard (h : HostLink) : HostLink :=
  { h with inProgress := none, gapMs := 0, discarded := sat 65535 h.discarded }

/-- The length a record's length field gives, once both its bytes have been received. -/
def recordLength : List Byte → Option Nat
  | _ :: hi :: lo :: _ => some (hi.toNat * 256 + lo.toNat)
  | _ => none

/-- A byte joins the record in progress: the link after it and the record, if it is complete and its check is good. -/
def HostLink.join (bs : List Byte) (h : HostLink) : HostLink × Option (List Byte) :=
  match recordLength bs with
  | none => ({ h with inProgress := some bs, gapMs := 0 }, none)
  | some n =>
    if !within 1 250 n then (h.discard, none)
    else if bs.length < n + 4 then ({ h with inProgress := some bs, gapMs := 0 }, none)
    else if checkGood bs then ({ h with inProgress := none, gapMs := 0 }, some bs)
    else (h.discard, none)

/-- One byte at the receiver (R208, log 13). -/
def HostLink.receive (byte : Byte) (framingFault : Bool) (h : HostLink) : HostLink × Option (List Byte) :=
  match h.inProgress with
  | none =>
    if framingFault || byte != 0xC3#8 then (h, none)
    else if Config.rxBufCap ≤ h.used then (h.discard, none)
    else h.join [byte]
  | some bs =>
    if framingFault || decide (Config.rxBufCap ≤ h.used) then (h.discard, none) else h.join (bs ++ [byte])

/-- A byte on HOST_RXD: a record that it completes is carried out, or waits for the answer being sent (R209). -/
def State.hostByte (byte : Byte) (framingFault : Bool) (s : State) : State :=
  if s.inReset then s
  else
    let res := s.host.receive byte framingFault
    let s := { s with host := res.1 }
    match res.2 with
    | none => s
    | some record => s.carryOut record

/-- More than 10 ms pass between two bytes of a record (R208). -/
def State.byteTimeout (s : State) : State :=
  if s.inReset || s.host.inProgress.isNone then s else { s with host := s.host.discard }

/-- An answer has been sent to its last byte: after a RESET the station is reset (R223), else the oldest waiting record
is carried out (R209). -/
def State.answerSent (s : State) : State :=
  if s.inReset || s.host.answer.isNone then s
  else if s.host.resetPending then s.afterReset
  else
    let s := { s with host := { s.host with answer := none, txd := [] } }
    match s.host.waiting with
    | [] => s
    | record :: rest => State.carryOut record { s with host := { s.host with waiting := rest } }

/-! ## The meanings -/

def execUnknownCommandCode (code : Byte) (s : State) : Host.Outcome State Fault Refusal :=
  .next (if within 1 26 code.toNat then s else s.carryOut (hostRecord code.toNat []))

def execResetAfterAnswer (s : State) : Host.Outcome State Fault Refusal :=
  .next (if s.inReset || !s.host.resetPending then s else s.afterReset)

def execHostByteReceived (byte : Byte) (framingFault : Bool) (s : State) : Host.Outcome State Fault Refusal :=
  .next (s.hostByte byte framingFault)

def execHostInterbyteTimeout (s : State) : Host.Outcome State Fault Refusal := .next s.byteTimeout

def execHostAnswerSent (s : State) : Host.Outcome State Fault Refusal := .next s.answerSent

/-- RESET_N is driven low (R222): the station holds the reset state, and ignores its inputs until the pin is
released. -/
def execResetPinAsserted (s : State) : Host.Outcome State Fault Refusal :=
  .next { s.afterReset with pinLow := true }

/-- RESET_N is released (R222): every block takes its reset state. -/
def execResetPinReleased (s : State) : Host.Outcome State Fault Refusal :=
  .next (if s.pinLow then { s.afterReset with pinLow := false } else s)

/-- The supply reaches its working range (R222). -/
def execPowerUp (s : State) : Host.Outcome State Fault Refusal :=
  .next { s.afterReset with supplyLow := false }

end Sys2Proof.Machine
end

