-- ==== Sys2Proof/Machine/Ticks.lean ====
section
/-! DEFINITION. What happens on an empty queue of commands (log 1): the next due event goes into the queue, and when
none is due one millisecond of the crystal passes. -/

namespace Sys2Proof.Machine

/-! ## The frame the pool hands over next (R33) -/

/-- The command that hands a pooled frame over. -/
def Frame.handOver (f : Frame) : Instr :=
  match f.body with
  | .offer .. => .offerReceived
  | .answer .taken _ => .takenReceived
  | .answer .hold _ => .holdReceived
  | .answer .refuse _ => .refuseReceived
  | .claim _ => .claimReceived
  | .handover _ => .handoverReceived
  | .cancel _ => .cancelReceived
  | .seek .. => .seekReceived
  | .repin .. => .repinReceived
  | .time _ => .timeReceived

/-- A SEEK goes first, then the oldest frame (R33). -/
def duePool (y : Yard) : Option Instr :=
  if y.line.pool.any (·.body.isSeek) then some .seekReceived else y.line.head.map Frame.handOver

/-! ## Timers that have run out -/

/-- A timer that runs and has no time left. -/
def ranOut (t : Option Nat) : Bool := t == some 0

def SeekEntry.due (x : SeekEntry) : Option Instr :=
  if ranOut x.timer then
    match x.state with
    | .waitRetry => some (.retryTimerExpiry x.number)
    | .awaiting => some (.awaitingHoldExpiry x.number)
    | .handing .awaiting => some (.answerTimerExpiry (.push x.number))
    | .handing .pausing => some (.holdIntervalEnd (.push x.number))
    | _ => none
  else none

def OfferEntry.due (o : OfferEntry) : Option Instr :=
  if ranOut o.timer then
    match o.state with
    | .held => some (.offerHoldExpiry ⟨o.ref, o.fleet⟩)
    | .sending => some (.answerTimerExpiry (.exit o.ref o.fleet))
    | .paused => some (.holdIntervalEnd (.exit o.ref o.fleet))
  else none

def Pump.due (p : Pump) : Option Instr :=
  if ranOut p.timer then
    match p.state with
    | .calling => some (.pumpCallTimeout p.cfg.index)
    | .fuelling => some (.noFlowTimeout p.cfg.index)
    | _ => none
  else none

def WashLane.due (l : WashLane) : Option Instr :=
  if ranOut l.timer then
    match l.state with
    | .calling => some (.washCallTimeout l.cfg.index)
    | .starting => some (.startTimeout l.cfg.index)
    | _ => none
  else none

/-- The dwell timer of a point, then an expectation whose expiry has been reached. -/
def Point.due (now : Nat) (p : Point) : Option Instr :=
  if ranOut p.dwell then some (.dwellTimerExpiry p.cfg.row p.cfg.col)
  else
    (p.queue.find? fun x => match x.expiry with
      | some t => decide (t ≤ now)
      | none => false).map fun x => .travelTimeout x.fleet

/-- The oldest item of a cross-check list has stood there for the tag window (R167). -/
def windowOver (e : Env) (l : List Nat) : Bool :=
  match l with
  | t :: _ => decide (t + e.layout.gateCfg.window ≤ e.second)
  | [] => false

/-- The event of the yard that is due first (log 24). The poll timer is not among them: its event samples the lines of
the I2C port, so it comes from the queue. -/
def dueYard (e : Env) (y : Yard) : Option Instr :=
  duePool y
    <|> y.seek.table.findSome? SeekEntry.due
    <|> y.seek.offers.findSome? OfferEntry.due
    <|> y.fuel.pumps.findSome? Pump.due
    <|> (if ranOut y.fuel.aging then some .agingTimerExpiry else none)
    <|> y.wash.lanes.findSome? WashLane.due
    <|> (if windowOver e y.gate.reads then some (.tagWindowExpiry false) else none)
    <|> (if windowOver e y.gate.arrivals then some (.tagWindowExpiry true) else none)
    <|> y.points.findSome? (Point.due e.second)

/-- A second of the crystal has passed (R43). -/
def Clock.due (c : Clock) : Option Instr :=
  if c.valid && decide (1000 ≤ c.subMs) then some (if c.seconds < 59 then .secondsCount else .minuteRollover) else none

/-- More than 10 ms have passed since the last byte of the record in progress (R208). -/
def HostLink.due (h : HostLink) : Option Instr :=
  if h.inProgress.isSome && decide (10 < h.gapMs) then some .hostInterbyteTimeout else none

/-- The event that is due, if any; none in reset (R222). -/
def State.due (s : State) : Option Instr :=
  if s.inReset then none
  else s.clock.due <|> s.host.due <|> (if s.phase = .running then dueYard s.env s.yard else none)

/-! ## One millisecond -/

/-- A running timer falls by one millisecond. -/
def down (t : Option Nat) : Option Nat := t.map (· - 1)

def Pump.tick (p : Pump) : Pump :=
  { p with timer := down p.timer, turn := p.turn.map fun t => { t with sinceCall := t.sinceCall + 1 } }

def WashLane.tick (l : WashLane) : WashLane :=
  { l with timer := down l.timer, washMs := if l.state = .washing then l.washMs + 1 else l.washMs }

/-- Every timer of the yard counts one millisecond. -/
def Yard.tick (y : Yard) : Yard :=
  { y with
    seek.table := y.seek.table.map fun x => { x with timer := down x.timer }
    seek.offers := y.seek.offers.map fun o => { o with timer := down o.timer }
    fuel.pumps := y.fuel.pumps.map Pump.tick
    fuel.aging := down y.fuel.aging
    wash.lanes := y.wash.lanes.map WashLane.tick
    gate.pollTimer := down y.gate.pollTimer
    points := y.points.map fun p => { p with dwell := down p.dwell } }

/-- One millisecond of the crystal passes; nothing passes in reset. -/
def State.tick (s : State) : State :=
  if s.inReset then s
  else
    { s with
      crystalMs := s.crystalMs + 1
      clock := if s.clock.valid then { s.clock with subMs := s.clock.subMs + 1 } else s.clock
      host := if s.host.inProgress.isSome then { s.host with gapMs := s.host.gapMs + 1 } else s.host
      yard := s.yard.tick }

/-- What a step does on an empty queue (log 1). -/
def State.idle (s : State) : State :=
  match s.due with
  | some i => { s with pending := [i] }
  | none => s.tick

end Sys2Proof.Machine
end

