-- ==== Sys2Proof/Machine/Dispatch.lean ====
section
/-! DEFINITION. The dispatch: one arm for every command, each a direct call of its meaning. -/

namespace Sys2Proof.Machine

/-- The meaning of every command, on everything but the queue of commands. -/
def exec (i : Instr) (s : State) : Host.Outcome State Fault Refusal :=
  match i with
  | .setStation f => Sys2Proof.Machine.execSetStation f s
  | .addLane f => Sys2Proof.Machine.execAddLane f s
  | .addPump f => Sys2Proof.Machine.execAddPump f s
  | .setIsland f => Sys2Proof.Machine.execSetIsland f s
  | .addWash f => Sys2Proof.Machine.execAddWash f s
  | .setGate f => Sys2Proof.Machine.execSetGate f s
  | .mapPoint f => Sys2Proof.Machine.execMapPoint f s
  | .setParameter p value => Sys2Proof.Machine.execSetParameter p value s
  | .lock => Sys2Proof.Machine.execLock s
  | .setClock minute seconds => Sys2Proof.Machine.execSetClock minute seconds s
  | .placeParked lane bus => Sys2Proof.Machine.execPlaceParked lane bus s
  | .setStock fuel value => Sys2Proof.Machine.execSetStock fuel value s
  | .loadDuty f => Sys2Proof.Machine.execLoadDuty f s
  | .start => Sys2Proof.Machine.execStart s
  | .dropDuty duty => Sys2Proof.Machine.execDropDuty duty s
  | .delivery fuel amount => Sys2Proof.Machine.execDelivery fuel amount s
  | .closeLane lane => Sys2Proof.Machine.execCloseLane lane s
  | .openLane lane => Sys2Proof.Machine.execOpenLane lane s
  | .reopenPump pump => Sys2Proof.Machine.execReopenPump pump s
  | .reopenWash wash => Sys2Proof.Machine.execReopenWash wash s
  | .admitBus bus => Sys2Proof.Machine.execAdmitBus bus s
  | .resolveAtPoint fleet kind index => Sys2Proof.Machine.execResolveAtPoint fleet kind index s
  | .resolveReseek fleet => Sys2Proof.Machine.execResolveReseek fleet s
  | .resolveLeftYard fleet => Sys2Proof.Machine.execResolveLeftYard fleet s
  | .readRecord fleet => Sys2Proof.Machine.execReadRecord fleet s
  | .readLane lane => Sys2Proof.Machine.execReadLane lane s
  | .readApron => Sys2Proof.Machine.execReadApron s
  | .readWashQueue wash => Sys2Proof.Machine.execReadWashQueue wash s
  | .readDuty duty => Sys2Proof.Machine.execReadDuty duty s
  | .readDuties => Sys2Proof.Machine.execReadDuties s
  | .readSeekTable => Sys2Proof.Machine.execReadSeekTable s
  | .readCounters => Sys2Proof.Machine.execReadCounters s
  | .readLineSummary => Sys2Proof.Machine.execReadLineSummary s
  | .readStatus => Sys2Proof.Machine.execReadStatus s
  | .clearFlags f => Sys2Proof.Machine.execClearFlags f s
  | .takeNotice => Sys2Proof.Machine.execTakeNotice s
  | .reset => Sys2Proof.Machine.execReset s
  | .unknownCommandCode code => Sys2Proof.Machine.execUnknownCommandCode code s
  | .resetAfterAnswer => Sys2Proof.Machine.execResetAfterAnswer s
  | .hostByteReceived byte framingFault => Sys2Proof.Machine.execHostByteReceived byte framingFault s
  | .hostInterbyteTimeout => Sys2Proof.Machine.execHostInterbyteTimeout s
  | .hostAnswerSent => Sys2Proof.Machine.execHostAnswerSent s
  | .resetPinAsserted => Sys2Proof.Machine.execResetPinAsserted s
  | .resetPinReleased => Sys2Proof.Machine.execResetPinReleased s
  | .powerUp => Sys2Proof.Machine.execPowerUp s
  | .opening others => Sys2Proof.Machine.execOpening others s
  | .frameCarried bits => Sys2Proof.Machine.execFrameCarried bits s
  | .frameDamaged cause => Sys2Proof.Machine.execFrameDamaged cause s
  | .sendDamaged => Sys2Proof.Machine.execSendDamaged s
  | .lineFollowBegin => Sys2Proof.Machine.execLineFollowBegin s
  | .seekReceived => Sys2Proof.Machine.execSeekReceived s
  | .offerReceived => Sys2Proof.Machine.execOfferReceived s
  | .takenReceived => Sys2Proof.Machine.execTakenReceived s
  | .holdReceived => Sys2Proof.Machine.execHoldReceived s
  | .refuseReceived => Sys2Proof.Machine.execRefuseReceived s
  | .handoverReceived => Sys2Proof.Machine.execHandoverReceived s
  | .claimReceived => Sys2Proof.Machine.execClaimReceived s
  | .cancelReceived => Sys2Proof.Machine.execCancelReceived s
  | .repinReceived => Sys2Proof.Machine.execRepinReceived s
  | .timeReceived => Sys2Proof.Machine.execTimeReceived s
  | .minuteRollover => Sys2Proof.Machine.execMinuteRollover s
  | .retryTimerExpiry number => Sys2Proof.Machine.execRetryTimerExpiry number s
  | .offerHoldExpiry offer => Sys2Proof.Machine.execOfferHoldExpiry offer s
  | .awaitingHoldExpiry number => Sys2Proof.Machine.execAwaitingHoldExpiry number s
  | .answerTimerExpiry handover => Sys2Proof.Machine.execAnswerTimerExpiry handover s
  | .holdIntervalEnd handover => Sys2Proof.Machine.execHoldIntervalEnd handover s
  | .rowScan columns => Sys2Proof.Machine.execRowScan columns s
  | .dwellTimerExpiry row col => Sys2Proof.Machine.execDwellTimerExpiry row col s
  | .travelTimeout fleet => Sys2Proof.Machine.execTravelTimeout fleet s
  | .pumpCallTimeout pump => Sys2Proof.Machine.execPumpCallTimeout pump s
  | .nozzleLift pump => Sys2Proof.Machine.execNozzleLift pump s
  | .nozzleHang pump => Sys2Proof.Machine.execNozzleHang pump s
  | .meterPulse pump => Sys2Proof.Machine.execMeterPulse pump s
  | .noFlowTimeout pump => Sys2Proof.Machine.execNoFlowTimeout pump s
  | .agingTimerExpiry => Sys2Proof.Machine.execAgingTimerExpiry s
  | .washCallTimeout wash => Sys2Proof.Machine.execWashCallTimeout wash s
  | .busy wash => Sys2Proof.Machine.execBusy wash s
  | .startTimeout wash => Sys2Proof.Machine.execStartTimeout wash s
  | .done wash => Sys2Proof.Machine.execDone wash s
  | .fault wash => Sys2Proof.Machine.execFault wash s
  | .pollTimerExpiry lineLow => Sys2Proof.Machine.execPollTimerExpiry lineLow s
  | .pollTransactionEnd sda => Sys2Proof.Machine.execPollTransactionEnd sda s
  | .tagWindowExpiry arrivals => Sys2Proof.Machine.execTagWindowExpiry arrivals s
  | .signRecordSent => Sys2Proof.Machine.execSignRecordSent s
  | .plantInputReleased wash input => Sys2Proof.Machine.execPlantInputReleased wash input s
  | .i2cStartStopSeen start => Sys2Proof.Machine.execI2cStartStopSeen start s
  | .secondsCount => Sys2Proof.Machine.execSecondsCount s

end Sys2Proof.Machine
end

