-- ==== Sys2Proof/Safety.lean ====
section
/-! DEFINITION. The conditions the statements speak in: when the station takes commands and events, what its tables and
registers must always satisfy, and what an event's end can reach. -/

namespace Sys2Proof.Machine

/-- The station takes a host command at once: it is not in reset (R222), no RESET waits for the end of its answer
(R223), and no answer is being sent (R209). -/
def State.ready (s : State) : Prop := s.inReset = false ∧ s.host.resetPending = false ∧ s.host.answer = none

/-- The station works: it is not in reset and START has been taken (R211). -/
def State.works (s : State) : Prop := s.inReset = false ∧ s.phase = .running

/-- The events that the blocks act on in the RUNNING phase alone (R42, R75, R113, R139, R158, R186, R206). -/
def runningOnly : Sys2Proof.Instr → Bool
  | .opening _ | .frameCarried _ | .frameDamaged _ | .sendDamaged | .lineFollowBegin => true
  | .seekReceived | .offerReceived | .takenReceived | .holdReceived | .refuseReceived | .handoverReceived => true
  | .claimReceived | .cancelReceived | .repinReceived | .timeReceived => true
  | .retryTimerExpiry _ | .offerHoldExpiry _ | .awaitingHoldExpiry _ | .answerTimerExpiry _ | .holdIntervalEnd _ => true
  | .dwellTimerExpiry _ _ | .travelTimeout _ | .signRecordSent => true
  | .pumpCallTimeout _ | .nozzleLift _ | .nozzleHang _ | .meterPulse _ | .noFlowTimeout _ | .agingTimerExpiry => true
  | .washCallTimeout _ | .startTimeout _ => true
  | .pollTimerExpiry _ | .pollTransactionEnd _ | .tagWindowExpiry _ => true
  | _ => false

/-! ## What holds in every state -/

/-- The clock's registers lie in their ranges (R43). -/
def Clock.inRange (c : Clock) : Prop := c.minute < 1440 ∧ c.seconds < 60 ∧ ∀ m, c.seen = some m → m < 1440

/-- The scanner drives one of eight rows and holds 64 contacts, each with a run count of at most 16 (R187, R188). -/
def Scanner.inRange (c : Scanner) : Prop := c.row < 8 ∧ c.contacts.length = 64 ∧ ∀ x ∈ c.contacts, x.run ≤ 16

/-- A TIME frame in the receive pool carries a minute of the day: the malformed check has let it pass (R39). -/
def LineIf.minutesInRange (l : LineIf) : Prop := ∀ f ∈ l.pool, ∀ m, f.body = .time m → m < 1440

/-- The registers that count minutes, seconds, rows and runs stay in their ranges. -/
def State.registersInRange (s : State) : Prop :=
  s.clock.inRange ∧ s.scan.inRange ∧ s.yard.line.minutesInRange

/-- The resources of the blocks are those of the layout that LOCK fixed, with its fields (R92, R115, R140, R190, R215);
before LOCK there are none. -/
def State.layoutHeld (s : State) : Prop :=
  s.yard.lanes.map (·.cfg) = s.layout.lanes ∧ s.yard.fuel.pumps.map (·.cfg) = s.layout.pumps
    ∧ s.yard.wash.lanes.map (·.cfg) = s.layout.washes ∧ s.yard.points.map (·.cfg) = s.layout.points
    ∧ s.yard.signs.signs.map (·.number) = s.layout.signs.map (·.number)

/-- The custody table holds at most 96 records, no fleet twice (R1), and the seeking list no fleet twice (R9). -/
def Yard.custodyKept (y : Yard) : Prop :=
  y.records.length ≤ 96 ∧ (y.records.map (·.bus.fleet)).Pairwise (· < ·) ∧ y.seeking.Nodup

/-- The lists of bounded length stay within their bounds: transmit queue (R35), receive pool (R33), seek table (R50) and
its exclusion lists (R51), offer table (R56) with the place its pending choice needs, lapsed list (R57), taken list
(R58), arrival FIFO (R164), duty list (R170), expectation queues (R193) and notice queue (R219); no two seek entries
hold one seek number (R49), and no fleet stands twice in the reservation list of a lane (R95) or of the apron (R116). -/
def Yard.withinBounds (y : Yard) : Prop :=
  y.line.queue.length ≤ 8 ∧ y.line.pool.length ≤ 4 ∧ y.seek.table.length ≤ 8
    ∧ y.seek.offers.length + y.seek.choice.toList.length ≤ 8 ∧ y.seek.lapsed.length ≤ 8 ∧ y.seek.taken.length ≤ 8
    ∧ y.gate.fifo.length ≤ 8 ∧ y.gate.duties.length ≤ 256 ∧ y.notices.length ≤ 32
    ∧ (y.seek.table.map (·.number)).Nodup
    ∧ (∀ en ∈ y.seek.table, en.excl.length ≤ 4) ∧ (∀ p ∈ y.points, p.queue.length ≤ 8)
    ∧ (∀ l ∈ y.lanes, (l.reservs.map (·.fleet)).Nodup) ∧ (y.fuel.reservs.map (·.fleet)).Nodup

/-- Every place that is taken is accounted for. A lane's positions and reservations stay within its depth (R95), the
apron's queue and reservations within its capacity (R116), a wash lane's queue and reservations within its queue depth
(R142). What this rests on: a HELD entry in the reservation list of a lane or of the apron stands for a HELD offer entry
of its seek reference and fleet (R95, R116), a wash lane holds one reservation for each HELD offer entry (R142), no fleet
is expected twice (R193), and a bus expected at LANE_IN or at APRON_IN has its commitment there (R97, R117). -/
def State.placesKept (s : State) : Prop :=
  let y := s.yard
  let held : List OfferEntry := y.seek.offers.filter (·.state == .held)
  (∀ l ∈ y.lanes, l.positions.length + l.reservs.length ≤ l.cfg.depth)
  ∧ y.fuel.queue.length + y.fuel.reservs.length ≤ s.layout.islandCfg.capacity
  ∧ (∀ l ∈ y.wash.lanes, l.queue.length + l.reservs.length ≤ l.cfg.depth)
  ∧ (∀ n l, y.lane? n = some l → ∀ q ∈ l.reservs, q.committed = false →
      ∃ o ∈ held, o.resource = .lane n ∧ o.ref = q.ref ∧ o.fleet = q.fleet)
  ∧ (∀ q ∈ y.fuel.reservs, q.committed = false →
      ∃ o ∈ held, o.resource = .apron q.fuel ∧ o.ref = q.ref ∧ o.fleet = q.fleet)
  ∧ (∀ w ref f, (held.filter fun o => o.resource == .wash w && o.ref == ref && o.fleet == f).length
      = ((y.washLane? w).elim [] fun l => l.reservs.filter fun q => q.ref == ref && q.fleet == f).length)
  ∧ (y.points.flatMap fun p => p.queue.map (·.fleet)).Nodup
  ∧ (∀ n p, y.point? .laneIn n = some p → ∀ x ∈ p.queue, ∃ l, y.lane? n = some l
      ∧ ∃ q ∈ l.reservs, q.fleet = x.fleet ∧ q.committed = true)
  ∧ (∀ i p, y.point? .apronIn i = some p → ∀ x ∈ p.queue, i = 0
      ∧ ∃ q ∈ y.fuel.reservs, q.fleet = x.fleet ∧ q.committed = true)
  ∧ (s.phase = .config → y.seek.offers = [] ∧ y.fuel.queue = [] ∧ y.fuel.reservs = [])

/-! ## Well-formed frames (R39) -/

/-- Duty and release of a pin lie in their ranges (R1). -/
def Pin.inRange (p : Pin) : Prop := 1 ≤ p.duty ∧ p.duty ≤ 9999 ∧ p.release ≤ 1439

/-- The carried fields of a record lie in their ranges (R1, R5). -/
def Carried.inRange (b : Carried) : Prop :=
  1 ≤ b.fleet ∧ b.fleet ≤ 4095 ∧ b.cls ≤ 7 ∧ 50 ≤ b.capacity ∧ b.capacity ≤ 600 ∧ b.level ≤ 100
    ∧ (∀ p ∈ b.pin, p.inRange) ∧ b.itinerary.length ≤ 4 ∧ b.itinerary.Nodup ∧ b.arrival ≤ 1439

/-- The bus summary or the duty summary of a SEEK to a destination is one that R26 and R39 allow. -/
def Summary.inRange (dest : Dest) : Summary → Prop
  | .push s b =>
    s ≠ .exit ∧ dest = seekDest s ∧ 1 ≤ b.fleet ∧ b.fleet ≤ 4095 ∧ b.cls ≤ 7 ∧ 50 ≤ b.capacity ∧ b.capacity ≤ 600
      ∧ b.level ≤ 100 ∧ ∀ r ∈ b.release, r ≤ 1439
  | .pull d =>
    dest = .berthGroup ∧ 1 ≤ d.duty ∧ d.duty ≤ 9999 ∧ d.release ≤ 1439 ∧ d.mask ≠ 0#8 ∧ d.minLevel ≤ 100
      ∧ ∀ f ∈ d.pinned, 1 ≤ f ∧ f ≤ 4095

/-- A frame is well-formed: its header and its payload fields lie in the ranges that R26 and R39 give them. -/
def Frame.wellFormed (f : Frame) : Prop :=
  f.source < 32 ∧ (∀ n, f.dest = .station n → n < 32) ∧ f.ref.station < 32 ∧ f.ref.number < 256
    ∧ match f.body with
      | .offer c s a g => c ≤ 4095 ∧ a ≤ 7 ∧ (if s = .exit then ∃ x, g = some x ∧ 1 ≤ x ∧ x ≤ 4095 else g = none)
      | .answer _ x | .claim x | .cancel x => 1 ≤ x ∧ x ≤ 4095
      | .handover b => b.inRange
      | .seek a excl what => f.ref.station = f.source ∧ a ≤ 7 ∧ excl.length ≤ 4 ∧ excl.Nodup ∧ (∀ n ∈ excl, n < 32)
          ∧ what.inRange f.dest
      | .repin x p => 1 ≤ x ∧ x ≤ 4095 ∧ ∀ q ∈ p, q.inRange
      | .time m => m ≤ 1439

/-! ## What the end of an event can reach -/

/-- From y to t, at most the parts that the end of an event reaches have changed: a bus of the arrival FIFO becomes a
record (R11, R169), or a seek entry is given out with its SEEK (R50, R52). -/
def Yard.settledFrom (y t : Yard) : Prop :=
  t = { y with
    records := t.records
    seeking := t.seeking
    line := { y.line with queue := t.line.queue, waiting := t.line.waiting }
    seek := { y.seek with table := t.seek.table, counter := t.seek.counter, given := t.seek.given }
    gate := { y.gate with fifo := t.gate.fifo, duties := t.gate.duties, pins := t.gate.pins }
    cnt := { y.cnt with dupTags := t.cnt.dupTags } }

end Sys2Proof.Machine
end

