-- ==== Sys2Proof/Certificates/Slice0/Obligations.lean ====
section
/-! DEFINITION. The statements: what the numbered rules of the spec say of the machine, command by command. In them s is
the state before the command and t the state after it; s.ready says that the station takes host commands, s.works that
it runs. -/

section

open Sys2Proof Sys2Proof.Machine

/-! ## The machine as a whole -/

/-- A step carries out the command at the front of the queue, with the queue's rest in place. -/
def Obligations.StepRunsTheFrontCommand : Prop :=
  ∀ (c : Instr) (q : List Instr) (s : State), step { s with pending := c :: q } = exec c { s with pending := q }

/-- On an empty queue a step puts the event that is due into the queue; with none due one millisecond of the crystal
passes, which lets the running timers fall, counts the seconds of a valid clock, and changes nothing else (log 1: the
model's choice). -/
def Obligations.IdleStepLetsTimePass : Prop :=
  ∀ s : State, s.pending = [] →
    (∀ i, s.due = some i → step s = .next { s with pending := [i] })
    ∧ (s.inReset = true → step s = .next s)
    ∧ (s.inReset = false → s.due = none → ∃ t, step s = .next t
        ∧ t.crystalMs = s.crystalMs + 1
        ∧ t.clock = { s.clock with subMs := s.clock.subMs + (if s.clock.valid then 1 else 0) }
        ∧ t.host = { s.host with gapMs := s.host.gapMs + (if s.host.inProgress.isSome then 1 else 0) }
        ∧ t.yard.seek = { s.yard.seek with
            table := s.yard.seek.table.map fun x => { x with timer := x.timer.map (· - 1) }
            offers := s.yard.seek.offers.map fun x => { x with timer := x.timer.map (· - 1) } }
        ∧ t.yard.points = s.yard.points.map (fun p => { p with dwell := p.dwell.map (· - 1) })
        ∧ t.yard.gate = { s.yard.gate with pollTimer := s.yard.gate.pollTimer.map (· - 1) }
        ∧ t.yard.fuel = { s.yard.fuel with
            aging := s.yard.fuel.aging.map (· - 1)
            pumps := s.yard.fuel.pumps.map fun p => { p with
              timer := p.timer.map (· - 1)
              turn := p.turn.map fun u => { u with sinceCall := u.sinceCall + 1 } } }
        ∧ t.yard.wash = { s.yard.wash with
            lanes := s.yard.wash.lanes.map fun l => { l with
              timer := l.timer.map (· - 1)
              washMs := l.washMs + (if l.state = .washing then 1 else 0) } }
        ∧ t = { s with
            crystalMs := t.crystalMs
            clock := t.clock
            host := t.host
            yard := { s.yard with
              seek := t.yard.seek, points := t.yard.points, gate := t.yard.gate, fuel := t.yard.fuel
              wash := t.yard.wash } })

/-- The state after reset: phase CONFIG, an empty layout store with every parameter at its default, an idle host link,
no notices, minute 0 and seconds 0 with CLOCK_VALID false and the seen minute none, the scanner at row 0 with 64 free
contacts, an empty custody table, line interface, seek engine and no resources. The reset pin, the supply and the RESET
command all bring the reset state of every block; the pin and the supply keep their own levels, and the queue of waiting
commands stays (log 14). -/
def Obligations.ResetBringsTheStateTheSpecSays : Prop :=
  (let s := State.reset
   s.phase = .config ∧ s.store = {} ∧ s.layout = {} ∧ s.store.params = ⟨8, 2, 240, 1439, 2, 200, 3, 2, 30, 8, 4, 4⟩
   ∧ s.host.inProgress = none ∧ s.host.waiting = [] ∧ s.host.answer = none ∧ s.host.txd = [] ∧ s.host.discarded = 0
   ∧ s.yard.notices = [] ∧ s.yard.lost = 0 ∧ s.yard.noticeOut = false
   ∧ s.clock.minute = 0 ∧ s.clock.seconds = 0 ∧ s.clock.valid = false ∧ s.clock.seen = none
   ∧ s.scan.row = 0 ∧ s.scan.contacts.length = 64 ∧ (∀ c ∈ s.scan.contacts, c.occupied = false ∧ c.run = 0)
   ∧ s.yard.records = [] ∧ s.yard.seeking = [] ∧ s.yard.line = {} ∧ s.yard.seek = {} ∧ s.yard.saturated = false
   ∧ s.yard.lanes = [] ∧ s.yard.fuel = {} ∧ s.yard.wash = {} ∧ s.yard.gate = {} ∧ s.yard.points = [] ∧ s.yard.signs = {}
   ∧ s.yard.cnt = {} ∧ s.pending = [])
  ∧ (∀ s : State,
       exec .resetPinAsserted s
         = .next { State.reset with pending := s.pending, pinLow := true, supplyLow := s.supplyLow }
       ∧ (s.pinLow = true → exec .resetPinReleased s
         = .next { State.reset with pending := s.pending, pinLow := false, supplyLow := s.supplyLow })
       ∧ exec .powerUp s = .next { State.reset with pending := s.pending, pinLow := s.pinLow, supplyLow := false }
       ∧ (s.inReset = false → s.host.resetPending = true → exec .resetAfterAnswer s
         = .next { State.reset with pending := s.pending, pinLow := s.pinLow, supplyLow := s.supplyLow })
       ∧ (s.inReset = false → s.host.resetPending = true → s.host.answer.isSome = true → exec .hostAnswerSent s
         = .next { State.reset with pending := s.pending, pinLow := s.pinLow, supplyLow := s.supplyLow }))

/-- While the station is in reset it ignores every input: only the reset pin and the supply act. In the CONFIG and
LOCKED phases the line, the seek engine's timers, the point timers, the fuel unit, the wash unit's timers, the tag
reader and the sign line act on no event. -/
def Obligations.InputsOutsideTheirTimeChangeNothing : Prop :=
  (∀ (i : Instr) (s : State), s.inReset = true → i ≠ .resetPinAsserted → i ≠ .resetPinReleased → i ≠ .powerUp →
     exec i s = .next s)
  ∧ (∀ (i : Instr) (s : State), runningOnly i = true → s.phase ≠ .running → exec i s = .next s)

/-- The reset state satisfies every invariant stated below. -/
def Obligations.ResetStateIsWellKept : Prop :=
  State.reset.registersInRange ∧ State.reset.layoutHeld ∧ State.reset.yard.custodyKept
  ∧ State.reset.yard.withinBounds ∧ State.reset.placesKept

/-- Every step keeps the clock's and the scanner's registers in their ranges: minute 0 to 1439, seconds 0 to 59, a seen
minute of the day, rows 0 to 7, 64 contacts with run counts up to 16, and no pooled TIME with a minute beyond 1439. -/
def Obligations.StepKeepsRegistersInRange : Prop :=
  ∀ s t : State, s.registersInRange → step s = .next t → t.registersInRange

/-- Every step keeps the resources of the blocks those of the layout in force, with the layout fields that LOCK
fixed. -/
def Obligations.StepKeepsTheLayoutHeld : Prop := ∀ s t : State, s.layoutHeld → step s = .next t → t.layoutHeld

/-- Every step keeps the custody table within 96 records with no fleet twice, and the seeking list with no fleet
twice. -/
def Obligations.StepKeepsTheCustodyTable : Prop :=
  ∀ s t : State, s.yard.custodyKept → step s = .next t → t.yard.custodyKept

/-- Every step keeps the lists of bounded length within their bounds: 8 frames in the transmit queue, 4 in the receive
pool, 8 seek entries, each excluding at most 4 stations, 8 offer entries, 8 lapsed and 8 taken items, 8 arrivals, 256
duties, 8 expectations at a point and 32 notices; no two seek entries hold one seek number, and no fleet stands twice in
the reservation list of a lane or of the apron. With these bounds every step also keeps the places: a lane's positions
and reservations within its depth, the apron's queue and reservations within its capacity, a wash lane's queue and
reservations within its queue depth, each HELD reservation of a lane or the apron with a HELD offer entry that it stands
for, each HELD WASH offer with its one reservation, and each bus expected at LANE_IN or APRON_IN with its commitment. -/
def Obligations.StepKeepsTheListBounds : Prop :=
  ∀ s t : State, s.yard.withinBounds → step s = .next t →
    t.yard.withinBounds ∧ (s.placesKept → t.placesKept)

/-- The layout that LOCK fixed stays until a reset, and the phase goes on only from LOCKED to RUNNING: whatever a
command does outside CONFIG, it either brings CONFIG back by a reset with an empty layout, or keeps the layout. -/
def Obligations.LayoutIsFixedUntilReset : Prop :=
  ∀ (i : Instr) (s t : State), s.phase ≠ .config → exec i s = .next t →
    (t.phase = .config ∧ t.layout = {} ∧ t.store = {})
    ∨ (t.layout = s.layout ∧ t.store = s.store ∧ (t.phase = s.phase ∨ (s.phase = .locked ∧ t.phase = .running)))

/-! ## The host link -/

/-- The record that R207 gives a well-formed host command, with its code and its fields, is read back as that command:
carrying out the record is carrying out the command. Where R207 leaves the bytes open they are the model's choice: which
fields have a presence byte (log 10), the codes of yes and no (log 11), the bits of the programmes enabled (log 53), the
width of a parameter's value (log 56). -/
def Obligations.HostRecordIsReadBackAsItsCommand : Prop :=
  ∀ (i : Instr) (code : Nat) (fields : List Byte) (s : State), i.wf = true → i.hostFields = some (code, fields) →
    exec i s = .next (s.carryOut (hostRecord code fields))

/-- A record sent byte by byte to a receiver that waits for a start byte, with nothing waiting and no answer being sent,
is carried out with its last byte, and nothing is discarded on the way. -/
def Obligations.BytesOfARecordCarryItOut : Prop :=
  ∀ (s : State) (code : Nat) (fields : List Byte), s.inReset = false → s.host.inProgress = none → s.host.waiting = [] →
    s.host.answer = none → fields.length ≤ 249 →
    Sys2Proof.core.run (hostRecord code fields).length
        { s with pending := (hostRecord code fields).map fun b => .hostByteReceived b false }
      = .next (State.carryOut (hostRecord code fields)
          { s with pending := [], host := { s.host with inProgress := none, gapMs := 0 } })

/-- Every host command that reaches a ready station, which sends no answer, begins to send exactly one answer, with the
command's code; a command that is not answered DONE changes nothing but the answer. -/
def Obligations.EveryCommandIsAnsweredAndRefusalsChangeNothing : Prop :=
  ∀ (i : Instr) (code : Nat) (fields : List Byte) (s : State), i.hostFields = some (code, fields) → s.ready →
    ∃ t r data, exec i s = .next t ∧ t.host.answer = some ⟨code, r, data⟩
      ∧ t.host.txd = (HostAnswer.mk code r data).bytes ∧ (r ≠ .done → t = s.answer code r data)

/-- A host command that the phase does not take is answered PHASE and changes nothing else. CONFIG takes codes 1 to 10
and 23 to 26, LOCKED 10 to 14 and 23 to 26, RUNNING 12, 13 and 15 to 26. A record whose code names no command is
answered UNKNOWN in every phase, and changes nothing else. -/
def Obligations.UnknownAndOutOfPhaseCommandsAreRefused : Prop :=
  (∀ (i : Instr) (code : Nat) (fields : List Byte) (s : State), i.hostFields = some (code, fields) → s.ready →
     ¬ (match s.phase with
       | .config => code ≤ 10 ∨ 23 ≤ code
       | .locked => (10 ≤ code ∧ code ≤ 14) ∨ 23 ≤ code
       | .running => code = 12 ∨ code = 13 ∨ 15 ≤ code) →
     exec i s = .next (s.answer code .phase []))
  ∧ (∀ (code : Byte) (s : State), (code.toNat = 0 ∨ 26 < code.toNat) → s.ready →
       exec (.unknownCommandCode code) s = .next (s.answer code.toNat .unknown []))

/-- The host link's own events. A byte that is no start byte, or any byte with a framing fault, changes nothing between
two records; a start byte with room in the buffer opens a record (that a fault between records is not counted is the
model's choice, log 13). More than 10 ms inside a record discard it and count it, stopping at 65535. At the end of an
answer with no RESET behind it the oldest waiting record is carried out, and with none waiting the link is idle. A host
command that arrives while an answer is being sent waits behind the others in the receive buffer, or, with no place for
its record there, is discarded and counted (as a row of the table, log 9). -/
def Obligations.HostLinkEvents : Prop :=
  ∀ s : State, s.inReset = false →
    (∀ b f, s.host.inProgress = none → (f = true ∨ b ≠ 0xC3#8) → exec (.hostByteReceived b f) s = .next s)
    ∧ (s.host.inProgress = none → s.host.used < 256 → exec (.hostByteReceived 0xC3#8 false) s
        = .next { s with host := { s.host with inProgress := some [0xC3#8], gapMs := 0 } })
    ∧ (s.host.inProgress.isSome = true → exec .hostInterbyteTimeout s
        = .next { s with host := { s.host with
            inProgress := none, gapMs := 0, discarded := min 65535 (s.host.discarded + 1) } })
    ∧ (s.host.answer.isSome = true → s.host.resetPending = false → s.host.waiting = [] → exec .hostAnswerSent s
        = .next { s with host := { s.host with answer := none, txd := [] } })
    ∧ (∀ r rest, s.host.answer.isSome = true → s.host.resetPending = false → s.host.waiting = r :: rest →
        exec .hostAnswerSent s
        = .next (State.carryOut r { s with host := { s.host with answer := none, txd := [], waiting := rest } }))
    ∧ (∀ i code fields, s.host.answer.isSome = true → i.wf = true → i.hostFields = some (code, fields) →
        let record := hostRecord code fields
        (s.host.used + record.length ≤ 256 → exec i s
          = .next { s with host := { s.host with waiting := s.host.waiting ++ [record] } })
        ∧ (256 < s.host.used + record.length → exec i s
          = .next { s with host := { s.host with discarded := min 65535 (s.host.discarded + 1) } }))

/-! ## The layout, LOCK and START -/

/-- ADD LANE, ADD PUMP, MAP POINT and SET PARAMETER in the CONFIG phase: with every field without a default given and
every field in its range the item takes its place in the store, in place of one of the same key, and the answer is DONE;
with a field missing or out of its range the answer is RANGE and the store is as before. That an area outside 1 to 7 is
out of range, so that RANGE refuses it, is the model's choice (log 36). -/
def Obligations.LaneItemsPumpsPointsAndParametersFillTheStore : Prop :=
  ∀ s : State, s.ready → s.phase = .config →
    (∀ f : LaneFields, exec (.addLane f) s = .next (match f.number, f.depth, f.mask, f.area with
      | some n, some d, some m, some a =>
        if n ≤ 11 ∧ 1 ≤ d ∧ d ≤ 12 ∧ 1 ≤ a ∧ a ≤ 7 ∧ f.bias.getD 0 ≤ 255 then
          State.answer 2 .done []
            { s with store := { s.store with lanes := insertBy (·.number) ⟨n, d, m, a, f.bias.getD 0⟩ s.store.lanes } }
        else s.answer 2 .range []
      | _, _, _, _ => s.answer 2 .range []))
    ∧ (∀ f : PumpFields, exec (.addPump f) s = .next (match f.index, f.fuel, f.pulses, f.rate with
      | some i, some fu, some p, some r =>
        let most := f.maxTurn.getD 60000
        if i ≤ 3 ∧ fu ≠ .noFuel ∧ 10 ≤ p ∧ p ≤ 1000 ∧ 1000 ≤ r ∧ r ≤ 20000 ∧ 1000 ≤ most ∧ most ≤ 60000 then
          State.answer 3 .done []
            { s with store := { s.store with pumps := insertBy (·.index) ⟨i, fu, p, r, most⟩ s.store.pumps } }
        else s.answer 3 .range []
      | _, _, _, _ => s.answer 3 .range []))
    ∧ (∀ f : PointFields, exec (.mapPoint f) s = .next (match f.row, f.col, f.kind, f.index with
      | some r, some c, some k, some i =>
        if r ≤ 7 ∧ c ≤ 7 ∧ i ≤ (match k with
              | .laneIn | .laneOut => 11
              | .bay => 3
              | .washIn | .washOut => 1
              | .gateIn | .gateOut | .apronIn => 0)
            ∧ 5 ≤ f.dwell.getD 30 ∧ f.dwell.getD 30 ≤ 600 then
          State.answer 7 .done [] { s with store := { s.store with
            points := insertBy (fun p => 8 * p.row + p.col) ⟨r, c, k, i, f.dwell.getD 30, f.repeats.getD false⟩
              s.store.points } }
        else s.answer 7 .range []
      | _, _, _, _ => s.answer 7 .range []))
    ∧ (∀ p v, exec (.setParameter p v) s = .next (
      if (match p with
          | .wB | .wS => v ≤ 15
          | .gEmpty | .spareRelease => v ≤ 1439
          | .offerHold | .holdInterval => 1 ≤ v ∧ v ≤ 10
          | .answerTime => 50 ≤ v ∧ v ≤ 1000
          | .attempts => 1 ≤ v ∧ v ≤ 7
          | .retry => 10 ≤ v ∧ v ≤ 300
          | .travel => 1 ≤ v ∧ v ≤ 30
          | .rowPeriod => 1 ≤ v ∧ v ≤ 16
          | .debounce => v = 2 ∨ v = 4 ∨ v = 8 ∨ v = 16 : Bool) then
        State.answer 8 .done [] { s with store := { s.store with params := s.store.params.set p v } }
      else s.answer 8 .range []))

/-- SET STATION, SET ISLAND, ADD WASH and SET GATE in the CONFIG phase: with every field without a default given and
every field in its range the item stands in the store with the defaults of the fields given absent, and the answer is
DONE; with a field missing or out of its range the answer is RANGE and the store is as before. That an area outside 1 to
7 is out of range, so that RANGE refuses it, is the model's choice (log 36). -/
def Obligations.StationIslandWashAndGateFillTheStore : Prop :=
  ∀ s : State, s.ready → s.phase = .config →
    (∀ f : StationFields, exec (.setStation f) s = .next (match f.number, f.area1, f.rate with
      | some n, some a, some r =>
        if n ≤ 31 ∧ 1 ≤ a ∧ a ≤ 7 ∧ (∀ c ∈ f.area2, 1 ≤ c ∧ c ≤ 7 ∧ c ≠ a) ∧ f.seekFuel.getD 0 ≤ 7
            ∧ f.seekWash.getD 0 ≤ 7 ∧ f.seekBerth.getD 0 ≤ 7 ∧ f.seekExit.getD 0 ≤ 7 then
          State.answer 1 .done [] { s with store := { s.store with station := some ⟨n, a, f.area2, r, f.seekFuel.getD 0,
            f.seekWash.getD 0, f.seekBerth.getD 0, f.seekExit.getD 0⟩ } }
        else s.answer 1 .range []
      | _, _, _ => s.answer 1 .range []))
    ∧ (∀ f : IslandFields, exec (.setIsland f) s = .next (match f.capacity, f.area with
      | some c, some a =>
        let v : IslandCfg := ⟨c, a, f.bias.getD 0, f.reserveDiesel.getD 0, f.reserveGas.getD 0, f.horizon.getD 90,
          f.minFill.getD 2000, f.levelStep.getD 90, f.aging.getD 20, f.callTimeout.getD 3, f.maxSkips.getD 2,
          f.noFlow.getD 60⟩
        if 1 ≤ c ∧ c ≤ 16 ∧ 1 ≤ a ∧ a ≤ 7 ∧ v.bias ≤ 255 ∧ v.reserveDiesel ≤ 4294967295 ∧ v.reserveGas ≤ 4294967295
            ∧ v.horizon ≤ 240 ∧ 100 ≤ v.minFill ∧ v.minFill ≤ 20000 ∧ 15 ≤ v.levelStep ∧ v.levelStep ≤ 240
            ∧ 5 ≤ v.aging ∧ v.aging ≤ 60 ∧ 1 ≤ v.callTimeout ∧ v.callTimeout ≤ 10 ∧ 1 ≤ v.maxSkips ∧ v.maxSkips ≤ 3
            ∧ 30 ≤ v.noFlow ∧ v.noFlow ≤ 300 then
          State.answer 4 .done [] { s with store := { s.store with island := some v } }
        else s.answer 4 .range []
      | _, _ => s.answer 4 .range []))
    ∧ (∀ f : WashFields, exec (.addWash f) s = .next (match f.index, f.area, f.depth with
      | some i, some a, some d =>
        let v : WashCfg := ⟨i, a, f.bias.getD 0, f.enabled.getD 7#3, f.nomRinse.getD 4, f.nomStandard.getD 9,
          f.nomFull.getD 14, f.alpha.getD 8, f.margin.getD 10, f.startTimeout.getD 10, f.callTimeout.getD 3,
          f.maxSkips.getD 2, d⟩
        if i ≤ 1 ∧ 1 ≤ a ∧ a ≤ 7 ∧ v.bias ≤ 255 ∧ v.enabled ≠ 0#3 ∧ 1 ≤ v.nomRinse ∧ v.nomRinse ≤ 255
            ∧ 1 ≤ v.nomStandard ∧ v.nomStandard ≤ 255 ∧ 1 ≤ v.nomFull ∧ v.nomFull ≤ 255 ∧ 1 ≤ v.alpha ∧ v.alpha ≤ 32
            ∧ v.margin ≤ 60 ∧ 5 ≤ v.startTimeout ∧ v.startTimeout ≤ 60 ∧ 1 ≤ v.callTimeout ∧ v.callTimeout ≤ 10
            ∧ 1 ≤ v.maxSkips ∧ v.maxSkips ≤ 3 ∧ 1 ≤ d ∧ d ≤ 8 then
          State.answer 5 .done [] { s with store := { s.store with washes := insertBy (·.index) v s.store.washes } }
        else s.answer 5 .range []
      | _, _, _ => s.answer 5 .range []))
    ∧ (∀ f : GateFields, exec (.setGate f) s = .next (match f.reader with
      | some r =>
        let v : GateCfg := ⟨r, f.poll.getD 250, f.window.getD 15, f.refuel.getD 90, f.defaultMin.getD 60,
          f.callLead.getD 15, f.grace.getD 10⟩
        if 8 ≤ r ∧ r ≤ 119 ∧ 100 ≤ v.poll ∧ v.poll ≤ 1000 ∧ 5 ≤ v.window ∧ v.window ≤ 60 ∧ 50 ≤ v.refuel
            ∧ v.refuel ≤ 100 ∧ v.defaultMin ≤ 100 ∧ 5 ≤ v.callLead ∧ v.callLead ≤ 60 ∧ v.grace ≤ 60 then
          State.answer 6 .done [] { s with store := { s.store with gate := some v } }
        else s.answer 6 .range []
      | none => s.answer 6 .range []))

/-- LOCK with every check passed: DONE, phase LOCKED, the layout fixed as it stands in the store, and the blocks take it
up: lanes, pumps, wash lanes with their estimates, points with empty expectation queues, signs at their first values.
Clock, custody table, notices and everything else are as before. -/
def Obligations.LockFixesTheLayout : Prop :=
  ∀ s : State, s.ready → s.phase = .config → (∀ k, 1 ≤ k → k ≤ 10 → s.store.check k = true) →
    exec .lock s = .next (State.answer 9 .done [] { s with
      phase := .locked
      layout := s.store
      yard := { s.yard with
        lanes := s.store.lanes.map fun c => ⟨c, false, false, [], []⟩
        fuel := { s.yard.fuel with pumps := s.store.pumps.map fun c => ⟨c, .free, none, false, none⟩ }
        wash := { s.yard.wash with lanes := s.store.washes.map fun c =>
          ⟨c, min 4080 (16 * c.nomRinse), min 4080 (16 * c.nomStandard), min 4080 (16 * c.nomFull), .free, none, none,
            [], [], none, 0⟩ }
        points := s.store.points.map fun c => ⟨c, none, []⟩
        signs := ⟨s.store.signs, [], none⟩ } })

/-- LOCK with a failing check is refused with the number of the first check that fails, with RANGE for the checks 9 and
10 and CONFLICT for the others, and nothing else changes. The ten checks of LOCK: what each asks of the store. -/
def Obligations.LockNamesTheFirstFailedOfTenChecks : Prop :=
  (∀ (s : State) (k : Nat), s.ready → s.phase = .config → 1 ≤ k → k ≤ 10 → s.store.check k = false →
     (∀ j, 1 ≤ j → j < k → s.store.check j = true) →
     exec .lock s = .next (s.answer 9 (if k ≤ 8 then .conflict else .range) [BitVec.ofNat 8 k]))
  ∧ (∀ l : Layout,
       let at_ (k : PointKind) (i : Nat) : Prop := ∃ p ∈ l.points, p.kind = k ∧ p.index = i
       let ours (a : Nat) : Prop := ∃ c, l.station = some c ∧ (a = c.area1 ∨ some a = c.area2)
       (l.check 1 = true ↔ ∃ c, l.station = some c)
       ∧ (l.check 2 = true ↔ ∀ p ∈ l.points,
           ((p.kind = .laneIn ∨ p.kind = .laneOut) → ∃ x ∈ l.lanes, x.number = p.index)
           ∧ (p.kind = .bay → ∃ x ∈ l.pumps, x.index = p.index)
           ∧ ((p.kind = .washIn ∨ p.kind = .washOut) → ∃ x ∈ l.washes, x.index = p.index)
           ∧ (p.kind = .apronIn → ∃ c, l.island = some c)
           ∧ ((p.kind = .gateIn ∨ p.kind = .gateOut) → ∃ c, l.gate = some c))
       ∧ (l.check 3 = true ↔ l.points.Pairwise fun p q => ¬ (p.kind = q.kind ∧ p.index = q.index))
       ∧ (l.check 4 = true ↔ ∀ x ∈ l.lanes, at_ .laneIn x.number ∧ at_ .laneOut x.number)
       ∧ (l.check 5 = true ↔
           (l.pumps ≠ [] → (∃ c, l.island = some c) ∧ at_ .apronIn 0 ∧ ∀ x ∈ l.pumps, at_ .bay x.index)
           ∧ ((∃ c, l.island = some c) → l.pumps ≠ []))
       ∧ (l.check 6 = true ↔ ∀ x ∈ l.washes, at_ .washIn x.index ∧ at_ .washOut x.index)
       ∧ (l.check 7 = true ↔ ((∃ c, l.gate = some c) → at_ .gateIn 0 ∧ at_ .gateOut 0))
       ∧ (l.check 8 = true ↔ (∀ x ∈ l.lanes, ours x.area) ∧ (∀ c, l.island = some c → ours c.area)
           ∧ ∀ x ∈ l.washes, ours x.area)
       ∧ (l.check 9 = true ↔ ∀ x ∈ l.lanes, x.mask ≠ 0#8)
       ∧ (l.check 10 = true ↔ (l.lanes.map (·.depth)).sum ≤ 96))

/-- START in the LOCKED phase: refused with CONFLICT while CLOCK_VALID is false. Otherwise DONE and phase RUNNING: every
sign has one record on its way with its current value, in ascending number, and an unknown sent value; the dwell timers
of the occupied contacts start; an island's aging timer and a gate's poll timer start. At a gate station each listed
duty is then called, in list order, if it is due, and then a REPIN goes out for each pin, in list order, whose fleet is
not held (that the calls come before the REPINs is the model's choice, log 6). A duty is called if it is due when it is
not yet called and its slack is at most the call lead: it goes to CALLING with its call pending, and is uncovered at
once with its grace over. Lanes, wash lanes, pumps, layout and clock are as before. -/
def Obligations.StartSetsTheBlocksGoing : Prop :=
  ∀ s : State, s.ready → s.phase = .locked →
    (s.clock.valid = false → exec .start s = .next (s.answer 14 .conflict []))
    ∧ (s.clock.valid = true → ∃ t, exec .start s = .next t ∧ t.host.answer = some ⟨14, .done, []⟩
        ∧ t = { s with host := t.host, phase := .running, yard := t.yard }
        ∧ t.yard.signs.signs = s.yard.signs.signs.map (fun x => { x with sent := none })
        ∧ t.yard.signs.sending.toList ++ t.yard.signs.list = s.yard.signs.signs.map (fun x => ⟨x.number, x.current⟩)
        ∧ t.yard.points = s.yard.points.map (fun p =>
            if (s.scan.contacts[8 * p.cfg.row + p.cfg.col]?).any (·.occupied) then
              { p with dwell := some (1000 * p.cfg.dwell) } else p)
        ∧ t.yard.fuel.aging = (if s.yard.fuel.pumps = [] then s.yard.fuel.aging
            else some (60000 * s.layout.islandCfg.aging))
        ∧ t.yard.gate.pollTimer = (match s.layout.gate with
            | some g => some g.poll
            | none => s.yard.gate.pollTimer)
        ∧ t.yard.lanes = s.yard.lanes ∧ t.yard.wash = s.yard.wash
        ∧ t.yard.fuel = { s.yard.fuel with aging := t.yard.fuel.aging }
        ∧ (let e := ({ s with phase := .running } : State).env
           let begun : Yard := { s.yard with
             signs := t.yard.signs, points := t.yard.points, fuel := t.yard.fuel
             gate := { s.yard.gate with pollTimer := t.yard.gate.pollTimer } }
           (s.layout.gate = none → t.yard = settle e begun)
           ∧ (s.layout.gate.isSome = true →
             let called := (begun.gate.duties.map (·.number)).foldl (fun y n => callIfDue e n y) begun
             t.yard = settle e ((called.gate.duties.map (·.number)).foldl (fun y n => match y.pinnedFleet n with
               | some f => if (y.rec? f).isSome then y else send e (.repin f) y
               | none => y) called))))
    ∧ (∀ (e : Env) (n : Nat) (y : Yard),
        (∀ d, y.duty? n = some d → (d.state = .unpinned ∨ d.state = .pinned) →
          let late := laterThan e.minute ((d.release + e.layout.gateCfg.grace) % 1440)
          let calling : Yard := { y with gate := { y.gate with
            duties := updFirst (·.number == n) (fun x => { x with state := .calling true late }) y.gate.duties } }
          (e.layout.gateCfg.callLead < slackTo e.minute d.release → callIfDue e n y = y)
          ∧ (slackTo e.minute d.release ≤ e.layout.gateCfg.callLead →
            callIfDue e n y = if late then uncoverDuty e n calling else calling))
        ∧ ((∀ d, y.duty? n = some d → d.state ≠ .unpinned ∧ d.state ≠ .pinned) → callIfDue e n y = y))

/-! ## Clock, parked buses, stock -/

/-- SET CLOCK in the CONFIG and LOCKED phases. The first setting takes both values and raises no change of minute. A
valid clock takes an equal minute with its seconds, and a later minute as a change of minute; it refuses an earlier
minute with RANGE, as it does a minute above 1439 or seconds above 59. Taken, it forgets the seen minute, and the second
begins anew (the model's choice, log 23). START is refused while CLOCK_VALID is false. -/
def Obligations.SetClockFollowsItsThreeCases : Prop :=
  ∀ (s : State) (m sec : Nat), s.ready → (s.phase = .config ∨ s.phase = .locked) →
    (m ≤ 1439 → sec ≤ 59 → s.clock.valid = false → exec (.setClock m sec) s
      = .next (State.answer 10 .done [] { s with clock := ⟨m, sec, true, none, 0⟩ }))
    ∧ (m ≤ 1439 → sec ≤ 59 → s.clock.valid = true → m = s.clock.minute → exec (.setClock m sec) s
      = .next (State.answer 10 .done [] { s with clock := ⟨m, sec, true, none, 0⟩ }))
    ∧ (m ≤ 1439 → sec ≤ 59 → s.clock.valid = true → m ≠ s.clock.minute → laterThan m s.clock.minute = true →
      exec (.setClock m sec) s
      = .next (State.answer 10 .done [] (State.changeMinute ⟨m, sec, true, none, 0⟩ s)))
    ∧ (m ≤ 1439 → sec ≤ 59 → s.clock.valid = true → m ≠ s.clock.minute → laterThan m s.clock.minute = false →
      exec (.setClock m sec) s = .next (s.answer 10 .range []))
    ∧ (1439 < m ∨ 59 < sec → exec (.setClock m sec) s = .next (s.answer 10 .range []))
    ∧ (s.phase = .locked → s.clock.valid = false → exec .start s = .next (s.answer 14 .conflict []))

/-- PLACE PARKED in the LOCKED phase, for a bus in range. A lane with room and a fleet the station does not hold: a
parked record with no marks, no pin and an empty itinerary, and a PARKED position at the rear of the lane; the other
records and the other lanes are as before. A lane not laid out is refused with RANGE, one without room with FULL, then a
fleet held with DUPLICATE and a full table with FULL. -/
def Obligations.PlaceParkedParksTheBus : Prop :=
  ∀ (s : State) (n : Nat) (b : BusFields), s.ready → s.phase = .locked → b.ok = true →
    (∀ l, s.yard.lane? n = some l → l.positions.length + l.reservs.length < l.cfg.depth → s.yard.rec? b.fleet = none →
      s.yard.records.length < 96 → ∃ t, exec (.placeParked n b) s = .next t ∧ t.host.answer = some ⟨11, .done, []⟩
        ∧ t.yard.rec? b.fleet = some ⟨⟨b.fleet, b.cls, b.fuel, b.capacity, b.level, .unmarked, b.wash, .unmarked, none, [],
            s.clock.minute⟩, .parked, .lane n⟩
        ∧ (∀ f, f ≠ b.fleet → t.yard.rec? f = s.yard.rec? f)
        ∧ t.yard.lane? n = some { l with positions := l.positions ++ [⟨b.fleet, .parked⟩] }
        ∧ (∀ m, m ≠ n → t.yard.lane? m = s.yard.lane? m)
        ∧ t = { s with
            host := t.host
            yard := { s.yard with records := t.yard.records, lanes := t.yard.lanes, signs := t.yard.signs } })
    ∧ (s.yard.lane? n = none → exec (.placeParked n b) s = .next (s.answer 11 .range []))
    ∧ (∀ l, s.yard.lane? n = some l → l.cfg.depth ≤ l.positions.length + l.reservs.length →
        exec (.placeParked n b) s = .next (s.answer 11 .full []))
    ∧ (∀ l, s.yard.lane? n = some l → l.positions.length + l.reservs.length < l.cfg.depth →
        ((s.yard.rec? b.fleet).isSome = true → exec (.placeParked n b) s = .next (s.answer 11 .duplicate []))
        ∧ (s.yard.rec? b.fleet = none → 96 ≤ s.yard.records.length →
            exec (.placeParked n b) s = .next (s.answer 11 .full [])))

/-- SET STOCK and DELIVERY on a station with the fuel unit. SET STOCK gives the account of its fuel type its stock and
stock-set total, no dispensed total and no STOCK_SHORT; below the reserve low reported is yes and a STOCK_LOW notice is
raised, else low reported is no. DELIVERY raises stock and stock-set total by the amount, leaves
dispensed total and STOCK_SHORT, and ends low reported once the stock is at least the reserve; it is refused with RANGE
when a sum would pass 2^32 - 1. The other account, the pumps and the apron are as before. -/
def Obligations.StockAccountsAreSetAndDelivered : Prop :=
  ∀ (s : State) (f : Fuel) (v : Nat), s.ready → s.yard.fuel.pumps ≠ [] → f ≠ .noFuel → v ≤ 4294967295 →
    ((s.phase = .locked ∨ s.phase = .running) → ∃ t, exec (.setStock f v) s = .next t
        ∧ t.host.answer = some ⟨12, .done, []⟩
        ∧ t.yard.fuel.account f = ⟨v, v, 0, false, decide (v < s.layout.islandCfg.reserve f)⟩
        ∧ (s.layout.islandCfg.reserve f ≤ v → t.yard.notices = s.yard.notices ∧ t.yard.lost = s.yard.lost)
        ∧ (v < s.layout.islandCfg.reserve f → s.yard.notices.length < 32 → t.yard.lost = s.yard.lost ∧ t.yard.notices
            = s.yard.notices ++ [⟨.stockLow, if s.clock.valid then s.clock.minute else 0, none, some (.fuel f), [v]⟩])
        ∧ (∀ g, g ≠ f → g ≠ .noFuel → t.yard.fuel.account g = s.yard.fuel.account g)
        ∧ t = { s with host := t.host, yard := { s.yard with
            fuel := { s.yard.fuel with diesel := t.yard.fuel.diesel, gas := t.yard.fuel.gas }
            notices := t.yard.notices, lost := t.yard.lost } })
    ∧ (s.phase = .running → 1 ≤ v → (s.yard.fuel.account f).stock + v ≤ 4294967295 →
        (s.yard.fuel.account f).setTotal + v ≤ 4294967295 → ∃ t, exec (.delivery f v) s = .next t
        ∧ t.host.answer = some ⟨16, .done, []⟩
        ∧ t.yard.fuel.account f = { s.yard.fuel.account f with
            stock := (s.yard.fuel.account f).stock + v
            setTotal := (s.yard.fuel.account f).setTotal + v
            lowReported := (s.yard.fuel.account f).lowReported
              && decide ((s.yard.fuel.account f).stock + v < s.layout.islandCfg.reserve f) }
        ∧ (∀ g, g ≠ f → g ≠ .noFuel → t.yard.fuel.account g = s.yard.fuel.account g)
        ∧ t = { s with host := t.host, yard := { s.yard with
            fuel := { s.yard.fuel with diesel := t.yard.fuel.diesel, gas := t.yard.fuel.gas } } })
    ∧ (s.phase = .running → (4294967295 < (s.yard.fuel.account f).stock + v
          ∨ 4294967295 < (s.yard.fuel.account f).setTotal + v) →
        exec (.delivery f v) s = .next (s.answer 16 .range []))

/-! ## Duties, lanes, pumps, wash lanes, buses at the gate -/

/-- LOAD DUTY on a gate station. With its fields in range, a number and a fleet not in use and room in the list: in the
LOCKED phase the duty joins the list in list order, OPEN, or PINNED with its pair in the pin table and its pin in the
gate's own record of the fleet, and nothing else changes; in the RUNNING phase the same, with a REPIN queued for a
pinned fleet and the duty called at once when its slack is within the call lead. The refusals, the first that applies
deciding: no gate, or a field out of its range, RANGE; a number listed or a fleet paired, DUPLICATE; a fleet OUTBOUND at
the gate, CONFLICT; a list of 256, FULL. The entry that one of the station's own lanes keeps for the fleet is as before
(the model's choice, log 45). -/
def Obligations.LoadDutyEntersTheDuty : Prop :=
  ∀ (s : State) (f : DutyFields), s.ready → (s.phase = .locked ∨ s.phase = .running) →
    let ok : Prop := 1 ≤ f.number ∧ f.number ≤ 9999 ∧ f.release ≤ 1439 ∧ f.mask ≠ 0#8 ∧ (∀ v ∈ f.minLevel, v ≤ 100)
      ∧ (∀ x ∈ f.fleet, 1 ≤ x ∧ x ≤ 4095) ∧ slackTo s.clock.minute f.release ≠ 0
    let inUse : Prop := (s.yard.duty? f.number).isSome = true ∨ ∃ x ∈ f.fleet, (s.yard.pairedDuty x).isSome = true
    let leaving : Prop := ∃ x ∈ f.fleet, s.yard.heldAt x .outbound .gate = true
    ((s.layout.gate = none ∨ ¬ ok) → exec (.loadDuty f) s = .next (s.answer 13 .range []))
    ∧ (∀ g, s.layout.gate = some g → ok →
      (inUse → exec (.loadDuty f) s = .next (s.answer 13 .duplicate []))
      ∧ (¬ inUse → leaving → exec (.loadDuty f) s = .next (s.answer 13 .conflict []))
      ∧ (¬ inUse → ¬ leaving → 256 ≤ s.yard.gate.duties.length → exec (.loadDuty f) s = .next (s.answer 13 .full []))
      ∧ (¬ inUse → ¬ leaving → s.yard.gate.duties.length < 256 →
        let d : Duty := ⟨f.number, f.release, f.mask, f.fuel, f.minLevel.getD g.defaultMin,
          if f.fleet.isSome then .pinned else .unpinned⟩
        let listed : Yard := { s.yard with gate := { s.yard.gate with
          duties := insertBy (fun x => x.release * 10000 + x.number) d s.yard.gate.duties } }
        let pinned (x : Nat) : Yard := onRec x (fun r => { r with bus.pin := some ⟨f.number, f.release⟩ })
          { listed with gate := { listed.gate with pins := insertBy (·.duty) ⟨f.number, x⟩ s.yard.gate.pins } }
        (s.phase = .locked → f.fleet = none → exec (.loadDuty f) s
          = .next (State.answer 13 .done [] { s with yard := listed }))
        ∧ (∀ x, s.phase = .locked → f.fleet = some x → exec (.loadDuty f) s
          = .next (State.answer 13 .done [] { s with yard := pinned x }))
        ∧ (s.phase = .running → f.fleet = none → exec (.loadDuty f) s
          = .next (State.answer 13 .done [] { s with yard := settle s.env (callIfDue s.env f.number listed) }))
        ∧ (∀ x, s.phase = .running → f.fleet = some x → exec (.loadDuty f) s
          = .next (State.answer 13 .done [] { s with
              yard := settle s.env (callIfDue s.env f.number (send s.env (.repin x) (pinned x))) }))))

/-- DROP DUTY on a gate station in the RUNNING phase. A duty not listed is refused with UNKNOWN, a CALLING or OUTBOUND
one with CONFLICT. An OPEN duty is removed. A PINNED duty is removed with its pair, the pin of the gate's own record
goes and a REPIN for the fleet is queued. The entry that one of the station's own lanes keeps for the fleet is as before
(the model's choice, log 45). -/
def Obligations.DropDutyFollowsTheDutysState : Prop :=
  ∀ (s : State) (n : Nat), s.ready → s.phase = .running → s.layout.gate.isSome = true → 1 ≤ n → n ≤ 9999 →
    let without : Yard := { s.yard with gate := { s.yard.gate with
      duties := dropFirst (·.number == n) s.yard.gate.duties } }
    (s.yard.duty? n = none → exec (.dropDuty n) s = .next (s.answer 15 .unknown []))
    ∧ (∀ d, s.yard.duty? n = some d → (∃ p g, d.state = .calling p g) ∨ (∃ f, d.state = .outbound f) →
        exec (.dropDuty n) s = .next (s.answer 15 .conflict []))
    ∧ (∀ d, s.yard.duty? n = some d → d.state = .unpinned → s.yard.pinnedFleet n = none →
        exec (.dropDuty n) s = .next (State.answer 15 .done [] { s with yard := without }))
    ∧ (∀ d x, s.yard.duty? n = some d → d.state = .pinned → s.yard.pinnedFleet n = some x →
        exec (.dropDuty n) s = .next (State.answer 15 .done [] { s with
          yard := send s.env (.repin x) (onRec x (fun r => { r with bus.pin := none })
            { without with gate := { without.gate with pins := s.yard.gate.pins.filter (·.duty != n) } }) }))

/-- CLOSE LANE closes the lane it names and OPEN LANE opens it; only the closed field changes, and the state of the lane
follows it: CLOSED while closed, else SUSPENDED while its entry is blocked, else OPEN. A lane not laid out is refused
with RANGE. REOPEN PUMP and REOPEN WASH in the RUNNING phase. An OUT pump goes to FREE with its turn forgotten, and the
fuel unit looks for heads. A wash lane that is OUT with no current bus and its FAULT input released, and one that is
DRAINING, goes to FREE with no current bus and calls. A wash lane OUT with a current bus or an asserted FAULT is refused
with CONFLICT; FAULT here is the station's view of it, which starts as released (the model's choice, log 26). In every
other state the answer is DONE with nothing changed. An index not laid out is refused with RANGE. -/
def Obligations.LanesPumpsAndWashLanesAreOpenedAndClosed : Prop :=
  (∀ (s : State) (n : Nat), s.ready → s.phase = .running →
     (∀ l, s.yard.lane? n = some l →
       (∃ t, exec (.closeLane n) s = .next t ∧ t.host.answer = some ⟨17, .done, []⟩
         ∧ t.yard.lane? n = some { l with closed := true } ∧ ({ l with closed := true } : Lane).state = .closed
         ∧ (∀ m, m ≠ n → t.yard.lane? m = s.yard.lane? m)
         ∧ t = { s with host := t.host, yard := { s.yard with lanes := t.yard.lanes } })
       ∧ (∃ t, exec (.openLane n) s = .next t ∧ t.host.answer = some ⟨18, .done, []⟩
         ∧ t.yard.lane? n = some { l with closed := false }
         ∧ ({ l with closed := false } : Lane).state = (if l.blocked then .suspended else .opened)
         ∧ (∀ m, m ≠ n → t.yard.lane? m = s.yard.lane? m)
         ∧ t = { s with host := t.host, yard := { s.yard with lanes := t.yard.lanes } }))
     ∧ (s.yard.lane? n = none → exec (.closeLane n) s = .next (s.answer 17 .range [])
         ∧ exec (.openLane n) s = .next (s.answer 18 .range [])))
  ∧ (∀ s : State, s.ready → s.phase = .running →
       (∀ p q, s.yard.pump? p = some q → q.state = .out → exec (.reopenPump p) s
         = .next (State.answer 19 .done [] { s with yard := settle s.env (lookForHeads s.env (setPump s.env p
             (fun q => { q with state := .free, turn := none, timer := none, enable := false }) s.yard)) }))
       ∧ (∀ p q, s.yard.pump? p = some q → q.state ≠ .out → exec (.reopenPump p) s = .next (s.answer 19 .done []))
       ∧ (∀ p, s.yard.pump? p = none → exec (.reopenPump p) s = .next (s.answer 19 .range []))
       ∧ (∀ w, s.yard.washLane? w = none → exec (.reopenWash w) s = .next (s.answer 20 .range []))
       ∧ (∀ w l, s.yard.washLane? w = some l →
           ((l.state = .out ∧ l.current = none ∧ s.yard.faultSeen w = false) ∨ l.state = .draining) →
           exec (.reopenWash w) s = .next (State.answer 20 .done [] { s with yard := settle s.env (washCall s.env w
             (setWash s.env w (fun l => { l with state := .free, current := none }) s.yard)) }))
       ∧ (∀ w l, s.yard.washLane? w = some l → l.state = .out → (l.current.isSome = true ∨ s.yard.faultSeen w = true) →
           exec (.reopenWash w) s = .next (s.answer 20 .conflict []))
       ∧ (∀ w l, s.yard.washLane? w = some l → l.state ≠ .out → l.state ≠ .draining →
           exec (.reopenWash w) s = .next (s.answer 20 .done [])))

/-- ADMIT on a gate station, for a bus in range that is neither held nor in the arrival FIFO, with room in the FIFO: it
joins the FIFO's tail as ADMIT, takes the oldest unmatched arrival of the loop cross-check or waits as an unmatched
read, and may become a record at once. With no gate or a field out of its range it is refused with RANGE, a fleet held
or waiting with DUPLICATE, a full FIFO with FULL (with both, DUPLICATE: the model's reading of the order of the
conditions, log 39). -/
def Obligations.AdmitEntersTheArrivalFifo : Prop :=
  ∀ (s : State) (b : BusFields), s.ready → s.phase = .running →
    let ok : Prop := 1 ≤ b.fleet ∧ b.fleet ≤ 4095 ∧ b.cls ≤ 7 ∧ 50 ≤ b.capacity ∧ b.capacity ≤ 600 ∧ b.level ≤ 100
    let known : Prop := (s.yard.rec? b.fleet).isSome = true ∨ ∃ x ∈ s.yard.gate.fifo, x.bus.fleet = b.fleet
    let joined : Yard := { s.yard with gate := { s.yard.gate with fifo := s.yard.gate.fifo ++ [⟨b, true⟩] } }
    ((s.layout.gate = none ∨ ¬ ok) → exec (.admitBus b) s = .next (s.answer 21 .range []))
    ∧ (s.layout.gate.isSome = true → ok →
      (known → exec (.admitBus b) s = .next (s.answer 21 .duplicate []))
      ∧ (¬ known → 8 ≤ s.yard.gate.fifo.length → exec (.admitBus b) s = .next (s.answer 21 .full []))
      ∧ (¬ known → s.yard.gate.fifo.length < 8 → exec (.admitBus b) s
          = .next (State.answer 21 .done [] { s with yard := settle s.env (match s.yard.gate.arrivals with
            | _ :: rest => { joined with gate := { joined.gate with arrivals := rest } }
            | [] => { joined with gate := { joined.gate with
                reads := pushOldest 8 (s.crystalMs / 1000) s.yard.gate.reads } }) })))

/-- RESOLVE of a STRAY or ADRIFT record. RESEEK: the record goes to SERVED at no location and takes its next step. LEFT
YARD and a mapped GATE_OUT: the record leaves the custody table. A mapped GATE_IN: it goes to ARRIVED at the gate and
takes its next step. A mapped LANE_IN whose lane has room and where the fleet has no LEAVING position: it is PARKED
there with an empty itinerary, at the rear. A mapped APRON_IN with FUEL at the head, a pump of its fuel in service and
room: it is enqueued as at an arrival. A mapped WASH_IN with WASH at the head, a lane not OUT with a programme for it
and room, its expectation pushed: it joins the lane's queue, EXPECTED there. The owners refuse: at LANE_IN a lane with
no room FULL, a fleet with a LEAVING position CONFLICT (with both, FULL: log 39); at APRON_IN no FUEL at the head or no
pump in service CONFLICT, no room FULL; at WASH_IN no WASH at the head, a lane OUT or no programme CONFLICT, no room or
no place for the expectation FULL. RESOLVE names a fleet out of range, a record that is not held, or one that is neither
STRAY nor ADRIFT, or a point where no bus can be entered: RANGE, UNKNOWN, CONFLICT, and for BAY, WASH_OUT and LANE_OUT
points CONFLICT too; a point not mapped is RANGE. -/
def Obligations.ResolveSettlesOrRefuses : Prop :=
  (∀ (s : State) (f : Nat) (r : Record), s.ready → s.phase = .running → 1 ≤ f → f ≤ 4095 → s.yard.rec? f = some r →
     (r.state = .stray ∨ r.state = .adrift) →
     (exec (.resolveReseek f) s = .next (State.answer 22 .done [] { s with
         yard := settle s.env (nextStep f (placeRec f .served .nowhere s.yard)) }))
     ∧ (exec (.resolveLeftYard f) s = .next (State.answer 22 .done [] { s with
         yard := settle s.env (removeRec f s.yard) }))
     ∧ ((s.yard.point? .gateOut 0).isSome = true → exec (.resolveAtPoint f .gateOut 0) s
         = .next (State.answer 22 .done [] { s with yard := settle s.env (removeRec f s.yard) }))
     ∧ ((s.yard.point? .gateIn 0).isSome = true → exec (.resolveAtPoint f .gateIn 0) s
         = .next (State.answer 22 .done [] { s with
             yard := settle s.env (nextStep f (placeRec f .arrived .gate s.yard)) }))
     ∧ (∀ n l, (s.yard.point? .laneIn n).isSome = true → s.yard.lane? n = some l →
         l.positions.length + l.reservs.length < l.cfg.depth → s.yard.hasLeaving f = false →
         exec (.resolveAtPoint f .laneIn n) s = .next (State.answer 22 .done [] { s with
           yard := onPositions s.env n (· ++ [⟨f, .parked⟩])
             (onRec f (fun r => { r with state := .parked, loc := .lane n, bus.itinerary := [] }) s.yard) }))
     ∧ ((s.yard.point? .apronIn 0).isSome = true → r.bus.itinerary.head? = some .fuel → s.yard.served r.bus.fuel = true →
         s.yard.apronOccupancy < s.layout.islandCfg.capacity → exec (.resolveAtPoint f .apronIn 0) s
         = .next (State.answer 22 .done [] { s with
             yard := settle s.env (lookForHeads s.env (enqueueApron s.env r s.yard)) }))
     ∧ (∀ w l y, (s.yard.point? .washIn w).isSome = true → s.yard.washLane? w = some l →
         r.bus.itinerary.head? = some .wash → l.state ≠ .out → l.cfg.joinProg r.bus.wash ≠ .noWash →
         l.queue.length + l.reservs.length < l.cfg.depth → pushExpect s.env .washIn w f false s.yard = some y →
         exec (.resolveAtPoint f .washIn w) s = .next (State.answer 22 .done [] { s with
           yard := settle s.env (washCall s.env w (placeRec f .expected (.wash w) (joinWash w f 0 y))) }))
     ∧ (∀ n l, (s.yard.point? .laneIn n).isSome = true → s.yard.lane? n = some l →
         (l.cfg.depth ≤ l.positions.length + l.reservs.length →
           exec (.resolveAtPoint f .laneIn n) s = .next (s.answer 22 .full []))
         ∧ (l.positions.length + l.reservs.length < l.cfg.depth → s.yard.hasLeaving f = true →
           exec (.resolveAtPoint f .laneIn n) s = .next (s.answer 22 .conflict [])))
     ∧ ((s.yard.point? .apronIn 0).isSome = true →
         ((r.bus.itinerary.head? ≠ some .fuel ∨ s.yard.served r.bus.fuel = false) →
           exec (.resolveAtPoint f .apronIn 0) s = .next (s.answer 22 .conflict []))
         ∧ (r.bus.itinerary.head? = some .fuel → s.yard.served r.bus.fuel = true →
           s.layout.islandCfg.capacity ≤ s.yard.apronOccupancy →
           exec (.resolveAtPoint f .apronIn 0) s = .next (s.answer 22 .full [])))
     ∧ (∀ w l, (s.yard.point? .washIn w).isSome = true → s.yard.washLane? w = some l →
         let refused : Prop := r.bus.itinerary.head? ≠ some .wash ∨ l.state = .out ∨ l.cfg.joinProg r.bus.wash = .noWash
         (refused → exec (.resolveAtPoint f .washIn w) s = .next (s.answer 22 .conflict []))
         ∧ (¬ refused → (l.cfg.depth ≤ l.queue.length + l.reservs.length
             ∨ pushExpect s.env .washIn w f false s.yard = none) →
           exec (.resolveAtPoint f .washIn w) s = .next (s.answer 22 .full []))))
  ∧ (∀ (s : State) (f : Nat), s.ready → s.phase = .running →
       ((f = 0 ∨ 4095 < f) → ∀ k i, exec (.resolveAtPoint f k i) s = .next (s.answer 22 .range [])
         ∧ exec (.resolveReseek f) s = .next (s.answer 22 .range [])
         ∧ exec (.resolveLeftYard f) s = .next (s.answer 22 .range []))
       ∧ (1 ≤ f → f ≤ 4095 → s.yard.rec? f = none → ∀ k i, exec (.resolveAtPoint f k i) s = .next (s.answer 22 .unknown [])
         ∧ exec (.resolveReseek f) s = .next (s.answer 22 .unknown [])
         ∧ exec (.resolveLeftYard f) s = .next (s.answer 22 .unknown []))
       ∧ (∀ r, 1 ≤ f → f ≤ 4095 → s.yard.rec? f = some r → r.state ≠ .stray → r.state ≠ .adrift →
         ∀ k i, exec (.resolveAtPoint f k i) s = .next (s.answer 22 .conflict [])
           ∧ exec (.resolveReseek f) s = .next (s.answer 22 .conflict [])
           ∧ exec (.resolveLeftYard f) s = .next (s.answer 22 .conflict []))
       ∧ (∀ r, 1 ≤ f → f ≤ 4095 → s.yard.rec? f = some r → (r.state = .stray ∨ r.state = .adrift) → ∀ k i,
         (s.yard.point? k i = none → exec (.resolveAtPoint f k i) s = .next (s.answer 22 .range []))
         ∧ ((s.yard.point? k i).isSome = true → (k = .bay ∨ k = .washOut ∨ k = .laneOut) →
             exec (.resolveAtPoint f k i) s = .next (s.answer 22 .conflict []))))

/-! ## Reads, flags, notices, RESET -/

/-- Every READ answers its data and changes nothing but the answer: a record, a lane, the apron, a wash queue, a duty,
the duties, the seek table, the counters, the line summary and the status; a fleet not held and a duty not listed are
UNKNOWN, a lane or wash lane not laid out is RANGE. The order and the widths of the bytes are the model's where R207
leaves them open (logs 11, 12, 43, 44, 47, 48, 50, 51, 52, 54, 55, 58, 59). -/
def Obligations.ReadsAnswerAndChangeNothing : Prop :=
  ∀ s : State, s.ready →
    (∀ f r, 1 ≤ f → f ≤ 4095 → s.yard.rec? f = some r →
      exec (.readRecord f) s = .next (s.answer 23 .done r.bytes))
    ∧ (∀ f, 1 ≤ f → f ≤ 4095 → s.yard.rec? f = none → exec (.readRecord f) s = .next (s.answer 23 .unknown []))
    ∧ (∀ n l, s.yard.lane? n = some l → exec (.readLane n) s = .next (s.answer 23 .done (l.bytes s.yard)))
    ∧ (∀ n, s.yard.lane? n = none → exec (.readLane n) s = .next (s.answer 23 .range []))
    ∧ (s.yard.fuel.pumps ≠ [] → exec .readApron s = .next (s.answer 23 .done (apronBytes s.env s.yard)))
    ∧ (∀ w l, s.yard.washLane? w = some l → exec (.readWashQueue w) s = .next (s.answer 23 .done (l.bytes s.yard)))
    ∧ (∀ w, s.yard.washLane? w = none → exec (.readWashQueue w) s = .next (s.answer 23 .range []))
    ∧ (∀ n d, s.layout.gate.isSome = true → 1 ≤ n → n ≤ 9999 → s.yard.duty? n = some d →
        exec (.readDuty n) s = .next (s.answer 23 .done (d.bytes s.yard)))
    ∧ (∀ n, s.layout.gate.isSome = true → 1 ≤ n → n ≤ 9999 → s.yard.duty? n = none →
        exec (.readDuty n) s = .next (s.answer 23 .unknown []))
    ∧ (s.layout.gate.isSome = true → exec .readDuties s
        = .next (s.answer 23 .done (encLong (Duty.short s.yard) s.yard.gate.duties)))
    ∧ exec .readSeekTable s = .next (s.answer 23 .done
        (encList SeekEntry.bytes s.yard.seek.table ++ encList OfferEntry.bytes s.yard.seek.offers))
    ∧ exec .readCounters s = .next (s.answer 23 .done (countersBytes s))
    ∧ exec .readLineSummary s = .next (s.answer 23 .done (b1 s.yard.line.flags.mask))
    ∧ exec .readStatus s = .next (s.answer 23 .done (statusBytes s))

/-- CLEAR FLAGS clears the flags of the line error summary that it names, the line counters, the station counters,
SATURATED and the lost-notice counter as its selections say, is answered DONE, and changes nothing else. TAKE NOTICE
takes the oldest notice out of the queue and answers it with the number still queued and the lost-notice counter; with
an empty queue it answers the two numbers alone and changes nothing. NOTICE is asserted while a notice is queued. RESET
is answered DONE and waits for the end of its answer. A notice raised with fewer than 32 in the queue joins the tail
with its minute, 0 while the clock is not valid; with 32 it is discarded and the lost-notice counter rises by one,
stopping at 255. A flag of the line error summary that is set anew raises one LINE_ERROR naming it; one set again
changes nothing. Which bit of the mask names which flag (log 59), how a notice's detail is sent (log 12) and that the
notice has no presence byte (log 60) are the model's choices. -/
def Obligations.FlagsNoticesAndResetCommand : Prop :=
  (∀ (s : State) (f : ClearFields), s.ready → ∃ t, exec (.clearFlags f) s = .next t
     ∧ t.host = { s.host with
         answer := some ⟨24, .done, []⟩
         txd := (HostAnswer.mk 24 .done []).bytes
         discarded := if f.station then 0 else s.host.discarded }
     ∧ t.yard.line.flags = ⟨s.yard.line.flags.poolFull && !f.flags[0], s.yard.line.flags.txFail && !f.flags[1],
         s.yard.line.flags.rxMalformed && !f.flags[2], s.yard.line.flags.noTaker && !f.flags[3],
         s.yard.line.flags.unrelated && !f.flags[4]⟩
     ∧ t.yard.line.cnt = (if f.line then ⟨0, 0, 0, 0, 0, 0, 0, 0, 0⟩ else s.yard.line.cnt)
     ∧ t.yard.cnt = (if f.station then ⟨0, 0, 0, 0, 0, 0⟩ else s.yard.cnt)
     ∧ t.yard.saturated = (s.yard.saturated && !f.cost)
     ∧ t.yard.lost = (if f.lost then 0 else s.yard.lost)
     ∧ t = { s with
         host := t.host
         yard := { s.yard with
           line := { s.yard.line with flags := t.yard.line.flags, cnt := t.yard.line.cnt }
           cnt := t.yard.cnt, saturated := t.yard.saturated, lost := t.yard.lost } })
  ∧ (∀ s : State, s.ready →
       (s.yard.notices = [] → exec .takeNotice s = .next (s.answer 25 .done (b1 0 ++ b1 s.yard.lost))
         ∧ s.yard.noticeOut = false)
       ∧ (∀ n rest, s.yard.notices = n :: rest → s.yard.noticeOut = true ∧ exec .takeNotice s
         = .next (State.answer 25 .done (n.bytes ++ b1 rest.length ++ b1 s.yard.lost)
             { s with yard := { s.yard with notices := rest } }))
       ∧ exec .reset s = .next (State.answer 26 .done [] { s with host := { s.host with resetPending := true } }))
  ∧ (∀ (e : Env) (k : NoticeKind) (fleet : Option Nat) (res : Option NoticeRes) (detail : List Nat) (y : Yard),
       (y.notices.length < 32 → notify e k fleet res detail y = { y with
         notices := y.notices ++ [⟨k, if e.clockValid then e.minute else 0, fleet, res, detail⟩] })
       ∧ (32 ≤ y.notices.length → notify e k fleet res detail y = { y with lost := min 255 (y.lost + 1) }))
  ∧ (∀ (e : Env) (f : LineFlag) (y : Yard),
       (y.line.flags.get f = true → setFlag e f y = y)
       ∧ (y.line.flags.get f = false → ∃ flags : LineFlags, flags.get f = true
         ∧ (∀ g, g ≠ f → flags.get g = y.line.flags.get g)
         ∧ setFlag e f y = notify e .lineError none none [f.code] { y with line := { y.line with flags := flags } }))

/-! ## The line interface -/

/-- At an opening a working station that follows the line and sends nothing puts forward, of its frames eligible at the
opening, the one with the lowest arbitration key, and among equal keys the one that entered the queue first. With no
lower key on the line it is sent (a HANDOVER formed again for a resend, log 31); with a lower key it stays in the queue
as it was. With no eligible frame and another station's frame on the line the queue stays as it was; with no frame
pending anywhere the opening is empty and ends, its OFFERs lost (log 32) and NO OFFER reported to this station's own
seek. An OFFER is eligible at the offer opening of its own seek, every other frame at every opening. That the event
tells the lowest key of the others is the model's choice (log 17). The end of an opening: the OFFERs still in the queue
and the pending choice go, the next opening is the given offer opening, and with no OFFER pooled this station's own OPEN
entry, if the opening was its offer opening, has its NO OFFER. A round with no offer: the entry goes to WAIT_RETRY with
the retry period, NO_TAKER is set, and unless the entry has reported before, one NO_OFFER names the fleet or the duty,
and the service. A WASH seek of a bus on the fault re-seek list then ends: the entry goes, the bus leaves the list, its
mark is SKIPPED, WASH leaves its itinerary, and WASH_SKIPPED is raised with the detail NO_TAKER. A PULL seek whose duty
is CALLING with its grace over has its duty uncovered. -/
def Obligations.AnOpeningPutsForwardTheLowestKey : Prop :=
  ∀ (s : State) (others : Option ArbKey), s.works → s.yard.line.following = true → s.yard.line.sendingSlot = none →
    let offer := s.yard.line.nextOffer
    let opened : LineIf := { s.yard.line with curOffer := offer, nextOffer := none }
    (∀ x : TxSlot, x.eligible offer = true ↔ match x.req with
      | .offer ref _ _ _ _ => offer = some ref
      | _ => True)
    ∧ (∀ a x b, s.yard.line.queue = a ++ x :: b → x.eligible offer = true →
      (∀ z ∈ a, z.eligible offer = true → x.frame.key < z.frame.key) →
      (∀ z ∈ b, z.eligible offer = true → x.frame.key ≤ z.frame.key) →
      let x' : TxSlot := { x.refresh s.env s.yard with sending := true }
      ((∀ k ∈ others, x.frame.key ≤ k) → exec (.opening others) s = .next { s with yard := { s.yard with
          line := { opened with queue := a ++ x' :: b, txBits := x'.frame.raw.lineBits } } })
      ∧ (∀ k, others = some k → k < x.frame.key → exec (.opening others) s
          = .next { s with yard := { s.yard with line := opened } }))
    ∧ ((∀ x ∈ s.yard.line.queue, x.eligible offer = false) →
        (∀ k, others = some k → exec (.opening others) s = .next { s with yard := { s.yard with line := opened } })
        ∧ (others = none → exec (.opening others) s
            = .next { s with yard := settle s.env (endOpening s.env none false { s.yard with line := opened }) }))
    ∧ (∀ (e : Env) (next : Option SeekRef) (pooled : Bool) (y : Yard),
        let done : Yard := refillTx e { y with
          line := { y.line with
            queue := y.line.queue.filter fun x => !x.req.isOffer
            curOffer := none, nextOffer := next, checkSlot := false }
          seek := { y.seek with choice := none } }
        let ours (en : SeekEntry) : Prop := ∃ n, (y.line.curOffer <|> y.line.nextOffer) = some ⟨e.layout.own, n⟩
          ∧ y.seekEntry? n = some en ∧ en.state = .opened
        (∀ en, ours en → pooled = false → endOpening e next pooled y = noOffer e en.number done)
        ∧ ((pooled = true ∨ ∀ en, ¬ ours en) → endOpening e next pooled y = done))
    ∧ (∀ (e : Env) (n : Nat) (y : Yard) (en : SeekEntry), y.seekEntry? n = some en →
        let waits : Yard := setFlag e .noTaker { y with seek := { y.seek with
          table := updFirst (·.number == n) (fun x => { x with
            state := .waitRetry, timer := some (1000 * e.layout.params.retry), reported := true }) y.seek.table } }
        let told : Yard := if en.reported then waits else match en.subject with
          | .bus f sv => notify e .noOffer (some f) (some (.service sv)) [] waits
          | .duty d => notify e .noOffer none (some (.service .exit)) [d] waits
        (∀ f sv, en.subject = .bus f sv → (sv ≠ .wash ∨ f ∉ y.wash.faultList) → noOffer e n y = told)
        ∧ (∀ f w r, en.subject = .bus f .wash → f ∈ y.wash.faultList → y.rec? f = some r → r.loc = .wash w →
          noOffer e n y = notify e .washSkipped (some f) (some (.wash w)) [2] (onRec f (fun x => { x with
              bus.itinerary := match x.bus.itinerary with
                | [] => [.berth]
                | [.wash] => [.berth]
                | .wash :: rest => rest
                | it => it
              bus.washMark := .skipped })
            { told with
              seek := { told.seek with table := dropFirst (·.number == n) told.seek.table }
              wash := { y.wash with faultList := y.wash.faultList.filter (· != f) } }))
        ∧ (∀ d, en.subject = .duty d → (∀ x p, y.duty? d = some x → x.state ≠ .calling p true) → noOffer e n y = told)
        ∧ (∀ d x p, en.subject = .duty d → y.duty? d = some x → x.state = .calling p true →
          noOffer e n y = uncoverDuty e d told))

/-- The bits of a frame of up to 24 payload bytes, from its start mark through its CRC, stuffed as the sender puts them
on the line, are read back by every receiver as that frame. The filter passes the frames to this station, to ALL and to
the groups whose resources it has, and of the SEEKs only those of area 0 or of one of its areas. The raw form of a
well-formed frame of another station is parsed as that frame; and a raw form is parsed only as a well-formed frame of
another station, one of the same key, destination, seek reference and payload length. A frame of another station that is
carried: one that fails the address filter leaves pool and counters as they were; one that passes and is malformed
raises MALFORMED by one and sets RX_MALFORMED; a good one joins the receive pool and raises RECEIVED by one, or, with
all four places taken, is lost: RX_LOST rises by one, stopping at 255, and POOL_FULL is set. The lanes, pumps, wash
lanes, points and signs are as before, and the check slot is left recessive. -/
def Obligations.ACarriedFrameIsPooledLostOrMalformed : Prop :=
  (∀ r : RawFrame, r.payload.length ≤ 24 → receiveFrame r.stuffed = some r
     ∧ r.lineBits = r.stuffed ++ List.replicate 8 true)
  ∧ (∀ (l : Layout) (r : RawFrame),
       (l.passes r = true ↔ (r.dest.toNat < 32 ∧ r.dest.toNat = l.own ∨ r.dest.toNat = 32 ∧ l.pumps ≠ []
           ∨ r.dest.toNat = 33 ∧ l.washes ≠ [] ∨ r.dest.toNat = 34 ∧ l.lanes ≠ [] ∨ r.dest.toNat = 63)
         ∧ (r.rank.toNat = 4 → r.seekArea = 0
           ∨ ∃ c, l.station = some c ∧ (r.seekArea = c.area1 ∨ c.area2 = some r.seekArea)))
       ∧ (∀ b rest, r.payload = b :: rest → r.seekArea = b.toNat / 32))
  ∧ (∀ (own : Nat) (f : Frame), f.wellFormed → f.source ≠ own → f.raw.parse own = some f)
  ∧ (∀ (own : Nat) (r : RawFrame) (f : Frame), r.parse own = some f → f.wellFormed ∧ f.source ≠ own
       ∧ f.raw.key = r.key ∧ f.raw.dest = r.dest ∧ f.raw.seekStation = r.seekStation
       ∧ f.raw.seekNumber = r.seekNumber ∧ f.raw.payload.length = r.payload.length)
  ∧ ∀ (s : State) (bits : List Bool) (r : RawFrame), s.works → s.yard.line.following = true →
    s.yard.line.sendingSlot = none → receiveFrame bits = some r →
    ∃ t, exec (.frameCarried bits) s = .next t ∧ t.yard.line.checkSlot = false
      ∧ t.yard.lanes = s.yard.lanes ∧ t.yard.fuel = s.yard.fuel ∧ t.yard.wash.lanes = s.yard.wash.lanes
      ∧ t.yard.points = s.yard.points ∧ t.yard.signs = s.yard.signs ∧ t = { s with yard := t.yard }
      ∧ (s.layout.passes r = false → t.yard.line.pool = s.yard.line.pool ∧ t.yard.line.cnt = s.yard.line.cnt)
      ∧ (s.layout.passes r = true → r.parse s.layout.own = none →
          t.yard.line.pool = s.yard.line.pool ∧ t.yard.line.flags.rxMalformed = true
          ∧ t.yard.line.cnt = { s.yard.line.cnt with malformed := min 65535 (s.yard.line.cnt.malformed + 1) })
      ∧ (∀ f, s.layout.passes r = true → r.parse s.layout.own = some f → s.yard.line.pool.length < 4 →
          t.yard.line.pool = s.yard.line.pool ++ [f]
          ∧ t.yard.line.cnt = { s.yard.line.cnt with received := min 65535 (s.yard.line.cnt.received + 1) })
      ∧ (∀ f, s.layout.passes r = true → r.parse s.layout.own = some f → 4 ≤ s.yard.line.pool.length →
          t.yard.line.pool = s.yard.line.pool ∧ t.yard.line.flags.poolFull = true
          ∧ t.yard.line.cnt = { s.yard.line.cnt with rxLost := min 255 (s.yard.line.cnt.rxLost + 1) })

/-- This station's own frame, not an OFFER, is carried at an opening that is no offer opening: SENT rises by one and the
block that placed it learns of it: a QUEUED seek entry goes to OPEN, and a HANDOVER in the sending phase counts one
attempt and starts the answer timer, of a seek entry as of an offer entry. An OFFER of this station wins its opening.
For a PUSH seek to a lane with room a HELD reservation with the seek reference, the fleet and its release is appended to
the lane's list, and a HELD offer entry with the offer hold time is entered. For an EXIT offer whose bus still stands
PARKED at the front of its lane the position becomes CALLED_OUT and a SENDING entry is entered. A won FUEL or WASH offer
appends a HELD reservation to the apron's or to its wash lane's list and enters a HELD offer entry, when there is room;
with no room a won offer leaves neither. A lane and the apron list a fleet once, for all its won offers: as the new
entry joins the tail an earlier HELD one leaves, and a COMMITTED one joins the tail with it as one entry, still
COMMITTED; a wash lane lists one entry for each won offer (the model's choice, log 41). The transmit queue: a request
whose frame finds a place and nothing waiting joins its tail, else the waiting list's; a free place goes to the oldest
waiting request, its frame formed then; a withdrawn request leaves the waiting list and the queue, but for the frame
being sent, which is marked. What the frames of the ten kinds carry: a SEEK its seek area, its exclusions and the
summary of the bus or duty as they stand; a HANDOVER to the winner the carried fields, that of a called-out bus with the
itinerary EXIT alone; a REPIN the pin that the pin table holds for the fleet. -/
def Obligations.OwnFrameCarriedIsReportedAndReserves : Prop :=
  (∀ (s : State) (x : TxSlot) (bits : List Bool), s.works → s.yard.line.following = true →
     s.yard.line.sendingSlot = some x → receiveFrame bits = some x.frame.raw →
     x.withdrawn = false → x.req.isOffer = false → s.yard.line.offerRef = none →
     ∃ t, exec (.frameCarried bits) s = .next t
       ∧ t.yard.line.cnt = { s.yard.line.cnt with sent := min 65535 (s.yard.line.cnt.sent + 1) }
       ∧ t.yard.line.txBits = [] ∧ t.yard.line.pool = s.yard.line.pool
       ∧ t.yard.line.nextOffer = x.frame.raw.opensOffers
       ∧ (∀ n en, x.req = .seek n → s.yard.seekEntry? n = some en → en.state = .queued →
           t.yard.seekEntry? n = some { en with state := .opened })
       ∧ (∀ n en, x.req = .handover n → s.yard.seekEntry? n = some en → en.state = .handing .sending →
           t.yard.seekEntry? n = some { en with
             state := .handing .awaiting, attempts := en.attempts + 1, timer := some s.layout.params.answerTime })
       ∧ (∀ ref f o, x.req = .exitHandover ref f → s.yard.exitOffer? ref f = some o → o.state = .sending →
           t.yard.exitOffer? ref f
             = some { o with attempts := o.attempts + 1, timer := some s.layout.params.answerTime })
       ∧ t.yard.lanes = s.yard.lanes ∧ t.yard.fuel = s.yard.fuel ∧ t.yard.points = s.yard.points
       ∧ t = { s with yard := t.yard })
  ∧ (∀ (s : State) (x : TxSlot) (bits : List Bool) (c : Choice) (n : Nat) (l : Lane), s.works →
       s.yard.line.following = true → s.yard.line.sendingSlot = some x → receiveFrame bits = some x.frame.raw →
       x.withdrawn = false → x.req.isOffer = true → s.yard.seek.choice = some c →
       (∀ r ∈ s.yard.line.offerRef, r.station ≠ s.layout.own) → c.resource = .lane n → s.yard.lane? n = some l →
       ∃ t, exec (.frameCarried bits) s = .next t ∧ t.yard.seek.choice = none
         ∧ (∀ m, m ≠ n → t.yard.lane? m = s.yard.lane? m)
         ∧ t.yard.fuel = s.yard.fuel ∧ t.yard.wash = s.yard.wash ∧ t.yard.points = s.yard.points
         ∧ t = { s with yard := t.yard }
         ∧ (c.service ≠ .exit →
             if l.positions.length + l.reservs.length < l.cfg.depth then
               t.yard.lane? n = some { l with
                 reservs := l.reservs.filter (·.fleet != c.fleet)
                   ++ [⟨c.ref, c.fleet, c.release, l.reservs.any fun q => q.committed && q.fleet == c.fleet⟩] }
               ∧ t.yard.seek.offers = s.yard.seek.offers
                 ++ [⟨c.ref, c.service, c.fleet, .lane n, c.cost, .held, some (1000 * s.layout.params.offerHold), 0⟩]
             else t.yard.lane? n = some l ∧ t.yard.seek.offers = s.yard.seek.offers)
         ∧ (∀ rest r, c.service = .exit → l.positions = ⟨c.fleet, .parked⟩ :: rest → s.yard.rec? c.fleet = some r →
             r.state = .parked → r.loc = .lane n →
             t.yard.lane? n = some { l with positions := ⟨c.fleet, .calledOut⟩ :: rest }
             ∧ t.yard.seek.offers = s.yard.seek.offers
                 ++ [⟨c.ref, .exit, c.fleet, .lane n, c.cost, .sending, none, 0⟩]))
  ∧ (∀ (s : State) (x : TxSlot) (bits : List Bool) (c : Choice), s.works → s.yard.line.following = true →
       s.yard.line.sendingSlot = some x → receiveFrame bits = some x.frame.raw → x.withdrawn = false →
       x.req.isOffer = true → s.yard.seek.choice = some c → c.service ≠ .exit →
       (∀ r ∈ s.yard.line.offerRef, r.station ≠ s.layout.own) →
       let entered : List OfferEntry := s.yard.seek.offers
         ++ [⟨c.ref, c.service, c.fleet, c.resource, c.cost, .held, some (1000 * s.layout.params.offerHold), 0⟩]
       ∃ t, exec (.frameCarried bits) s = .next t ∧ t.yard.seek.choice = none ∧ t = { s with yard := t.yard }
         ∧ (∀ f, c.resource = .apron f → t.yard.lanes = s.yard.lanes ∧ t.yard.wash = s.yard.wash
           ∧ (if s.yard.fuel.queue.length + s.yard.fuel.reservs.length < s.layout.islandCfg.capacity then
               t.yard.fuel = { s.yard.fuel with
                 reservs := s.yard.fuel.reservs.filter (·.fleet != c.fleet)
                   ++ [⟨c.ref, c.fleet, f, s.yard.fuel.reservs.any fun q => q.committed && q.fleet == c.fleet⟩] }
               ∧ t.yard.seek.offers = entered
             else t.yard.fuel = s.yard.fuel ∧ t.yard.seek.offers = s.yard.seek.offers))
         ∧ (∀ w l, c.resource = .wash w → s.yard.washLane? w = some l →
           t.yard.lanes = s.yard.lanes ∧ t.yard.fuel = s.yard.fuel
           ∧ (∀ v, v ≠ w → t.yard.washLane? v = s.yard.washLane? v)
           ∧ (if l.queue.length + l.reservs.length < l.cfg.depth then
               t.yard.washLane? w = some { l with reservs := l.reservs ++ [⟨c.ref, c.fleet⟩] }
               ∧ t.yard.seek.offers = entered
             else t.yard.wash = s.yard.wash ∧ t.yard.seek.offers = s.yard.seek.offers)))
  ∧ (∀ (e : Env) (y : Yard),
       let queued (q : List TxSlot) (w : List TxReq) : Yard := { y with line := { y.line with queue := q, waiting := w } }
       (∀ r, y.line.queue.length < 8 → y.line.waiting = [] → send e r y = (match buildFrame e y r with
         | some f => queued (y.line.queue ++ [⟨r, f, 0, false, false⟩]) []
         | none => y))
       ∧ (∀ r, (8 ≤ y.line.queue.length ∨ y.line.waiting ≠ []) →
         send e r y = queued y.line.queue (y.line.waiting ++ [r]))
       ∧ (∀ r rest, y.line.queue.length < 8 → y.line.waiting = r :: rest → refillTx e y = refillTx e (
         match buildFrame e y r with
         | some f => queued (y.line.queue ++ [⟨r, f, 0, false, false⟩]) rest
         | none => queued y.line.queue rest))
       ∧ ((8 ≤ y.line.queue.length ∨ y.line.waiting = []) → refillTx e y = y)
       ∧ (∀ p : TxReq → Bool, withdraw e p y = refillTx e (queued
         ((y.line.queue.filter fun x => x.sending || !p x.req).map fun x =>
           if p x.req then { x with withdrawn := true } else x)
         (y.line.waiting.filter fun r => !p r))))
  ∧ (∀ (e : Env) (y : Yard),
       let own := e.layout.own
       let area (f : StationCfg → Nat) : Nat := match e.layout.station with
         | some c => f c
         | none => 0
       (∀ n en f sv r, y.seekEntry? n = some en → en.subject = .bus f sv → y.rec? f = some r →
         buildFrame e y (.seek n) = some ⟨own, (match sv with
           | .fuel => .fuelGroup
           | .wash => .washGroup
           | _ => .berthGroup), ⟨own, n⟩, .seek (area (match sv with
             | .fuel => (·.seekFuel)
             | .wash => (·.seekWash)
             | .berth => (·.seekBerth)
             | .exit => (·.seekExit))) en.excl (.push sv ⟨r.bus.fleet, r.bus.cls, r.bus.fuel, r.bus.capacity,
               r.bus.level, r.bus.wash, r.bus.pin.map (·.release)⟩)⟩
         ∧ ∀ w, en.winner = some w → buildFrame e y (.handover n)
           = some ⟨own, .station w.station, ⟨own, n⟩, .handover r.bus⟩)
       ∧ (∀ n en d x, y.seekEntry? n = some en → en.subject = .duty d → y.duty? d = some x →
         buildFrame e y (.seek n) = some ⟨own, .berthGroup, ⟨own, n⟩, .seek (area (·.seekExit)) en.excl (.pull
           ⟨x.number, x.release, x.mask, x.fuel, x.minLevel,
             (y.gate.pins.find? (·.duty == d)).map (·.fleet)⟩)⟩)
       ∧ (∀ ref f r, y.rec? f = some r → buildFrame e y (.exitHandover ref f)
         = some ⟨own, .station ref.station, ref, .handover { r.bus with itinerary := [.exit] }⟩)
       ∧ (∀ ref c sv a g, buildFrame e y (.offer ref c sv a g) = some ⟨own, .station ref.station, ref, .offer c sv a g⟩)
       ∧ (∀ a q ref f, buildFrame e y (.answer a q ref f) = some ⟨own, .station q, ref, .answer a f⟩
         ∧ buildFrame e y (.claim q ref f) = some ⟨own, .station q, ref, .claim f⟩
         ∧ buildFrame e y (.cancel q ref f) = some ⟨own, .station q, ref, .cancel f⟩)
       ∧ (∀ f p x, y.gate.pins.find? (·.fleet == f) = some p → y.duty? p.duty = some x →
         buildFrame e y (.repin f) = some ⟨own, .all, ⟨own, 0⟩, .repin f (some ⟨x.number, x.release⟩)⟩)
       ∧ (∀ f, y.gate.pins.find? (·.fleet == f) = none →
         buildFrame e y (.repin f) = some ⟨own, .all, ⟨own, 0⟩, .repin f none⟩)
       ∧ (∀ m, buildFrame e y (.time m) = some ⟨own, .all, ⟨own, 0⟩, .time m⟩))

/-- Damaged frames. A followed frame that this station finds damaged, by a stuff error or its CRC when it is
complete, or cut off, raises CRC_BAD by one and is discarded, and the check slot of a complete one is driven
dominant; one that it reads as good, with its check slot driven by another station, is discarded uncounted. Five
equal bits in a row, of either level and at any place from the start mark on, are a stuff error. Its own damaged
frame raises TX_DAMAGED by one (CRC_BAD stays: the model's choice, log 18) and the opening ends. Before the third
damaged send the frame stays in its place for a resend. At the third it leaves the queue, whose free place goes to a
waiting request, raises TX_DROPPED, sets TX_FAIL, and its block is told DROPPED; an OFFER leaves it at its first,
raising TX_DROPPED alone; one that was withdrawn meanwhile just leaves it (the model's choice, log 42). The lanes,
pumps, wash lanes, points and signs are as before. With the line quiet for its begin time after START the station
begins to follow the line; nothing else changes. -/
def Obligations.FollowingBeginsAndDamagedFramesAreCounted : Prop :=
  (∀ s : State, s.works → s.yard.line.following = true →
     let kept (t : State) : Prop := t.yard.lanes = s.yard.lanes ∧ t.yard.fuel = s.yard.fuel
       ∧ t.yard.wash.lanes = s.yard.wash.lanes ∧ t.yard.points = s.yard.points ∧ t.yard.signs = s.yard.signs
       ∧ t = { s with yard := t.yard }
     let badOne : LineCounters := { s.yard.line.cnt with crcBad := min 65535 (s.yard.line.cnt.crcBad + 1) }
     (s.yard.line.sendingSlot = none →
       (∀ bits driven, receiveFrame bits = none → ∃ t, exec (.frameDamaged (.complete bits driven)) s = .next t ∧ kept t
         ∧ t.yard.line.pool = s.yard.line.pool ∧ t.yard.line.cnt = badOne ∧ t.yard.line.checkSlot = true)
       ∧ (∃ t, exec (.frameDamaged .cutOff) s = .next t ∧ kept t
         ∧ t.yard.line.pool = s.yard.line.pool ∧ t.yard.line.cnt = badOne ∧ t.yard.line.checkSlot = false)
       ∧ (∀ bits r, receiveFrame bits = some r → ∃ t, exec (.frameDamaged (.complete bits true)) s = .next t ∧ kept t
         ∧ t.yard.line.pool = s.yard.line.pool ∧ t.yard.line.cnt = s.yard.line.cnt
         ∧ t.yard.line.checkSlot = false))
     ∧ (∀ a x b, s.yard.line.queue = a ++ x :: b → (∀ z ∈ a, z.sending = false) → x.sending = true →
         let damaged (queue : List TxSlot) : Yard := { s.yard with line := { s.yard.line with
           queue := queue, txBits := []
           cnt := { s.yard.line.cnt with txDamaged := min 65535 (s.yard.line.cnt.txDamaged + 1) } } }
         let left : Yard := refillTx s.env (damaged (a ++ b))
         let dropped : Yard := { left with line := { left.line with
           cnt := { left.line.cnt with txDropped := min 65535 (left.line.cnt.txDropped + 1) } } }
         let ends (y : Yard) : Prop :=
           let t : State := { s with yard := settle s.env (endOpening s.env none false y) }
           exec .sendDamaged s = .next t ∧ kept t ∧ t.yard.line.txBits = [] ∧ t.yard.line.cnt = y.line.cnt
         (x.withdrawn = false → x.req.isOffer = false → x.sends < 2 →
           ends (damaged (a ++ { x with sends := x.sends + 1, sending := false } :: b)))
         ∧ (x.withdrawn = false → x.req.isOffer = false → 2 ≤ x.sends →
           ends (reportDropped s.env x.req (setFlag s.env .txFail dropped)))
         ∧ (x.withdrawn = false → x.req.isOffer = true → ends dropped)
         ∧ (x.withdrawn = true → ends left)))
  ∧ (∀ pre b rest, receiveFrame (pre ++ List.replicate 5 b ++ rest) = none)
  ∧ (∀ s : State, s.works → exec .lineFollowBegin s
       = .next { s with yard := { s.yard with line := { s.yard.line with following := true } } })

/-! ## Frames taken from the receive pool -/

/-- A SEEK. The custody check of a PUSH SEEK: with its bus held here in a confirmed state a CLAIM goes to the SEEK's
source and no offer is made; with it held in another state the copy is dropped, with CLAIM_CONFLICT raised before its
entries end (an order that is the model's choice, log 30), and the SEEK is handled as if the bus had not been held.
Then, with the station not excluded and a free offer entry: of the candidates of the block that serves it, the one of
the lowest raw cost, and among equal ones the earliest, is offered at min(raw, 4095), and the choice is kept for the
win; with the transmit queue full the OFFER is not made, and OFFER_UNSENT rises by one. SATURATED is set when the clamp
changed the cost, whether or not the OFFER found a place. With the station excluded, 8 offer entries, or no candidate,
no OFFER is made. -/
def Obligations.ASeekIsAnsweredWithTheCheapestOffer : Prop :=
  ∀ (s : State) (f : Frame) (area : Nat) (excl : List Nat) (what : Summary), s.works →
    s.yard.line.pool.find? (·.body.isSeek) = some f → f.body = .seek area excl what →
    let y : Yard := { s.yard with line := { s.yard.line with pool := dropFirst (·.body.isSeek) s.yard.line.pool } }
    let decided (z : Yard) : Prop :=
      (∀ before c after, s.layout.own ∉ excl → z.seek.offers.length < 8 → candidates s.env z what = before ++ c :: after →
        (∀ d ∈ before, c.raw < d.raw) → (∀ d ∈ after, c.raw ≤ d.raw) →
        let clamped : Yard := { z with saturated := z.saturated || decide (4095 < c.raw) }
        let req : TxReq := .offer f.ref (min c.raw 4095) what.service c.area c.fleet
        (z.line.queue.length < 8 → exec .seekReceived s = .next { s with yard := settle s.env { clamped with
          line := { z.line with queue := z.line.queue ++
            [⟨req, ⟨s.layout.own, .station f.ref.station, f.ref,
                .offer (min c.raw 4095) what.service c.area c.fleet⟩, 0, false, false⟩] }
          seek := { z.seek with choice := some (match what with
            | .push sv b => ⟨f.ref, sv, b.fleet, c.resource, min c.raw 4095, b.release⟩
            | .pull _ => ⟨f.ref, .exit, c.fleet.getD 0, c.resource, min c.raw 4095, none⟩) } } })
        ∧ (8 ≤ z.line.queue.length → exec .seekReceived s = .next { s with yard := settle s.env { clamped with
            line := { z.line with cnt := { z.line.cnt with
              offerUnsent := min 65535 (z.line.cnt.offerUnsent + 1) } } } }))
      ∧ ((s.layout.own ∈ excl ∨ 8 ≤ z.seek.offers.length ∨ candidates s.env z what = []) →
          exec .seekReceived s = .next { s with yard := settle s.env z })
    ((∀ sv b, what = .push sv b → s.yard.rec? b.fleet = none) → decided y)
    ∧ (∀ sv b r, what = .push sv b → s.yard.rec? b.fleet = some r →
        let unconfirmed : Prop := r.state = .expected ∨ r.state = .outbound ∨ r.state = .stray ∨ r.state = .adrift
        (¬ unconfirmed → exec .seekReceived s
          = .next { s with yard := settle s.env (send s.env (.claim f.source f.ref b.fleet) y) })
        ∧ (unconfirmed → decided (removeRec b.fleet (endEntries s.env r
            (notify s.env .claimConflict (some b.fleet) none [r.state.code] y)))))

/-- The candidates for a BERTH seek are the OPEN lanes that admit the bus's class and have a free place, each at its raw
placement cost: the blocking weight times the minutes by which occupants leave after the bus, a quarter of the tail gap,
the slack weight times the places left, and the bias. The candidates for an EXIT seek are the PARKED fronts of the lanes
not CLOSED whose record is PARKED and fits the duty's classes, fuel and minimum level, each at its base and additions:
base 0 for the duty's own bus, 256 for a spare, and 1024 and more for a bus of another duty, the later that duty the
less; 64 more for a wash still wanted, 128 more after a partial fill or a deferral. The candidate for a FUEL seek is the
island, with a pump of the bus's type not OUT, room on the apron and a fill target of at least the minimum fill (with
the largest maximum per turn of those pumps: the model's choice, log 19), at four times the wait and the bias: the wait
shares the fill minutes of the turns ahead, at the lowest rate, and the remaining minutes of the turns in progress among
the pumps of the type, rounded up. The candidates for a WASH seek are the lanes not OUT with room for which an enabled
programme not above the wanted one ends, the wait and the margin counted, within the slack, each at four times its wait
in minutes and its bias. The downgrade test gives the highest such programme, NONE when there is none. Which bit of the
mask enables which programme is the model's choice (log 53). -/
def Obligations.CandidatesAndTheirCosts : Prop :=
  (∀ (e : Env) (y : Yard) (b : BusSummary) (c : Candidate),
     let p := e.layout.params
     let r := b.release.getD p.spareRelease
     c ∈ berthCandidates e y b ↔ ∃ l ∈ y.lanes, ∃ rs : List Nat,
       rs = l.positions.map (fun q => match q.state with
             | .leaving x => x.getD p.spareRelease
             | _ => (y.releaseOf q.fleet).getD p.spareRelease)
           ++ l.reservs.map (fun q => q.release.getD p.spareRelease)
       ∧ l.closed = false ∧ l.blocked = false ∧ l.cfg.mask.getLsbD b.cls = true ∧ rs.length < l.cfg.depth
       ∧ c.resource = .lane l.cfg.number ∧ c.area = l.cfg.area ∧ c.fleet = none
       ∧ c.raw = p.wB * (rs.map fun x => if r < x then x - r else 0).sum
           + (if h : rs = [] then p.gEmpty else if rs.getLast h < r then r - rs.getLast h else 0) / 4
           + p.wS * (l.cfg.depth - rs.length - 1) + l.cfg.bias)
  ∧ (∀ (y : Yard) (d : DutySummary) (c : Candidate),
       c ∈ exitCandidates y d ↔ ∃ l ∈ y.lanes, ∃ f rest r, l.closed = false ∧ l.positions = ⟨f, .parked⟩ :: rest
         ∧ y.rec? f = some r ∧ r.state = .parked ∧ d.mask.getLsbD r.bus.cls = true ∧ r.bus.fuel = d.fuel
         ∧ d.minLevel ≤ r.bus.level
         ∧ c.resource = .lane l.cfg.number ∧ c.area = l.cfg.area ∧ c.fleet = some f
         ∧ c.raw = (match r.bus.pin with
             | none => if d.pinned = some r.bus.fleet then 0 else 256
             | some p =>
               if d.pinned = some r.bus.fleet ∨ p.duty = d.duty then 0
               else 1024 + (720 - ((p.release : Int) - d.release)).toNat)
           + (if r.bus.wash ≠ .noWash ∧ r.bus.washMark ≠ .done then 64 else 0)
           + (if r.bus.fuelMark = .partly ∨ r.bus.fuelMark = .deferred then 128 else 0))
  ∧ (∀ (e : Env) (y : Yard) (b : BusSummary) (c : Candidate),
       let k := e.layout.islandCfg
       let pumps := y.fuel.pumps.filter fun p => p.cfg.fuel == b.fuel && p.state != .out
       let s := slackOf e.minute b.release
       let stock := (y.fuel.account b.fuel).stock
       let minutes (target rate : Nat) : Nat := (target + rate - 1) / rate + 1
       (pumps = [] → fuelCandidates e y b = [])
       ∧ ∀ largest ∈ pumps.map (·.cfg.maxTurn), (∀ p ∈ pumps, p.cfg.maxTurn ≤ largest) →
         ∀ lowest ∈ pumps.map (·.cfg.rate), (∀ p ∈ pumps, lowest ≤ p.cfg.rate) →
         let target := min (min (b.capacity * (100 - b.level)) largest)
           (if s ≤ k.horizon then stock else stock - k.reserve b.fuel)
         let ahead := y.fuel.queue.filter fun x => x.fuel == b.fuel && decide (x.level ≤ min 7 (s / k.levelStep))
         let q := (ahead.map fun x => minutes x.target lowest).sum
         let r := (pumps.map fun p => match p.turn with
           | some u => if p.state = .free then 0 else minutes u.target p.cfg.rate - u.sinceCall / 60000
           | none => 0).sum
         c ∈ fuelCandidates e y b ↔ b.fuel ≠ .noFuel ∧ y.fuel.queue.length + y.fuel.reservs.length < k.capacity
           ∧ k.minFill ≤ target ∧ c.resource = .apron b.fuel ∧ c.area = k.area ∧ c.fleet = none
           ∧ c.raw = 4 * ((q + r + pumps.length - 1) / pumps.length) + k.bias)
  ∧ (∀ (e : Env) (y : Yard) (b : BusSummary) (c : Candidate),
       c ∈ washCandidates e y b ↔ ∃ l ∈ y.wash.lanes, ∃ x p,
         x = (match l.called, l.state with
             | some z, .calling | some z, .loading | some z, .starting => l.estimate z.prog
             | some z, .washing => l.estimate z.prog - l.washMs / 1000 * 16 / 60
             | _, _ => 0) + (l.queue.map fun z => l.estimate z.prog).sum
         ∧ l.state ≠ .out ∧ l.queue.length + l.reservs.length < l.cfg.depth
         ∧ p ≠ .noWash ∧ p.code ≤ b.wash.code ∧ l.cfg.enables p = true
         ∧ (x + l.estimate p + 15) / 16 + l.cfg.margin ≤ slackOf e.minute b.release
         ∧ c.resource = .wash l.cfg.index ∧ c.area = l.cfg.area ∧ c.fleet = none
         ∧ c.raw = 4 * ((x + 15) / 16) + l.cfg.bias)
  ∧ (∀ (l : WashLane) (wanted : Prog) (x s : Nat),
       let fits (p : Prog) : Prop := p ≠ .noWash ∧ p.code ≤ wanted.code ∧ l.cfg.enables p = true
         ∧ (x + l.estimate p + 15) / 16 + l.cfg.margin ≤ s
       (l.downgrade wanted x s = .noWash ↔ ∀ p, ¬ fits p)
       ∧ (l.downgrade wanted x s ≠ .noWash → fits (l.downgrade wanted x s)
         ∧ ∀ p, fits p → p.code ≤ (l.downgrade wanted x s).code))

/-- An OFFER for this station's seek. An OPEN PUSH entry takes it as its winner: the entry goes to HANDING in the
sending phase, the record leaves the seeking list for HANDING, and the HANDOVER is queued. An OPEN PULL entry makes the
custody check of the offered fleet: not held here, the entry goes to AWAITING with the offer hold running; held in a
confirmed state, a CLAIM goes to the offer's source, which the entry excludes to seek again at once; held in another
state, the copy is dropped, with CLAIM_CONFLICT raised before its entries end (an order that is the model's choice, log
30), and the offer is taken. With no entry in OPEN of that number the OFFER is answered with a CANCEL that carries the
offered fleet, or the fleet the number was given for (also where the SEEK was withdrawn while it was being sent and was
carried: the model's choice, log 63); a CLAIM, or the drop, that the custody check of the offered fleet brings goes
before it. -/
def Obligations.AnOfferIsTakenOrCancelled : Prop :=
  ∀ (s : State) (q n cost area : Nat) (sv : Service) (fleet : Option Nat) (d : Dest), s.works →
    s.yard.line.head = some ⟨q, d, ⟨s.layout.own, n⟩, .offer cost sv area fleet⟩ →
    let unconfirmed (r : Record) : Prop :=
      r.state = .expected ∨ r.state = .outbound ∨ r.state = .stray ∨ r.state = .adrift
    let claimed (g : Nat) : Yard := send s.env (.claim q ⟨s.layout.own, n⟩ g) (dropHead s.yard)
    let dropped (g : Nat) (r : Record) : Yard := removeRec g (endEntries s.env r
      (notify s.env .claimConflict (some g) none [r.state.code] (dropHead s.yard)))
    (∀ en f svc, s.yard.seekEntry? n = some en → en.state = .opened → en.subject = .bus f svc →
      let y := onRec f (fun r => { r with state := .handing })
        (onSeek n (fun x => { x with
          winner := some ⟨q, cost, area⟩, state := .handing .sending, attempts := 0, timer := none }) (dropHead s.yard))
      exec .offerReceived s = .next { s with
        yard := settle s.env (send s.env (.handover n) { y with seeking := s.yard.seeking.filter (· != f) }) })
    ∧ (∀ en dn g, s.yard.seekEntry? n = some en → en.state = .opened → en.subject = .duty dn → fleet = some g →
      let taken (y : Yard) : State := { s with
        yard := settle s.env (onSeek n (fun x => { x with
          winner := some ⟨q, cost, area⟩, offered := some g, state := .awaiting
          timer := some (1000 * s.layout.params.offerHold) }) y) }
      (s.yard.rec? g = none → exec .offerReceived s = .next (taken (dropHead s.yard)))
      ∧ (∀ r, s.yard.rec? g = some r → ¬ unconfirmed r → exec .offerReceived s = .next { s with
          yard := settle s.env (newRound s.env n (onSeek n (fun x => { x with
            excl := addExcl q x.excl, winner := none, attempts := 0, offered := none, state := .waitRetry
            timer := none }) (claimed g))) })
      ∧ (∀ r, s.yard.rec? g = some r → unconfirmed r → exec .offerReceived s = .next (taken (dropped g r))))
    ∧ (∀ g, (∀ en, s.yard.seekEntry? n = some en → en.state ≠ .opened) →
      let cancelled (y : Yard) : State := { s with
        yard := settle s.env (send s.env (.cancel q ⟨s.layout.own, n⟩ g) y) }
      (((fleet = some g ∧ s.yard.rec? g = none)
          ∨ (fleet = none ∧ ∃ k, s.yard.seek.given.find? (·.1 == n) = some (k, g))) →
        exec .offerReceived s = .next (cancelled (dropHead s.yard)))
      ∧ (∀ r, fleet = some g → s.yard.rec? g = some r → ¬ unconfirmed r →
        exec .offerReceived s = .next (cancelled (claimed g)))
      ∧ (∀ r, fleet = some g → s.yard.rec? g = some r → unconfirmed r →
        exec .offerReceived s = .next (cancelled (dropped g r))))

/-- A TAKEN that matches a PUSH handover ends it: the HANDOVER is withdrawn, the seek entry goes, the record is retired,
and the direction sign at the bus's location shows the winner's area and the service. A TAKEN from the gate for a
called-out bus makes its position LEAVING and retires its record. The state of a position changes in its place, that of
the lane's first position of the fleet that is PARKED or CALLED_OUT: to PARKED again, or to LEAVING with the release its
record holds at that moment; the other positions stay, and a LEAVING one is not changed again. -/
def Obligations.TakenEndsTheHandover : Prop :=
  (∀ (e : Env) (n f : Nat) (st : PosState) (y : Yard) (l : Lane), y.lane? n = some l →
     let t := setPosition e n f st y
     (∀ before p after, l.positions = before ++ p :: after → p.fleet = f → (p.state = .parked ∨ p.state = .calledOut) →
       (∀ z ∈ before, z.fleet = f → ∃ r, z.state = .leaving r) →
       t.lane? n = some { l with positions := before ++ ⟨f, st⟩ :: after })
     ∧ ((∀ z ∈ l.positions, z.fleet = f → ∃ r, z.state = .leaving r) → t.lane? n = some l)
     ∧ (∀ m, m ≠ n → t.lane? m = y.lane? m) ∧ t = { y with lanes := t.lanes, signs := t.signs }
     ∧ leavePosition e n f y = setPosition e n f
         (.leaving ((y.rec? f).bind fun r => r.bus.pin.map fun p => p.release)) y)
  ∧ ∀ (s : State) (q f : Nat) (ref : SeekRef) (d : Dest), s.works →
    s.yard.line.head = some ⟨q, d, ref, .answer .taken f⟩ →
    (∀ en sv w r ph, ref.station = s.layout.own → s.yard.seekEntry? ref.number = some en → en.subject = .bus f sv →
      en.winner = some w → w.station = q → en.state = .handing ph → s.yard.rec? f = some r →
      let y := removeRec f (removeSeek ref.number
        (withdraw s.env (fun x => x == .handover ref.number) (dropHead s.yard)))
      exec .takenReceived s = .next { s with yard := settle s.env (match r.loc with
        | .gate => setSign s.env 48 (destCode w.area sv) y
        | .pump p => setSign s.env (36 + p) (destCode w.area sv) y
        | .wash l => setSign s.env (42 + l) (destCode w.area sv) y
        | _ => y) })
    ∧ (∀ o l, ref.station ≠ s.layout.own → s.yard.exitOffer? ref f = some o → ref.station = q →
      o.resource = .lane l → exec .takenReceived s = .next { s with yard := settle s.env (removeRec f
        (removeOffer false ref f (withdraw s.env (fun x => x == .exitHandover ref f)
          (leavePosition s.env l f (dropHead s.yard))))) })

/-- A HOLD that matches a PUSH handover below its attempts starts the hold interval; at its attempts the handover has
failed. A REFUSE excludes the winner: the record returns to the tail of the seeking list, and the entry takes a new seek
number with its new SEEK queued. Neither raises a notice below the attempts. For a called-out bus's handover, matched by
the seek's station, seek reference and fleet: a HOLD below the attempts pauses the entry for the hold interval, its
HANDOVER withdrawn; a HOLD at the attempts is a failed handover, with HANDOVER_FAILED naming the gate; at it, and at a
REFUSE, which raises no notice, the position returns to PARKED and the entry goes. -/
def Obligations.HoldPausesAndRefuseExcludes : Prop :=
  (∀ (s : State) (q f n : Nat) (a : Answer) (d : Dest) (en : SeekEntry) (sv : Service) (w : Winner) (ph : HandPhase),
    s.works → s.yard.line.head = some ⟨q, d, ⟨s.layout.own, n⟩, .answer a f⟩ → s.yard.seekEntry? n = some en →
    en.subject = .bus f sv → en.winner = some w → w.station = q → en.state = .handing ph →
    let y := withdraw s.env (fun x => x == .handover n) (dropHead s.yard)
    (a = .hold → en.attempts < s.layout.params.attempts → exec .holdReceived s
      = .next { s with yard := settle s.env (onSeek n (fun x => { x with
          state := .handing .pausing, timer := some (1000 * s.layout.params.holdInterval) }) y) })
    ∧ (a = .hold → s.layout.params.attempts ≤ en.attempts → exec .holdReceived s
      = .next { s with yard := settle s.env (handoverFailed s.env n y) })
    ∧ (a = .refuse → exec .refuseReceived s = .next { s with yard := settle s.env (
        newRound s.env n (onSeek n (fun x => { x with
            excl := addExcl q x.excl, winner := none, attempts := 0, offered := none, state := .waitRetry, timer := none })
          (enterSeeking f y))) }))
  ∧ (∀ (s : State) (q f l : Nat) (ref : SeekRef) (a : Answer) (d : Dest) (o : OfferEntry), s.works →
      s.yard.line.head = some ⟨q, d, ref, .answer a f⟩ → ref.station ≠ s.layout.own →
      s.yard.exitOffer? ref f = some o → ref.station = q → o.resource = .lane l →
      let parked (y : Yard) : Yard := setPosition s.env l f .parked
        (removeOffer false ref f (withdraw s.env (fun x => x == .exitHandover ref f) y))
      (a = .hold → o.attempts < s.layout.params.attempts → exec .holdReceived s
        = .next { s with yard := settle s.env (onOffer false ref f (fun x => { x with
            state := .paused, timer := some (1000 * s.layout.params.holdInterval) })
            (withdraw s.env (fun x => x == .exitHandover ref f) (dropHead s.yard))) })
      ∧ (a = .hold → s.layout.params.attempts ≤ o.attempts → exec .holdReceived s
        = .next { s with yard := settle s.env (parked
            (notify s.env .handoverFailed (some f) none [q] (dropHead s.yard))) })
      ∧ (a = .refuse → exec .refuseReceived s = .next { s with yard := settle s.env (parked (dropHead s.yard)) }))

/-- A TAKEN, HOLD or REFUSE that matches neither a seek entry in HANDING nor an offer entry in SENDING or PAUSED is
stale: it is ignored and STALE_ANSWERS rises by one, stopping at 65535. -/
def Obligations.AStaleAnswerIsCountedAndIgnored : Prop :=
  ∀ (s : State) (q f : Nat) (ref : SeekRef) (d : Dest) (a : Answer) (i : Instr), s.works →
    s.yard.line.head = some ⟨q, d, ref, .answer a f⟩ →
    i = (match a with
      | .taken => .takenReceived
      | .hold => .holdReceived
      | .refuse => .refuseReceived) →
    ¬ (∃ en sv w ph, ref.station = s.layout.own ∧ s.yard.seekEntry? ref.number = some en ∧ en.subject = .bus f sv
      ∧ en.winner = some w ∧ w.station = q ∧ en.state = .handing ph) →
    ¬ (∃ o, s.yard.exitOffer? ref f = some o ∧ ref.station = q) →
    exec i s = .next { s with yard := settle s.env { dropHead s.yard with
      cnt := { s.yard.cnt with stale := min 65535 (s.yard.cnt.stale + 1) } } }

/-- A HANDOVER for a HELD offer entry. When the serving block takes the bus and the record and its expectation find
room: TAKEN, a record EXPECTED at the resource, the reservation committed, the entry gone, the round on the taken list.
When the table or the expectation queue is full: HOLD, and the offer hold restarts with the hold interval added. When
the block refuses the bus, or its fleet is held: REFUSE, and the reservation and the entry go. The serving block takes a
bus: a lane not CLOSED when no lane has a LEAVING position of the fleet; the apron with a pump of the type not OUT; a
wash lane not OUT with an enabled programme not above the wanted one; and a late HANDOVER only with room, as a live one
whose fleet has no place left in the list of the lane or apron (the model's choice, log 41). The commitment: the fleet's
entry of that list becomes COMMITTED in its place; for a late HANDOVER, and where the fleet has none, a COMMITTED entry
is appended, and an earlier one of the fleet leaves. On a wash lane the reservation of that seek reference goes, the bus
joins the queue's tail with no skips, at the highest enabled programme not above the wanted one, and the lane calls. An
expectation finds no place with 8 in the queue, or with the fleet expected at some point; else it joins the tail, with
its travel time except at WASH_IN. Removing it, and moving it to the tail, leaves the other entries as they are. -/
def Obligations.AHandoverForALiveOfferIsAnswered : Prop :=
  (∀ (s : State) (q : Nat) (ref : SeekRef) (b : Carried) (d : Dest) (o : OfferEntry), s.works →
    s.yard.line.head = some ⟨q, d, ref, .handover b⟩ → s.yard.heldOffer? ref b.fleet = some o →
    let y := dropHead s.yard
    let givenUp := removeOffer true ref b.fleet (releaseRes o.resource ref b.fleet y)
    let held := onOffer true ref b.fleet (fun x => { x with
      timer := some (1000 * (s.layout.params.offerHold + s.layout.params.holdInterval)) }) y
    let pushed := pushExpect s.env o.resource.point.1 o.resource.point.2.1 b.fleet o.resource.point.2.2
      (addRec ⟨b, .expected, o.resource.loc⟩ y)
    (∀ y', commitTest s.env o.resource b false y = true → s.yard.rec? b.fleet = none → s.yard.records.length < 96 →
      pushed = some y' → exec .handoverReceived s = .next { s with yard := settle s.env (
        send s.env (.answer .taken q ref b.fleet) (noteTaken ref b.fleet (removeOffer true ref b.fleet
          (commitRes s.env o.resource ref b false y')))) })
    ∧ (commitTest s.env o.resource b false y = true → s.yard.rec? b.fleet = none →
        (96 ≤ s.yard.records.length ∨ pushed = none) → exec .handoverReceived s
          = .next { s with yard := settle s.env (send s.env (.answer .hold q ref b.fleet) held) })
    ∧ ((commitTest s.env o.resource b false y = false ∨ (s.yard.rec? b.fleet).isSome = true) →
        exec .handoverReceived s
          = .next { s with yard := settle s.env (send s.env (.answer .refuse q ref b.fleet) givenUp) }))
  ∧ (∀ (e : Env) (b : Carried) (late : Bool) (y : Yard),
       (∀ n, commitTest e (.lane n) b late y = true ↔ ∃ l, y.lane? n = some l ∧ l.closed = false
         ∧ (∀ m ∈ y.lanes, ∀ p ∈ m.positions, ∀ r, p.state = .leaving r → p.fleet ≠ b.fleet)
         ∧ (l.positions.length + l.reservs.length < l.cfg.depth ∨ late = false ∧ ∃ q ∈ l.reservs, q.fleet = b.fleet))
       ∧ (∀ f, commitTest e (.apron f) b late y = true ↔ (∃ p ∈ y.fuel.pumps, p.cfg.fuel = f ∧ p.state ≠ .out)
         ∧ (y.fuel.queue.length + y.fuel.reservs.length < e.layout.islandCfg.capacity
           ∨ late = false ∧ ∃ q ∈ y.fuel.reservs, q.fleet = b.fleet))
       ∧ (∀ w, commitTest e (.wash w) b late y = true ↔ ∃ l, y.washLane? w = some l ∧ l.state ≠ .out
         ∧ (∃ p, p ≠ .noWash ∧ p.code ≤ b.wash.code ∧ l.cfg.enables p = true)
         ∧ (late = true → l.queue.length + l.reservs.length < l.cfg.depth)))
  ∧ (∀ (e : Env) (ref : SeekRef) (b : Carried) (late : Bool) (y : Yard),
       (∀ n l, y.lane? n = some l →
         let t := commitRes e (.lane n) ref b late y
         let becomes (rs : List LaneRes) : Prop := t.lane? n = some { l with reservs := rs }
         let place : LaneRes := ⟨ref, b.fleet, b.pin.map (·.release), true⟩
         (∀ before q after, late = false → l.reservs = before ++ q :: after → q.fleet = b.fleet →
           (∀ z ∈ before, z.fleet ≠ b.fleet) → becomes (before ++ place :: after))
         ∧ ((late = true ∨ ∀ q ∈ l.reservs, q.fleet ≠ b.fleet) →
           becomes (l.reservs.filter (·.fleet != b.fleet) ++ [place]))
         ∧ (∀ m, m ≠ n → t.lane? m = y.lane? m) ∧ t = { y with lanes := t.lanes })
       ∧ (∀ f,
         let becomes (rs : List ApronRes) : Prop :=
           commitRes e (.apron f) ref b late y = { y with fuel := { y.fuel with reservs := rs } }
         let place : ApronRes := ⟨ref, b.fleet, f, true⟩
         (∀ before q after, late = false → y.fuel.reservs = before ++ q :: after → q.fleet = b.fleet →
           (∀ z ∈ before, z.fleet ≠ b.fleet) → becomes (before ++ place :: after))
         ∧ ((late = true ∨ ∀ q ∈ y.fuel.reservs, q.fleet ≠ b.fleet) →
           becomes (y.fuel.reservs.filter (·.fleet != b.fleet) ++ [place])))
       ∧ (∀ w l r, y.washLane? w = some l → y.rec? b.fleet = some r →
         let joined (rs : List WashRes) : Prop := commitRes e (.wash w) ref b late y = washCall e w { y with
           wash := { y.wash with lanes := updFirst (·.cfg.index == w) (fun l => { l with
             reservs := rs, queue := l.queue ++ [⟨b.fleet, l.cfg.joinProg r.bus.wash, 0⟩] }) y.wash.lanes } }
         (∀ before q after, l.reservs = before ++ q :: after → q.ref = ref → q.fleet = b.fleet →
           (∀ z ∈ before, ¬ (z.ref = ref ∧ z.fleet = b.fleet)) → joined (before ++ after))
         ∧ ((∀ z ∈ l.reservs, ¬ (z.ref = ref ∧ z.fleet = b.fleet)) → joined l.reservs)))
  ∧ (∀ (c : WashCfg) (wanted : Prog),
       let p := c.joinProg wanted
       (p ≠ .noWash → c.enables p = true ∧ p.code ≤ wanted.code)
       ∧ ∀ q, q ≠ .noWash → c.enables q = true → q.code ≤ wanted.code → q.code ≤ p.code)
  ∧ (∀ (e : Env) (k : PointKind) (i f : Nat) (y : Yard),
       let second (timed : Bool) : Option Nat := if timed then some (e.second + 60 * e.layout.params.travel) else none
       (∀ timed, y.point? k i = none → pushExpect e k i f timed y = none)
       ∧ (∀ p timed, y.point? k i = some p → (8 ≤ p.queue.length ∨ ∃ q ∈ y.points, ∃ x ∈ q.queue, x.fleet = f) →
         pushExpect e k i f timed y = none)
       ∧ (∀ p timed, y.point? k i = some p → p.queue.length < 8 → (∀ q ∈ y.points, ∀ x ∈ q.queue, x.fleet ≠ f) →
         pushExpect e k i f timed y = some (onQueue e k i (· ++ [⟨f, second timed⟩]) y))
       ∧ removeExpect e k i f y = onQueue e k i (·.filter fun x => x.fleet != f) y
       ∧ tailExpect e k i f y = onQueue e k i (fun q =>
         q.filter (fun x => x.fleet != f) ++ q.filter (fun x => x.fleet == f)) y
       ∧ (∀ g p, y.point? k i = some p → let t := onQueue e k i g y
         t.point? k i = some { p with queue := g p.queue }
         ∧ (∀ k' i', ¬ (k' = k ∧ i' = i) → t.point? k' i' = y.point? k' i')
         ∧ t = { y with points := t.points, signs := t.signs }))

/-- A HANDOVER for no live offer and no AWAITING entry. A repeat of a round taken whose record is still held is answered
TAKEN again with nothing else changed. A late one for a lapsed item that the block takes with room is TAKEN like a live
one, and the item goes. A late one that the block does not take is answered REFUSE, its item goes and UNRELATED is set;
one that the block takes, of a fleet held, is answered REFUSE and its item goes; with the table or the expectation queue
full it is answered HOLD and nothing else changes. One that matches nothing is answered REFUSE, and UNRELATED is set. -/
def Obligations.LateRepeatedAndUnrelatedHandovers : Prop :=
  ∀ (s : State) (q : Nat) (ref : SeekRef) (b : Carried) (d : Dest), s.works →
    s.yard.line.head = some ⟨q, d, ref, .handover b⟩ →
    s.yard.heldOffer? ref b.fleet = none →
    (ref.station = s.layout.own → ∀ en, s.yard.seekEntry? ref.number = some en → en.state ≠ .awaiting) →
    let y := dropHead s.yard
    (s.yard.seek.taken.contains ⟨ref, b.fleet⟩ = true → (s.yard.rec? b.fleet).isSome = true →
      exec .handoverReceived s = .next { s with yard := settle s.env (send s.env (.answer .taken q ref b.fleet) y) })
    ∧ (∀ i y', s.yard.rec? b.fleet = none → s.yard.records.length < 96 →
      s.yard.seek.lapsed.find? (fun i => i.ref == ref && i.fleet == b.fleet) = some i →
      commitTest s.env i.resource b true y = true →
      pushExpect s.env i.resource.point.1 i.resource.point.2.1 b.fleet i.resource.point.2.2
        (addRec ⟨b, .expected, i.resource.loc⟩ y) = some y' →
      exec .handoverReceived s = .next { s with yard := settle s.env (send s.env (.answer .taken q ref b.fleet)
        (noteTaken ref b.fleet (dropLapsed ref b.fleet (commitRes s.env i.resource ref b true y')))) })
    ∧ (∀ i, (s.yard.seek.taken.contains ⟨ref, b.fleet⟩ = false ∨ s.yard.rec? b.fleet = none) →
      s.yard.seek.lapsed.find? (fun i => i.ref == ref && i.fleet == b.fleet) = some i →
      let answered (a : Answer) (z : Yard) : State := { s with
        yard := settle s.env (send s.env (.answer a q ref b.fleet) z) }
      (commitTest s.env i.resource b true y = false →
        exec .handoverReceived s = .next (answered .refuse (setFlag s.env .unrelated (dropLapsed ref b.fleet y))))
      ∧ (commitTest s.env i.resource b true y = true → (s.yard.rec? b.fleet).isSome = true →
        exec .handoverReceived s = .next (answered .refuse (dropLapsed ref b.fleet y)))
      ∧ (commitTest s.env i.resource b true y = true → s.yard.rec? b.fleet = none →
        (96 ≤ s.yard.records.length ∨ pushExpect s.env i.resource.point.1 i.resource.point.2.1 b.fleet
          i.resource.point.2.2 (addRec ⟨b, .expected, i.resource.loc⟩ y) = none) →
        exec .handoverReceived s = .next (answered .hold y)))
    ∧ ((s.yard.seek.taken.contains ⟨ref, b.fleet⟩ = false ∨ s.yard.rec? b.fleet = none) →
      s.yard.seek.lapsed.find? (fun i => i.ref == ref && i.fleet == b.fleet) = none →
      exec .handoverReceived s = .next { s with yard := settle s.env (
        send s.env (.answer .refuse q ref b.fleet) (setFlag s.env .unrelated y)) })

/-- A HANDOVER for the gate's own AWAITING entry. With its duty CALLING, the fleet not held and room, the gate takes the
bus: TAKEN, a record OUTBOUND at the gate that awaits it at GATE_OUT, the seek entry gone, the round on the taken list,
the duty OUTBOUND with this fleet served, the pins resolved, and the bus pinned to the duty it serves. With the custody
table or the queue of GATE_OUT full: HOLD, and the offer hold restarts with the hold interval added. With the duty not
CALLING or the fleet held: REFUSE, the entry as it was. The pins of duty n taken by fleet b, where a was pinned to n and
x paired with b: b is a: n's pair goes; x and a: (x, a) replaces (x, b), a held record a takes x's pin, a REPIN for a is
queued, and x is called when it is due; x alone: its pair goes, and a PINNED x becomes OPEN and is called when due; a
alone: a loses its pin, with a REPIN; neither: nothing. The entries of the station's own lanes keep their releases (the
model's choice, log 45). -/
def Obligations.TheGateTakesABusForItsDuty : Prop :=
  (∀ (s : State) (q n dn : Nat) (b : Carried) (d : Dest) (en : SeekEntry) (w : Winner), s.works →
    s.yard.line.head = some ⟨q, d, ⟨s.layout.own, n⟩, .handover b⟩ →
    s.yard.heldOffer? ⟨s.layout.own, n⟩ b.fleet = none →
    s.yard.seekEntry? n = some en → en.subject = .duty dn → en.state = .awaiting → en.winner = some w → w.station = q →
    en.offered = some b.fleet →
    let y := dropHead s.yard
    let calling : Prop := ∃ x p o, s.yard.duty? dn = some x ∧ x.state = .calling p o
    let pushed := pushExpect s.env .gateOut 0 b.fleet true (addRec ⟨b, .outbound, .gate⟩ y)
    (∀ y', calling → s.yard.rec? b.fleet = none → s.yard.records.length < 96 → pushed = some y' →
      let taken := resolvePins s.env dn b.fleet (onDuty dn (fun x => { x with state := .outbound b.fleet })
        (removeSeek n (noteTaken ⟨s.layout.own, n⟩ b.fleet
          (send s.env (.answer .taken q ⟨s.layout.own, n⟩ b.fleet) y'))))
      exec .handoverReceived s = .next { s with yard := settle s.env (match taken.duty? dn with
        | some x => onRec b.fleet (fun r => { r with bus.pin := some ⟨x.number, x.release⟩ }) taken
        | none => taken) })
    ∧ (calling → s.yard.rec? b.fleet = none → (96 ≤ s.yard.records.length ∨ pushed = none) → exec .handoverReceived s
      = .next { s with yard := settle s.env (send s.env (.answer .hold q ⟨s.layout.own, n⟩ b.fleet)
          (onSeek n (fun x => { x with
            timer := some (1000 * (s.layout.params.offerHold + s.layout.params.holdInterval)) }) y)) })
    ∧ ((¬ calling ∨ (s.yard.rec? b.fleet).isSome = true) → exec .handoverReceived s
      = .next { s with yard := settle s.env (send s.env (.answer .refuse q ⟨s.layout.own, n⟩ b.fleet) y) }))
  ∧ (∀ (e : Env) (n b : Nat) (y : Yard),
      let unpaired (ds : List Nat) : Yard := { y with gate := { y.gate with
        pins := y.gate.pins.filter fun p => !ds.contains p.duty } }
      (y.pinnedFleet n = some b → resolvePins e n b y = unpaired [n])
      ∧ (∀ a x dx, y.pinnedFleet n = some a → a ≠ b → y.pairedDuty b = some x → y.duty? x = some dx →
          let z := unpaired [n, x]
          resolvePins e n b y = callIfDue e x (send e (.repin a) (onRec a (fun r => { r with
            bus.pin := some ⟨dx.number, dx.release⟩ })
            { z with gate := { z.gate with pins := insertBy (·.duty) ⟨x, a⟩ z.gate.pins } })))
      ∧ (∀ x, y.pinnedFleet n = none → y.pairedDuty b = some x → resolvePins e n b y
          = callIfDue e x (onDuty x (fun d => if d.state = .pinned then { d with state := .unpinned } else d)
              (unpaired [n, x])))
      ∧ (∀ a, y.pinnedFleet n = some a → a ≠ b → y.pairedDuty b = none → resolvePins e n b y
          = send e (.repin a) (onRec a (fun r => { r with bus.pin := none }) (unpaired [n])))
      ∧ (y.pinnedFleet n = none → y.pairedDuty b = none → resolvePins e n b y = unpaired [n]
          ∧ unpaired [n] = y))

/-- CLAIM, CANCEL and REPIN. A CLAIM for a fleet held drops the record in whatever state, with CLAIM_CONFLICT raised
before its entries end (an order that is the model's choice, log 30); one for a fleet not held is ignored. A CANCEL for
a HELD offer entry releases its reservation and ends the entry; one for an entry whose HANDOVER is under way returns the
called-out bus to PARKED. A REPIN sets or removes duty and release of a held fleet, in any state, together with the
release stored behind an expected berth; one for a fleet not held is ignored. A CANCEL with no offer entry of its seek
reference and fleet removes the lapsed item of them, if there is one, and is else ignored. A cancelled seek entry goes:
QUEUED, its SEEK is withdrawn; HANDING, its HANDOVER is withdrawn and a CANCEL goes to the winner; AWAITING, a CANCEL
with the offered fleet goes to the winner (none when no fleet was offered: the model's choice, log 34); OPEN or
WAIT_RETRY, nothing more. What a drop ends: SEEKING or HANDING, the seek; PARKED, the OFFER pending for the bus, the
EXIT offer entry and its HANDOVER, and the position becomes LEAVING; EXPECTED, the expectation and the lane's or apron's
commitment or the wash queue entry; OUTBOUND, the expectation, and its duty is called again; QUEUED, the apron entry;
CALLED, the pump or the wash lane goes to FREE and calls; in every other state, nothing. -/
def Obligations.ClaimCancelAndRepinActOnTheirFleet : Prop :=
  (∀ (s : State) (q f : Nat) (ref : SeekRef) (d : Dest), s.works →
    (∀ r, s.yard.line.head = some ⟨q, d, ref, .claim f⟩ → s.yard.rec? f = some r → exec .claimReceived s
      = .next { s with yard := settle s.env (removeRec f (endEntries s.env r
          (notify s.env .claimConflict (some f) none [r.state.code] (dropHead s.yard)))) })
    ∧ (s.yard.line.head = some ⟨q, d, ref, .claim f⟩ → s.yard.rec? f = none → exec .claimReceived s
      = .next { s with yard := settle s.env (dropHead s.yard) })
    ∧ (∀ o, s.yard.line.head = some ⟨q, d, ref, .cancel f⟩ → s.yard.heldOffer? ref f = some o →
      exec .cancelReceived s = .next { s with
        yard := settle s.env (removeOffer true ref f (releaseRes o.resource ref f (dropHead s.yard))) })
    ∧ (∀ o l, s.yard.line.head = some ⟨q, d, ref, .cancel f⟩ → s.yard.heldOffer? ref f = none →
      s.yard.exitOffer? ref f = some o → o.resource = .lane l → exec .cancelReceived s
      = .next { s with yard := settle s.env (
        setPosition s.env l f .parked (removeOffer false ref f
          (withdraw s.env (fun x => x == .exitHandover ref f) (dropHead s.yard)))) })
    ∧ (s.yard.line.head = some ⟨q, d, ref, .cancel f⟩ → s.yard.heldOffer? ref f = none → s.yard.exitOffer? ref f = none →
      (∀ x ∈ s.yard.seek.lapsed, ¬ (x.ref = ref ∧ x.fleet = f)) → exec .cancelReceived s
        = .next { s with yard := settle s.env (dropHead s.yard) })
    ∧ (∀ a x b, s.yard.line.head = some ⟨q, d, ref, .cancel f⟩ → s.yard.heldOffer? ref f = none →
      s.yard.exitOffer? ref f = none → s.yard.seek.lapsed = a ++ x :: b → (∀ z ∈ a, ¬ (z.ref = ref ∧ z.fleet = f)) → x.ref = ref → x.fleet = f →
      let y := dropHead s.yard
      exec .cancelReceived s
        = .next { s with yard := settle s.env { y with seek := { y.seek with lapsed := a ++ b } } })
    ∧ (∀ pin r, s.yard.line.head = some ⟨q, d, ref, .repin f pin⟩ → s.yard.rec? f = some r →
      let y := onRec f (fun r => { r with bus.pin := pin }) (dropHead s.yard)
      exec .repinReceived s = .next { s with yard := match r.state, r.loc with
        | .expected, .lane l => laneRepin l f (pin.map (·.release)) y
        | _, _ => y })
    ∧ (∀ pin, s.yard.line.head = some ⟨q, d, ref, .repin f pin⟩ → s.yard.rec? f = none →
      exec .repinReceived s = .next { s with yard := dropHead s.yard }))
  ∧ (∀ (e : Env) (n : Nat) (y : Yard) (en : SeekEntry), y.seekEntry? n = some en →
      let ref : SeekRef := ⟨e.layout.own, n⟩
      let gone : Yard := { y with seek := { y.seek with table := dropFirst (·.number == n) y.seek.table } }
      (en.state = .queued → cancelSeek e n y = withdraw e (fun x => x == .seek n) gone)
      ∧ ((en.state = .opened ∨ en.state = .waitRetry) → cancelSeek e n y = gone)
      ∧ (∀ ph f sv w, en.state = .handing ph → en.subject = .bus f sv → en.winner = some w →
        cancelSeek e n y = send e (.cancel w.station ref f) (withdraw e (fun x => x == .handover n) gone))
      ∧ (∀ w f, en.state = .awaiting → en.winner = some w → en.offered = some f →
        cancelSeek e n y = send e (.cancel w.station ref f) gone)
      ∧ (en.state = .awaiting → en.offered = none → cancelSeek e n y = gone))
  ∧ (∀ (e : Env) (f : Nat) (y : Yard),
      (∀ a en b sv, y.seek.table = a ++ en :: b → en.subject = .bus f sv → (∀ z ∈ a, ∀ v, z.subject ≠ .bus f v) →
        cancelBusSeek e f y = cancelSeek e en.number y)
      ∧ ((∀ z ∈ y.seek.table, ∀ v, z.subject ≠ .bus f v) → cancelBusSeek e f y = y))
  ∧ (∀ (e : Env) (y : Yard) (r : Record),
      let f := r.bus.fleet
      let unexpected (k : PointKind) (i : Nat) : Yard := onQueue e k i (·.filter (·.fleet != f)) y
      ((r.state = .seeking ∨ r.state = .handing) → endEntries e r y = cancelBusSeek e f y)
      ∧ (∀ n, r.state = .parked → r.loc = .lane n →
        let z : Yard := match y.seek.choice with
          | some c => if c.service = .exit ∧ c.fleet = f then
              withdraw e (fun x => match x with
                | .offer ref _ _ _ _ => ref == c.ref
                | _ => false) { y with seek := { y.seek with choice := none } } else y
          | none => y
        (∀ o, z.seek.offers.find? (fun o => o.service == .exit && o.fleet == f) = some o → endEntries e r y
          = leavePosition e n f (removeOffer false o.ref f (withdraw e (fun x => x == .exitHandover o.ref f) z)))
        ∧ (z.seek.offers.find? (fun o => o.service == .exit && o.fleet == f) = none →
          endEntries e r y = leavePosition e n f z))
      ∧ (∀ n, r.state = .expected → r.loc = .lane n →
        let z := unexpected .laneIn n
        endEntries e r y = { z with lanes := updFirst (·.cfg.number == n) (fun l => { l with
          reservs := l.reservs.filter fun x => !(x.committed && x.fleet == f) }) z.lanes })
      ∧ (r.state = .expected → r.loc = .apron →
        let z := unexpected .apronIn 0
        endEntries e r y = { z with fuel := { z.fuel with
          reservs := z.fuel.reservs.filter fun x => !(x.committed && x.fleet == f) } })
      ∧ (∀ w, r.state = .expected → r.loc = .wash w →
        let z := unexpected .washIn w
        endEntries e r y = { z with wash := { z.wash with lanes := updFirst (·.cfg.index == w) (fun l => { l with
          queue := l.queue.filter fun x => x.fleet != f }) z.wash.lanes } })
      ∧ (r.state = .outbound → (∀ d ∈ y.gate.duties, d.state ≠ .outbound f) → endEntries e r y = unexpected .gateOut 0)
      ∧ (∀ a d b, r.state = .outbound → y.gate.duties = a ++ d :: b → d.state = .outbound f →
        (∀ x ∈ a, x.state ≠ .outbound f) → endEntries e r y = enterCalling e d (unexpected .gateOut 0))
      ∧ (r.state = .queued → endEntries e r y = { y with fuel := { y.fuel with
          queue := y.fuel.queue.filter fun x => x.fleet != f } })
      ∧ (∀ p u a b, r.state = .called → r.loc = .apron → y.fuel.pumps = a ++ p :: b → p.state = .calling →
        p.turn = some u → u.fleet = f → (∀ x ∈ a, ¬ (x.state = .calling ∧ ∃ v, x.turn = some v ∧ v.fleet = f)) →
        endEntries e r y = lookForHeads e (setPump e p.cfg.index (fun q => { q with
          state := .free, turn := none, timer := none, enable := false }) y))
      ∧ (∀ w, r.state = .called → r.loc = .wash w → endEntries e r y
        = washCall e w (onQueue e .washIn w (·.filter (·.fleet != f)) (setWash e w (fun l => { l with
          state := .free, called := none, timer := none }) y)))
      ∧ ((r.state = .inService ∨ r.state = .stray ∨ r.state = .adrift) → endEntries e r y = y))

/-- TIME with minute m. Of the current minute: it becomes the seen minute unless a later one is, and this station's own
pending TIME of that minute or an earlier one is withdrawn. Of a later minute: the clock adopts it with seconds 0, as a
change of minute, and TIME_ADOPTED rises by one; that the second begins anew then (log 23), and that the own TIME is
withdrawn before the change of minute (log 28), are the model's choices. Of an earlier minute: it is ignored. -/
def Obligations.TimeIsSeenAdoptedOrIgnored : Prop :=
  ∀ (s : State) (q m : Nat) (ref : SeekRef) (d : Dest), s.works →
    s.yard.line.head = some ⟨q, d, ref, .time m⟩ →
    let own : TxReq → Bool := fun x => match x with
      | .time n => decide (m = n) || laterThan m n
      | _ => false
    let seen := (match s.clock.seen with
      | none => some m
      | some v => if laterThan m v then some m else some v)
    (m = s.clock.minute → exec .timeReceived s = .next { s with
      clock := { s.clock with seen := seen }, yard := withdraw s.env own (dropHead s.yard) })
    ∧ (m ≠ s.clock.minute → laterThan m s.clock.minute = true → exec .timeReceived s
      = .next (State.changeMinute { s.clock with minute := m, seconds := 0, seen := seen, subMs := 0 }
          { s with yard := countTimeAdopted (withdraw s.env own (dropHead s.yard)) }))
    ∧ (m ≠ s.clock.minute → laterThan m s.clock.minute = false → exec .timeReceived s
      = .next { s with yard := dropHead s.yard })

/-! ## Clock and timers -/

/-- While CLOCK_VALID is true the clock counts seconds, and at the rollover takes the next minute modulo 1440 with
seconds 0 and the seen minute none, as a change of minute; that a rollover acts whatever the seconds is the model's
choice (log 3). In the RUNNING phase it first, an order that is the model's choice (log 28), announces the new minute n,
its own pending TIME withdrawn, unless the seen minute is n or later; in CONFIG and LOCKED it queues nothing. While
CLOCK_VALID is false it does not count. A change of minute that is no day turn hands the minute to the listed duties in
the RUNNING phase alone, one by one in list order (an order that is the model's choice, log 46). A duty not yet called
whose call minute is reached goes to CALLING with its call pending, and is uncovered at once when its grace is over. A
CALLING duty whose uncover minute is reached has its grace over from then on, and is uncovered when its entry is in
WAIT_RETRY or, without one, its call is pending. A duty OUTBOUND waits for no minute. Uncovering takes the duty, its
pair and its seek entry away, raises DUTY_UNCOVERED with the pinned fleet, and takes that fleet's pin away with a REPIN.
The entries of the station's own lanes keep their releases (the model's choice, log 45). -/
def Obligations.TheClockCountsAndRollsOver : Prop :=
  (∀ s : State, s.inReset = false →
    let n := (s.clock.minute + 1) % 1440
    let c : Clock := ⟨n, 0, true, none, 0⟩
    let known : Prop := ∃ v, s.clock.seen = some v ∧ (v = n ∨ laterThan v n = true)
    (s.clock.valid = true → s.clock.seconds < 59 → exec .secondsCount s
      = .next { s with clock := { s.clock with seconds := s.clock.seconds + 1, subMs := 0 } })
    ∧ (s.clock.valid = true → (s.phase ≠ .running ∨ known) → exec .minuteRollover s = .next (State.changeMinute c s))
    ∧ (s.clock.valid = true → s.phase = .running → ¬ known → exec .minuteRollover s
      = .next (State.changeMinute c { s with yard := send s.env (.time n) (withdraw s.env TxReq.isTime s.yard) }))
    ∧ (s.clock.valid = false → exec .secondsCount s = .next s ∧ exec .minuteRollover s = .next s))
  ∧ (∀ (s : State) (c : Clock), s.clock.minute ≤ c.minute →
      let t : State := { s with clock := c }
      State.changeMinute c s = { t with yard := settle t.env (
        if s.phase = .running then (s.yard.gate.duties.map (·.number)).foldl
          (fun y n => dutyMinute t.env s.clock.minute c.minute n y) s.yard
        else s.yard) })
  ∧ (∀ (e : Env) (a b n : Nat) (y : Yard) (d : Duty), y.duty? n = some d →
      let g := e.layout.gateCfg
      let reached (w : Nat) : Prop := w = b ∨ (laterThan w a = true ∧ laterThan b w = true)
      let call := (d.release + 1440 - g.callLead) % 1440
      let uncover := (d.release + g.grace + 1) % 1440
      let late := laterThan e.minute ((d.release + g.grace) % 1440)
      let calling (pending late : Bool) : Yard := { y with gate := { y.gate with
        duties := updFirst (·.number == n) (fun x => { x with state := .calling pending late }) y.gate.duties } }
      let waits (pending : Bool) : Prop := (∃ en, y.dutySeek? n = some en ∧ en.state = .waitRetry)
        ∨ (y.dutySeek? n = none ∧ pending = true)
      ((d.state = .unpinned ∨ d.state = .pinned) →
        (¬ reached call → dutyMinute e a b n y = y)
        ∧ (reached call → late = false → dutyMinute e a b n y = calling true false)
        ∧ (reached call → late = true → dutyMinute e a b n y = uncoverDuty e n (calling true true)))
      ∧ (∀ p o, d.state = .calling p o →
        (¬ reached uncover → dutyMinute e a b n y = y)
        ∧ (reached uncover → ¬ waits p → dutyMinute e a b n y = calling p true)
        ∧ (reached uncover → waits p → dutyMinute e a b n y = uncoverDuty e n (calling p true)))
      ∧ (∀ f, d.state = .outbound f → dutyMinute e a b n y = y))
  ∧ (∀ (e : Env) (n : Nat) (y : Yard),
      let t := uncoverDuty e n y
      let unpaired : List Pair := y.gate.pins.filter (·.duty != n)
      t.gate = { y.gate with duties := dropFirst (·.number == n) y.gate.duties, pins := unpaired }
      ∧ (∀ en, y.dutySeek? n = some en → t.seek.table = dropFirst (·.number == en.number) y.seek.table)
      ∧ (y.dutySeek? n = none → t.seek = y.seek)
      ∧ (y.notices.length < 32 → t.notices = y.notices
          ++ [⟨.dutyUncovered, if e.clockValid then e.minute else 0, y.pinnedFleet n, none, [n]⟩])
      ∧ (y.pinnedFleet n = none → t.records = y.records ∧ t.line = y.line)
      ∧ (∀ f, y.pinnedFleet n = some f →
          t.records = updFirst (·.bus.fleet == f) (fun r => { r with bus.pin := none }) y.records
          ∧ (y.line.queue.length < 8 → y.line.waiting = [] →
              (∀ p ∈ unpaired, p.fleet ≠ f) → t.line = { y.line with queue := y.line.queue ++
                [⟨.repin f, ⟨e.layout.own, .all, ⟨e.layout.own, 0⟩, .repin f none⟩, 0, false, false⟩] }))
      ∧ t = { y with
          records := t.records, gate := t.gate, seek := t.seek, line := t.line, notices := t.notices, lost := t.lost })

/-- A change of minute to a smaller number is a day turn: every record loses its pin, in every state, and keeps all
else; the lanes' stored releases go; and at a gate station the duty list and the pin table are emptied, in list order:
one DUTY_EXPIRED for each duty with its bus, OUTBOUND or pinned; then the seek of each is cancelled, and the REPINs not
yet carried are withdrawn. The day turn goes before the minutes awaited at the same change, so that a duty it removes is
neither called nor uncovered (the model's choice, log 7). The clock is changed as the change of minute states, and the
lanes' places, the pumps, the points and the signs are as before. (With the arrival FIFO empty, so that no new record
enters at the end of the event.) -/
def Obligations.TheDayTurnRemovesEveryPin : Prop :=
  ∀ (s : State) (c : Clock), c.minute < s.clock.minute → s.yard.gate.fifo = [] →
    ∃ t, State.changeMinute c s = t ∧ t.clock = c
      ∧ t.yard.records = s.yard.records.map (fun r => { r with bus.pin := none })
      ∧ t.yard.lanes = s.yard.lanes.map (fun l => { l with
          reservs := l.reservs.map fun x => { x with release := none }
          positions := l.positions.map fun p => match p.state with
            | .leaving _ => ⟨p.fleet, .leaving none⟩
            | _ => p })
      ∧ (s.layout.gate.isSome = true → t.yard.gate.duties = [] ∧ t.yard.gate.pins = [])
      ∧ t.yard.fuel = s.yard.fuel ∧ t.yard.wash = s.yard.wash ∧ t.yard.points = s.yard.points
      ∧ t.yard.signs = s.yard.signs ∧ t = { s with clock := c, yard := t.yard }
      ∧ (s.layout.gate.isSome = true → ∃ z : Yard,
          let e := ({ s with clock := c } : State).env
          let cancelled : Yard := s.yard.gate.duties.foldl (fun y d => match y.dutySeek? d.number with
            | some en => cancelSeek e en.number y
            | none => y) z
          z.line = s.yard.line ∧ z.seek = s.yard.seek ∧ z.gate = { s.yard.gate with duties := [] }
          ∧ (s.yard.notices.length + s.yard.gate.duties.length ≤ 32 → z.lost = s.yard.lost ∧ z.notices = s.yard.notices
            ++ s.yard.gate.duties.map fun d => ⟨.dutyExpired, if c.valid then c.minute else 0, (match d.state with
              | .outbound f => some f
              | _ => s.yard.pinnedFleet d.number), none, [d.number]⟩)
          ∧ t.yard = settle e (withdraw e (fun x => match x with
              | .repin _ => true
              | _ => false) { cancelled with gate := { cancelled.gate with pins := [] } }))

/-- The retry timer and the two offer holds. A WAIT_RETRY entry whose retry period is over takes as its new seek number
the counter's value, or the first after it modulo 256 that no entry holds, so that no two entries hold one number (that
it passes the held ones over is the model's choice, log 27); the counter goes on behind that number, and its SEEK is
queued. A HELD offer whose hold is over releases its reservation and joins the lapsed list: the HELD entry of that seek
reference and fleet leaves its lane's, the apron's or its wash lane's list, and a COMMITTED one stays. An AWAITING entry
whose hold is over excludes its winner and seeks again. The answer timer and the hold interval. Below the configured
attempts a new HANDOVER is queued and the entry is in the sending phase again. At the attempts a PUSH handover has
failed: HANDOVER_FAILED names the winner, the record returns to SEEKING at the list's tail, and the entry excludes the
winner and seeks again; a called-out bus's handover has failed: HANDOVER_FAILED names the gate, the entry goes and the
position returns to PARKED. -/
def Obligations.SeekAndHandoverTimersAct : Prop :=
  (∀ s : State, s.works →
     (∀ n en j, s.yard.seekEntry? n = some en → en.state = .waitRetry → j ≤ s.yard.seek.table.length →
       (∀ i, i < j → ∃ x ∈ s.yard.seek.table, x.number = (s.yard.seek.counter + i) % 256) →
       let k := (s.yard.seek.counter + j) % 256
       (∀ x ∈ s.yard.seek.table, x.number ≠ k) → exec (.retryTimerExpiry n) s
       = .next { s with yard := send s.env (.seek k) (noteGiven k en.subject
           { s.yard with seek := { s.yard.seek with
               counter := (k + 1) % 256
               table := updFirst (·.number == n)
                 (fun x => { x with number := k, state := .queued, timer := none }) s.yard.seek.table } }) })
     ∧ (s.yard.seek.table.length ≤ 8 → s.yard.seek.nextNumber < 256
         ∧ ∀ x ∈ s.yard.seek.table, x.number ≠ s.yard.seek.nextNumber)
     ∧ (∀ ref f o, s.yard.heldOffer? ref f = some o → exec (.offerHoldExpiry ⟨ref, f⟩) s
       = .next { s with yard :=
           let y := removeOffer true ref f (releaseRes o.resource ref f s.yard)
           { y with seek := { y.seek with
               lapsed := pushOldest 8 ⟨ref, o.service, o.resource, f⟩ s.yard.seek.lapsed } } })
     ∧ (∀ n en w, s.yard.seekEntry? n = some en → en.state = .awaiting → en.winner = some w →
         exec (.awaitingHoldExpiry n) s = .next { s with yard := newRound s.env n (onSeek n (fun x => { x with
           excl := addExcl w.station x.excl, winner := none, attempts := 0, offered := none, state := .waitRetry
           timer := none }) s.yard) }))
  ∧ (∀ (ref : SeekRef) (f : Nat) (y : Yard),
       (∀ n l, y.lane? n = some l →
         let t := releaseRes (.lane n) ref f y
         let held (q : LaneRes) : Prop := q.ref = ref ∧ q.fleet = f ∧ q.committed = false
         (∀ before q after, l.reservs = before ++ q :: after → held q → (∀ z ∈ before, ¬ held z) →
           t.lane? n = some { l with reservs := before ++ after } ∧ (∀ m, m ≠ n → t.lane? m = y.lane? m)
           ∧ t = { y with lanes := t.lanes })
         ∧ ((∀ z ∈ l.reservs, ¬ held z) → t = y))
       ∧ (∀ fuel,
         let t := releaseRes (.apron fuel) ref f y
         let held (q : ApronRes) : Prop := q.ref = ref ∧ q.fleet = f ∧ q.committed = false
         (∀ before q after, y.fuel.reservs = before ++ q :: after → held q → (∀ z ∈ before, ¬ held z) →
           t = { y with fuel := { y.fuel with reservs := before ++ after } })
         ∧ ((∀ z ∈ y.fuel.reservs, ¬ held z) → t = y))
       ∧ (∀ w l, y.washLane? w = some l →
         let t := releaseRes (.wash w) ref f y
         let held (q : WashRes) : Prop := q.ref = ref ∧ q.fleet = f
         (∀ before q after, l.reservs = before ++ q :: after → held q → (∀ z ∈ before, ¬ held z) →
           t.washLane? w = some { l with reservs := before ++ after } ∧ (∀ v, v ≠ w → t.washLane? v = y.washLane? v)
           ∧ t = { y with wash := { y.wash with lanes := t.wash.lanes } })
         ∧ ((∀ z ∈ l.reservs, ¬ held z) → t = y)))
  ∧ (∀ s : State, s.works →
       (∀ n en, s.yard.seekEntry? n = some en →
         (en.state = .handing .awaiting ∧ en.attempts < s.layout.params.attempts → exec (.answerTimerExpiry (.push n)) s
           = .next { s with yard := send s.env (.handover n) (onSeek n (fun x => { x with
               state := .handing .sending, timer := none }) s.yard) })
         ∧ (en.state = .handing .pausing → exec (.holdIntervalEnd (.push n)) s
           = .next { s with yard := send s.env (.handover n) (onSeek n (fun x => { x with
               state := .handing .sending, timer := none }) s.yard) })
         ∧ (∀ f sv w, en.state = .handing .awaiting → s.layout.params.attempts ≤ en.attempts → en.subject = .bus f sv →
             en.winner = some w → exec (.answerTimerExpiry (.push n)) s
           = .next { s with yard := settle s.env (newRound s.env n (onSeek n (fun x => { x with
               excl := addExcl w.station x.excl, winner := none, attempts := 0, offered := none, state := .waitRetry
               timer := none }) (enterSeeking f (notify s.env .handoverFailed (some f) none [w.station] s.yard)))) }))
       ∧ (∀ ref f o, s.yard.exitOffer? ref f = some o →
         let again := send s.env (.exitHandover ref f)
           (onOffer false ref f (fun x => { x with state := .sending, timer := none }) s.yard)
         (o.state = .sending → o.timer.isSome = true → o.attempts < s.layout.params.attempts →
             exec (.answerTimerExpiry (.exit ref f)) s = .next { s with yard := again })
         ∧ (o.state = .paused → exec (.holdIntervalEnd (.exit ref f)) s = .next { s with yard := again })
         ∧ (∀ l, o.state = .sending → o.timer.isSome = true → s.layout.params.attempts ≤ o.attempts → o.resource = .lane l →
             exec (.answerTimerExpiry (.exit ref f)) s = .next { s with yard := settle s.env (setPosition s.env l f .parked
               (removeOffer false ref f (withdraw s.env (fun x => x == .exitHandover ref f)
                 (notify s.env .handoverFailed (some f) none [ref.station] s.yard)))) })))

/-! ## Loop scanner, points, signs -/

/-- The row that is scanned is driven low, and a column read low is an occupied contact. At the end of a row period the
row's contacts are read and the next row is driven. A reading equal to the debounced state sets the run count to 0; a
differing one raises it, up to 16, and at the debounce count the state changes and the run count returns to 0. Contacts
of other rows stay. Outside the RUNNING phase, and with no change of state in the row, nothing else happens; a single
change in the RUNNING phase goes to its point. -/
def Obligations.TheRowScanDebouncesItsContacts : Prop :=
  ∀ (s : State) (cols : BitVec 8), s.inReset = false →
    let n := s.layout.params.debounce
    let reading (j : Nat) : Bool := !cols.getLsbD j
    let changes (j : Nat) : Prop := ∃ c, s.scan.contacts[8 * s.scan.row + j]? = some c ∧ reading j ≠ c.occupied
      ∧ n ≤ min 16 (c.run + 1)
    (∀ r, r < 8 → (s.rowPins.getLsbD r = false ↔ r = s.scan.row))
    ∧ ∃ t, exec (.rowScan cols) s = .next t ∧ t.scan.row = (s.scan.row + 1) % 8
      ∧ (∀ (k : Nat) (c : Contact), s.scan.contacts[k]? = some c → t.scan.contacts[k]? = some (
          if k / 8 ≠ s.scan.row then c
          else if reading (k % 8) = c.occupied then ⟨c.occupied, 0⟩
          else if n ≤ min 16 (c.run + 1) then ⟨reading (k % 8), 0⟩
          else ⟨c.occupied, min 16 (c.run + 1)⟩))
      ∧ t.scan.contacts.length = s.scan.contacts.length
      ∧ ((s.phase ≠ .running ∨ ∀ j, j < 8 → ¬ changes j) → t = { s with scan := t.scan })
      ∧ (∀ j, j < 8 → s.phase = .running → (∀ i, i < 8 → (changes i ↔ i = j)) →
          t = { s with scan := t.scan, yard := contactEvent s.env s.scan.row s.yard (j, reading j) })

/-- What a rise or a fall of a mapped contact brings: the dwell timer of its point starts or stops, and the owner gets
the ARRIVE or the CLEAR. At a receiving point the oldest expectation leaves the queue and its fleet goes to the owner;
with none the owner gets an intruder. A contact that is not mapped changes nothing. A lane's arrivals and exits. An
arrival with an expectation of fleet f removes f's commitment, appends a PARKED position at the rear, and f's record
goes to PARKED at the lane with BERTH off its itinerary; an intruder raises INTRUDER alone. A CLEAR at LANE_IN ends its
entry blocked. A CLEAR at LANE_OUT takes the front position away: a LEAVING one silently; a PARKED one with its record
going ADRIFT and UNPLANNED_EXIT raised; a CALLED_OUT one so too, its offer entry gone and its HANDOVER not yet carried
withdrawn; of an empty lane it counts EMPTY_CLEARS. An arrival at GATE_OUT retires the record of its fleet; the duty
that it serves leaves the list with DUTY_SERVED and its lateness, 0 unless the minute is later than the release; with no
such duty nothing more happens. An intruder at GATE_OUT raises INTRUDER alone, and a CLEAR there does nothing. An ARRIVE
at GATE_IN takes the oldest unmatched read away; with none it joins the unmatched arrivals, and with 8 of them the
oldest leaves first with an INTRUDER at the gate entry. A CLEAR there blanks the gate's direction sign. A bus whose
itinerary has another head than BERTH keeps it at its arrival (the model's choice, log 20). -/
def Obligations.ContactsReachTheirOwners : Prop :=
  (∀ (e : Env) (row col : Nat) (y : Yard),
     (y.contactPoint? row col = none → ∀ b, contactEvent e row y (col, b) = y)
     ∧ (∀ p, y.contactPoint? row col = some p →
       contactEvent e row y (col, true)
         = settle e (arriveAt e p.cfg.kind p.cfg.index (setDwell row col (some (1000 * p.cfg.dwell)) y))
       ∧ contactEvent e row y (col, false) = settle e (clearAt e p.cfg.kind p.cfg.index (setDwell row col none y)))
     ∧ (∀ k i p x rest, y.point? k i = some p → p.queue = x :: rest →
       k = .gateOut ∨ k = .apronIn ∨ k = .washIn ∨ k = .laneIn →
       arriveAt e k i y = arrival e k i x (onQueue e k i (·.drop 1) y))
     ∧ (∀ k i p, y.point? k i = some p → p.queue = [] → k = .gateOut ∨ k = .apronIn ∨ k = .washIn ∨ k = .laneIn →
       arriveAt e k i y = intruder e k i y))
  ∧ (∀ (e : Env) (n : Nat) (y : Yard) (l : Lane), y.lane? n = some l →
       (∀ x r, y.rec? x.fleet = some r →
         let t := arrival e .laneIn n x y
         t.lane? n = some { l with
           reservs := l.reservs.filter (fun q => !(q.committed && q.fleet == x.fleet))
           positions := l.positions ++ [⟨x.fleet, .parked⟩] }
         ∧ t.rec? x.fleet = some { r with
             state := .parked
             loc := .lane n
             bus.itinerary := match r.bus.itinerary with
               | .berth :: rest => rest
               | it => it }
         ∧ (∀ g, g ≠ x.fleet → t.rec? g = y.rec? g) ∧ (∀ m, m ≠ n → t.lane? m = y.lane? m)
         ∧ t = { y with records := t.records, lanes := t.lanes, signs := t.signs })
       ∧ intruder e .laneIn n y = notify e .intruder none (some (.lane n)) [] y
       ∧ (let t := clearAt e .laneIn n y
         t.lane? n = some { l with blocked := false } ∧ (∀ m, m ≠ n → t.lane? m = y.lane? m)
         ∧ t = { y with lanes := t.lanes })
       ∧ (∀ f rel rest, l.positions = ⟨f, .leaving rel⟩ :: rest →
         let t := clearAt e .laneOut n y
         t.lane? n = some { l with positions := rest } ∧ t = { y with lanes := t.lanes, signs := t.signs })
       ∧ (∀ f rest r, l.positions = ⟨f, .parked⟩ :: rest → y.rec? f = some r →
         let t := clearAt e .laneOut n y
         t.lane? n = some { l with positions := rest }
         ∧ t.rec? f = some { r with state := .adrift, loc := .nowhere }
         ∧ (y.notices.length < 32 → t.notices = y.notices
             ++ [⟨.unplannedExit, if e.clockValid then e.minute else 0, some f, some (.lane n), []⟩]))
       ∧ (∀ f rest r o, l.positions = ⟨f, .calledOut⟩ :: rest → y.rec? f = some r →
         y.seek.offers.find? (fun o => o.service == .exit && o.fleet == f) = some o →
         let z := loseRec f .adrift (onPositions e n (·.drop 1) y)
         let t := clearAt e .laneOut n y
         t.lane? n = some { l with positions := rest }
         ∧ t.rec? f = some { r with state := .adrift, loc := .nowhere }
         ∧ t = notify e .unplannedExit (some f) (some (.lane n)) [] (removeOffer false o.ref f
             (withdraw e (fun x => x == .exitHandover o.ref f) z)))
       ∧ (l.positions = [] → clearAt e .laneOut n y
           = { y with cnt := { y.cnt with emptyClears := min 65535 (y.cnt.emptyClears + 1) } }))
  ∧ (∀ (e : Env) (i : Nat) (x : Expect) (y : Yard),
       (∀ a d b, y.gate.duties = a ++ d :: b → d.state = .outbound x.fleet →
         (∀ z ∈ a, z.state ≠ .outbound x.fleet ∧ z.number ≠ d.number) →
         let late := if laterThan e.minute d.release then (e.minute + 1440 - d.release % 1440) % 1440 else 0
         arrival e .gateOut i x y = notify e .dutyServed (some x.fleet) none [d.number, late] (removeRec x.fleet
           { y with gate := { y.gate with duties := a ++ b } }))
       ∧ ((∀ d ∈ y.gate.duties, d.state ≠ .outbound x.fleet) → arrival e .gateOut i x y = removeRec x.fleet y)
       ∧ intruder e .gateOut i y = notify e .intruder none (some .gateExit) [] y
       ∧ clearAt e .gateOut i y = y)
  ∧ (∀ (e : Env) (i : Nat) (y : Yard),
       (∀ x rest, y.gate.reads = x :: rest →
         arriveAt e .gateIn i y = { y with gate := { y.gate with reads := rest } })
       ∧ (y.gate.reads = [] → y.gate.arrivals.length < 8 → arriveAt e .gateIn i y
         = { y with gate := { y.gate with arrivals := y.gate.arrivals ++ [e.second] } })
       ∧ (∀ x rest, y.gate.reads = [] → y.gate.arrivals = x :: rest → 8 ≤ y.gate.arrivals.length →
         let z := notify e .intruder none (some .gateEntry) [] y
         arriveAt e .gateIn i y = { z with gate := { y.gate with arrivals := rest ++ [e.second] } })
       ∧ clearAt e .gateIn i y = setSign e 48 0 y)

/-- A dwell timer that runs out starts again when its point repeats, else it stops, and the owner gets the DWELL: a
LANE_IN point blocks its lane with LANE_BLOCKED raised, once while blocked; a WASH_IN point in LOADING raises START and
starts the start timer; every other point does nothing more. An expectation whose travel time is over: the entry leaves
its queue, the record goes STRAY with no location, STRAY is raised naming the point, and the place kept for the bus
goes: its lane's or its apron's commitment, or, at GATE_OUT, the served duty returns to CALLING. The end of a sign
record: its value becomes the sign's sent value, and the oldest waiting record is begun in the same event (the model's
choice, log 22). A sign that is given a new value shows it, and in the RUNNING phase a record of it goes to the send
list: in place of a waiting one, which goes when the new value is the value in hand, else at the tail when the value in
hand differs; with none being sent the first record of the list is begun (log 22). The lights and call signs follow
their resource: the release light is GO with a LEAVING position at the front, the entry light GREEN with a bus expected,
a pump's and a wash lane's sign shows the called fleet in CALLING. -/
def Obligations.DwellTravelAndSignTimersAct : Prop :=
  (∀ (s : State) (row col : Nat) (p : Point) (left : Nat), s.works → s.yard.contactPoint? row col = some p →
     p.dwell = some left →
     let y := setDwell row col (if p.cfg.repeats then some (1000 * p.cfg.dwell) else none) s.yard
     (∀ l, p.cfg.kind = .laneIn → s.yard.lane? p.cfg.index = some l → exec (.dwellTimerExpiry row col) s
       = .next { s with yard := if l.blocked then y else notify s.env .laneBlocked none (some (.lane p.cfg.index)) [] (
           onLane p.cfg.index (fun l => { l with blocked := true }) y) })
     ∧ (∀ l, p.cfg.kind = .washIn → s.yard.washLane? p.cfg.index = some l → exec (.dwellTimerExpiry row col) s
       = .next { s with yard := if l.state = .loading then setWash s.env p.cfg.index (fun l => { l with
           state := .starting, timer := some (1000 * l.cfg.startTimeout) }) y else y })
     ∧ (p.cfg.kind ≠ .laneIn → p.cfg.kind ≠ .washIn → exec (.dwellTimerExpiry row col) s = .next { s with yard := y }))
  ∧ (∀ (s : State) (f : Nat) (p : Point) (x : Expect) (until_ : Nat), s.works →
       s.yard.expectation? f = some (p, x) → x.expiry = some until_ →
       let i := p.cfg.index
       let y := loseRec f .stray (removeExpect s.env p.cfg.kind i f s.yard)
       exec (.travelTimeout f) s = .next { s with
         yard := settle s.env (notify s.env .stray (some f) (some (.point p.cfg.kind i)) [] (match p.cfg.kind with
           | .laneIn => laneUncommit i f y
           | .apronIn => apronUncommit f y
           | .gateOut => recallFor s.env f y
           | _ => y)) })
  ∧ (∀ (s : State) (r : SignRec), s.works → s.yard.signs.sending = some r → exec .signRecordSent s
       = .next { s with yard := { s.yard with signs :=
           ⟨updFirst (·.number == r.number) (fun x => { x with sent := some r.value }) s.yard.signs.signs,
             s.yard.signs.list.drop 1, s.yard.signs.list.head?⟩ } })
  ∧ (∀ (e : Env) (n v : Nat) (y : Yard),
       ((∀ x ∈ y.signs.signs, x.number ≠ n) → setSign e n v y = y)
       ∧ (∀ a x b, y.signs.signs = a ++ x :: b → x.number = n → (∀ z ∈ a, z.number ≠ n) →
         let inHand : Option Nat := match y.signs.sending with
           | some r => if r.number = n then some r.value else x.sent
           | none => x.sent
         let list : List SignRec := if y.signs.list.any (·.number == n) then
             (if inHand = some v then y.signs.list.filter (·.number != n)
              else y.signs.list.map fun r => if r.number = n then ⟨n, v⟩ else r)
           else if inHand = some v then y.signs.list else y.signs.list ++ [⟨n, v⟩]
         let shown (list : List SignRec) (sending : Option SignRec) : Yard :=
           { y with signs := ⟨a ++ { x with current := v } :: b, list, sending⟩ }
         (x.current = v → setSign e n v y = y)
         ∧ (x.current ≠ v → e.running = false → setSign e n v y = shown y.signs.list y.signs.sending)
         ∧ (x.current ≠ v → e.running = true → y.signs.sending.isSome = true →
           setSign e n v y = shown list y.signs.sending)
         ∧ (x.current ≠ v → e.running = true → y.signs.sending = none →
           setSign e n v y = shown (list.drop 1) list.head?)))
  ∧ (∀ (e : Env) (y : Yard),
       (∀ n g l, y.lane? n = some l → onPositions e n g y = setSign e (16 + n) (match g l.positions with
         | ⟨_, .leaving _⟩ :: _ => 1
         | _ => 0) { y with lanes := updFirst (·.cfg.number == n) (fun l => { l with positions := g l.positions }) y.lanes })
       ∧ (∀ n g p, y.point? .laneIn n = some p → onQueue e .laneIn n g y
         = setSign e n (if g p.queue = [] then 0 else 1) { y with
           points := updFirst (Point.is .laneIn n) (fun p => { p with queue := g p.queue }) y.points })
       ∧ (∀ k i g, k ≠ .laneIn → onQueue e k i g y = { y with
           points := updFirst (Point.is k i) (fun p => { p with queue := g p.queue }) y.points })
       ∧ (∀ p g q, y.pump? p = some q → (∀ x, (g x).cfg = x.cfg) →
         setPump e p g y = setSign e (32 + p) (match (g q).state, (g q).turn with
           | .calling, some u => u.fleet
           | _, _ => 0) { y with fuel := { y.fuel with pumps := updFirst (·.cfg.index == p) g y.fuel.pumps } })
       ∧ (∀ w g l, y.washLane? w = some l → (∀ x, (g x).cfg = x.cfg) →
         setWash e w g y = setSign e (40 + w) (match (g l).state, (g l).called with
           | .calling, some x => x.fleet
           | _, _ => 0) { y with wash := { y.wash with lanes := updFirst (·.cfg.index == w) g y.wash.lanes } }))

/-! ## The fuel unit -/

/-- A nozzle lift on an OCCUPIED pump starts its turn: FUELLING, enable on, pulses and dispensed amount 0, the no-flow
timer running; on a pump in any other state it is counted as ignored. A meter pulse of a FUELLING turn counts one more
pulse, stopping at 2^24 - 1, the dispensed amount is its hundredths rounded down, and at the target the enable goes off
and the no-flow timer stops. A pulse on a pump in another state changes nothing. The ENABLE pin is high while enable is
on. -/
def Obligations.NozzleLiftsAndMeterPulses : Prop :=
  ∀ (s : State) (p : Nat) (q : Pump), s.works → s.yard.pump? p = some q →
    let restart := 1000 * s.layout.islandCfg.noFlow
    let at_ (f : Pump → Pump) : State := { s with yard := { s.yard with fuel := { s.yard.fuel with
      pumps := updFirst (·.cfg.index == p) f s.yard.fuel.pumps } } }
    (∀ u, q.state = .occupied → q.turn = some u → ∃ t, exec (.nozzleLift p) s = .next t
      ∧ t.yard.pump? p = some { q with
          state := .fuelling, enable := true, timer := some restart, turn := some { u with pulses := 0, dispensed := 0 } }
      ∧ (∀ r, r ≠ p → t.yard.pump? r = s.yard.pump? r)
      ∧ t = { s with yard := { s.yard with
          fuel := { s.yard.fuel with pumps := t.yard.fuel.pumps }, signs := t.yard.signs } })
    ∧ s.enablePin p = q.enable
    ∧ (q.state ≠ .occupied → exec (.nozzleLift p) s = .next { s with yard := { s.yard with
        cnt := { s.yard.cnt with nozzleIgnored := min 65535 (s.yard.cnt.nozzleIgnored + 1) } } })
    ∧ (∀ u, q.state = .fuelling → q.turn = some u →
        let pulses := min 16777215 (u.pulses + 1)
        let amount := pulses * 100 / q.cfg.pulses
        let on := q.enable && decide (amount < u.target)
        exec (.meterPulse p) s = .next (at_ fun q => { q with
          turn := some { u with pulses := pulses, dispensed := amount }, enable := on
          timer := if on then some restart else none }))
    ∧ (q.state ≠ .fuelling → exec (.meterPulse p) s = .next s ∧ exec (.nozzleHang p) s = .next s)

/-- A nozzle hang ends a FUELLING turn: the pump goes to FINISHED with enable and no-flow timer off; the account of its
fuel is charged, down to a stock of 0, with STOCK_SHORT and what is missing when it does not suffice, and with STOCK_LOW
once below the reserve; and the record in service there is written, mark FULL from the target on, PARTIAL below it, its
level raised by the whole percents, FUEL off its itinerary if it is the head (the model's choice, log 20), and seeks its
next service where it stands. A fuelling pump whose no-flow timer runs out: the turn ends as at a hang, the pump is OUT
and keeps its turn, one PUMP_FAULT with detail NO_FLOW is raised, and with no other pump of the type in service the
entries of the type leave the apron queue and seek. A CLEAR at a BAY blanks its direction sign, and then (that the sign
comes before the owner is the model's choice, log 22) a FINISHED pump loses its turn, goes to FREE and heads are looked
for; an OUT one loses its turn; an OCCUPIED one so ends its turn as with nothing dispensed, the record in service there
PARTIAL with its level kept, and goes to FREE, heads looked for; a FUELLING one ends its turn with what was dispensed,
goes OUT with PUMP_FAULT, detail DRIVE_OFF, and the queue is handled as above; a CALLING, a FREE, or an OUT pump with no
turn is left as it is. Then a bus of the turn in SEEKING or HANDING there is ADRIFT, its seek cancelled, with
UNPLANNED_EXIT. -/
def Obligations.HangAndNoFlowEndTheTurn : Prop :=
  (∀ (s : State) (p : Nat) (q : Pump) (u : Turn), s.works → s.yard.pump? p = some q → q.turn = some u →
     q.state = .fuelling → q.cfg.fuel ≠ .noFuel →
     let d := u.dispensed
     let a := s.yard.fuel.account q.cfg.fuel
     let reserve := s.layout.islandCfg.reserve q.cfg.fuel
     let minute := if s.clock.valid then s.clock.minute else 0
     ∃ t, exec (.nozzleHang p) s = .next t
       ∧ t.yard.pump? p = some { q with state := .finished, enable := false, timer := none }
       ∧ (∀ r, r ≠ p → t.yard.pump? r = s.yard.pump? r)
       ∧ (t.yard.fuel.account q.cfg.fuel).stock = a.stock - d
       ∧ (t.yard.fuel.account q.cfg.fuel).setTotal = a.setTotal
       ∧ (t.yard.fuel.account q.cfg.fuel).dispensed = min 4294967295 (a.dispensed + d)
       ∧ (t.yard.fuel.account q.cfg.fuel).short = (a.short || decide (a.stock < d))
       ∧ (t.yard.fuel.account q.cfg.fuel).lowReported = (a.lowReported || decide (a.stock - d < reserve))
       ∧ (s.yard.notices.length ≤ 30 → t.yard.lost = s.yard.lost ∧ t.yard.notices = s.yard.notices
         ++ (if a.stock < d then [⟨.stockShort, minute, none, some (.fuel q.cfg.fuel), [d - a.stock]⟩] else [])
         ++ (if a.stock - d < reserve ∧ a.lowReported = false then
             [⟨.stockLow, minute, none, some (.fuel q.cfg.fuel), [a.stock - d]⟩] else []))
       ∧ (∀ r, s.yard.rec? u.fleet = some r → r.state = .inService → r.loc = .pump q.cfg.index →
           let left := match r.bus.itinerary with
             | .fuel :: rest => rest
             | it => it
           t.yard.rec? u.fleet = some { r with
             state := .seeking
             bus.level := min 100 (r.bus.level + d / r.bus.capacity)
             bus.fuelMark := if u.target ≤ d then .full else .partly
             bus.itinerary := match left with
               | [] => [.berth]
               | .exit :: _ => [.berth]
               | it => it })
       ∧ t.yard.lanes = s.yard.lanes ∧ t.yard.wash = s.yard.wash ∧ t.yard.points = s.yard.points
       ∧ t.yard.fuel.queue = s.yard.fuel.queue ∧ t.yard.fuel.reservs = s.yard.fuel.reservs
       ∧ t = { s with yard := t.yard })
  ∧ (∀ (s : State) (p : Nat) (q : Pump) (u : Turn) (left : Nat), s.works → s.yard.pump? p = some q → q.turn = some u →
       q.state = .fuelling → q.timer = some left →
       let ended := endTurn s.env q u u.dispensed
         (setPump s.env p (fun q => { q with enable := false, timer := none }) s.yard)
       let y := notify s.env .pumpFault none (some (.pump p)) [0] (setPump s.env p (fun q => { q with state := .out }) ended)
       (y.fuel.pumps.any (fun x => x.cfg.fuel == q.cfg.fuel && x.state != .out) = true →
         exec (.noFlowTimeout p) s = .next { s with yard := settle s.env y })
       ∧ (y.fuel.pumps.any (fun x => x.cfg.fuel == q.cfg.fuel && x.state != .out) = false →
         exec (.noFlowTimeout p) s = .next { s with yard := settle s.env (
           ((y.fuel.queue.filter (·.fuel == q.cfg.fuel)).map (·.fleet)).foldl (fun y f => enterSeeking f y)
             { y with fuel := { y.fuel with queue := y.fuel.queue.filter (·.fuel != q.cfg.fuel) } }) }))
  ∧ (∀ (e : Env) (p : Nat) (y : Yard) (q : Pump), y.pump? p = some q →
       let y' := setSign e (36 + p) 0 y
       (∀ u, q.turn = some u →
         let cleared (z : Yard) : Prop := clearAt e .bay p y = settle e (checkAdrift e u.fleet (.pump p) (.pump p) z)
         let freed (z : Yard) : Yard := setPump e p (fun q => { q with
           state := .free, turn := none, timer := none, enable := false }) z
         (q.state = .finished → cleared (lookForHeads e (freed y')))
         ∧ (q.state = .out → cleared (setPump e p (fun q => { q with turn := none }) y'))
         ∧ (q.state = .occupied → cleared (lookForHeads e (freed (endTurnRec q u 0 .partly y'))))
         ∧ (q.state = .fuelling →
           let ended := endTurn e q u u.dispensed (setPump e p (fun q => { q with enable := false, timer := none }) y')
           let z := notify e .pumpFault none (some (.pump p)) [1]
             (setPump e p (fun q => { q with state := .out, turn := none }) ended)
           (z.fuel.pumps.any (fun x => x.cfg.fuel == q.cfg.fuel && x.state != .out) = true → cleared z)
           ∧ (z.fuel.pumps.any (fun x => x.cfg.fuel == q.cfg.fuel && x.state != .out) = false → cleared (
             ((z.fuel.queue.filter (·.fuel == q.cfg.fuel)).map (·.fleet)).foldl (fun y f => enterSeeking f y)
               { z with fuel := { z.fuel with queue := z.fuel.queue.filter (·.fuel != q.cfg.fuel) } })))
         ∧ (∀ r, y.rec? u.fleet = some r → r.state = .inService → r.loc = .pump q.cfg.index → r.bus.level ≤ 100 →
           let left := match r.bus.itinerary with
             | .fuel :: rest => rest
             | it => it
           (endTurnRec q u 0 .partly y).rec? u.fleet = some { r with
             state := .seeking
             bus.fuelMark := .partly
             bus.itinerary := match left with
               | [] => [.berth]
               | .exit :: _ => [.berth]
               | it => it }))
       ∧ ((q.turn = none ∨ q.state = .calling ∨ q.state = .free) → clearAt e .bay p y = y'))
  ∧ (∀ (e : Env) (f : Nat) (loc : Loc) (res : NoticeRes) (y : Yard),
       (∀ r, y.rec? f = some r → (r.state = .seeking ∨ r.state = .handing) → r.loc = loc → checkAdrift e f loc res y
         = notify e .unplannedExit (some f) (some res) [] (cancelBusSeek e f (loseRec f .adrift y)))
       ∧ ((∀ r, y.rec? f = some r → ¬ ((r.state = .seeking ∨ r.state = .handing) ∧ r.loc = loc)) →
         checkAdrift e f loc res y = y))

/-- Arrivals at the apron and at a bay. A bus arriving at APRON_IN leaves the apron's commitments and, with a pump of
its fuel in service, joins the queue's tail with its turn level, no skips and its target, QUEUED at the apron; with none
in service its record, at the apron, goes to SEEKING with its itinerary as it was, and joins the seeking list's tail. A
bus at the BAY of its CALLING pump is IN_SERVICE there and the pump OCCUPIED with the call timer off; at a FREE,
FINISHED or OUT pump, as at APRON_IN without an expectation, it raises INTRUDER and nothing else. A CALLING pump whose
call timer runs out goes to FREE and PUMP_SKIP is raised with the skip count. Below the maximum skips and with room on
the apron the bus returns to the queue's tail with its level and its skips; else its record goes STRAY. The fuel unit
looks for heads. The aging timer lowers the level of every entry by one, not below 0, and starts again. What looking for
heads does once: the FREE pump of the lowest index for whose type the queue holds an entry takes the head, of the lowest
level and among those the earliest. At a target of at least the minimum fill the head leaves the queue for the pump's
turn, the pump is CALLING with its call timer running, the record CALLED at the apron; below it the bus is deferred: off
the queue, mark DEFERRED, FUEL off its itinerary if it is the head (the model's choice, log 20), its next step taken,
FUEL_DEFERRED raised with the target. It is done until no FREE pump has a head. -/
def Obligations.ApronArrivalsSkipsAndAging : Prop :=
  (∀ (e : Env) (y : Yard),
     (∀ i (x : Expect) r, y.rec? x.fleet = some r →
       let z := apronUncommit x.fleet y
       (y.served r.bus.fuel = true → arrival e .apronIn i x y
         = settle e (lookForHeads e (placeRec x.fleet .queued .apron { z with
           fuel := { z.fuel with queue := z.fuel.queue ++ [⟨x.fleet, r.bus.fuel,
             min 7 (slackOf e.minute (r.bus.pin.map (·.release)) / e.layout.islandCfg.levelStep), 0,
             fillTarget e z r.bus.fuel r.bus.capacity r.bus.level (z.maxTurn r.bus.fuel)
               (r.bus.pin.map (·.release))⟩] } })))
       ∧ (y.served r.bus.fuel = false → ∃ t, arrival e .apronIn i x y = settle e t
         ∧ t.rec? x.fleet = some { r with state := .seeking, loc := .apron }
         ∧ t.seeking = y.seeking.filter (· != x.fleet) ++ [x.fleet]
         ∧ (∀ g, g ≠ x.fleet → t.rec? g = y.rec? g)
         ∧ t = { z with records := t.records, seeking := t.seeking }))
     ∧ (∀ p q u, y.pump? p = some q → q.state = .calling → q.turn = some u → arriveAt e .bay p y
       = placeRec u.fleet .inService (.pump p) (setPump e p (fun q => { q with state := .occupied, timer := none }) y))
     ∧ (∀ p q, y.pump? p = some q → (q.state = .free ∨ q.state = .finished ∨ q.state = .out) →
       arriveAt e .bay p y = notify e .intruder none (some (.pump p)) [] y)
     ∧ (∀ i, intruder e .apronIn i y = notify e .intruder none (some .apron) [] y)
     ∧ (lookForHeads e y).nextCall = none
     ∧ (y.nextCall = none → lookOnce e y = y)
     ∧ (∀ p x, y.nextCall = some (p, x) ↔ ∃ before after left right,
         y.fuel.pumps = before ++ p :: after ∧ p.state = .free
         ∧ (∀ q ∈ before, q.state = .free → ∀ z ∈ y.fuel.queue, z.fuel ≠ q.cfg.fuel)
         ∧ y.fuel.queue = left ++ x :: right ∧ x.fuel = p.cfg.fuel
         ∧ (∀ z ∈ left, z.fuel = p.cfg.fuel → x.level < z.level)
         ∧ (∀ z ∈ right, z.fuel = p.cfg.fuel → x.level ≤ z.level))
     ∧ (∀ p x r, y.nextCall = some (p, x) → y.rec? x.fleet = some r →
       let target := fillTarget e y x.fuel r.bus.capacity r.bus.level p.cfg.maxTurn (r.bus.pin.map (·.release))
       let z : Yard := { y with fuel := { y.fuel with queue := y.fuel.queue.filter (·.fleet != x.fleet) } }
       (e.layout.islandCfg.minFill ≤ target → lookOnce e y = placeRec x.fleet .called .apron
         (setPump e p.cfg.index (fun q => { q with
           state := .calling
           turn := some { fleet := x.fleet, level := x.level, skips := x.skips, target := target,
                          sinceCall := 0, pulses := 0, dispensed := 0 }
           timer := some (60000 * e.layout.islandCfg.callTimeout) }) z))
       ∧ (target < e.layout.islandCfg.minFill → lookOnce e y = notify e .fuelDeferred (some x.fleet) none [target]
         (nextStep x.fleet (onRec x.fleet (fun r => { r with
           state := .served
           bus.fuelMark := .deferred
           bus.itinerary := match r.bus.itinerary with
             | .fuel :: rest => rest
             | it => it }) z)))))
  ∧ (∀ s : State, s.works →
       (∀ p q u, s.yard.pump? p = some q → q.turn = some u → q.state = .calling →
         let y := notify s.env .pumpSkip (some u.fleet) (some (.pump p)) [u.skips + 1] (freePump s.env p s.yard)
         (u.skips + 1 < s.layout.islandCfg.maxSkips →
           s.yard.fuel.queue.length + s.yard.fuel.reservs.length < s.layout.islandCfg.capacity →
           exec (.pumpCallTimeout p) s = .next { s with yard := settle s.env (lookForHeads s.env
             (placeRec u.fleet .queued .apron { y with fuel := { y.fuel with
               queue := y.fuel.queue ++ [⟨u.fleet, q.cfg.fuel, u.level, u.skips + 1, u.target⟩] } })) })
         ∧ ((s.layout.islandCfg.maxSkips ≤ u.skips + 1
             ∨ s.layout.islandCfg.capacity ≤ s.yard.fuel.queue.length + s.yard.fuel.reservs.length) →
           exec (.pumpCallTimeout p) s = .next { s with yard := settle s.env (lookForHeads s.env
             (notify s.env .stray (some u.fleet) none [] (loseRec u.fleet .stray y))) }))
       ∧ (∀ left, s.yard.fuel.aging = some left → exec .agingTimerExpiry s
         = .next { s with yard := { s.yard with fuel := { s.yard.fuel with
             queue := s.yard.fuel.queue.map fun x => { x with level := x.level - 1 }
             aging := some (60000 * s.layout.islandCfg.aging) } } }))

/-! ## The wash unit -/

/-- START is high in STARTING and WASHING, and PROG A and B then carry the code of the programme, else 0. BUSY in
STARTING: WASHING, the start timer stops and the wash seconds begin at 0. DONE in WASHING: DRAINING, the call forgotten;
the estimate of the programme washed moves by alpha thirty-seconds towards the measured duration, within 16 to 4080; and
the record in service there is DONE, WASH off its itinerary if it is the head (the model's choice, log 20), and seeks.
In other states they only set the station's view of the input (that they set it, and act also when it was set, is the
model's choice, log 26). The lane's call: FREE with a head, it takes the highest enabled programme not above the wanted
one that ends within the slack: the record is CALLED at the lane with that programme wanted, the entry called, the lane
CALLING with its call timer running; with none the head leaves queue and expectations, mark SKIPPED, WASH off its
itinerary, its next step taken, WASH_SKIPPED raised with NO_TIME. It calls until it is not FREE or its queue is empty.
The called bus at WASH_IN: LOADING, IN_SERVICE there; any other expected bus is handed back to the front of the
expectations, with an INTRUDER of its fleet unless the lane is OUT (in FREE, and another bus in CALLING, so too: the
model's choice, log 21); an intruder raises INTRUDER with no fleet unless the lane is OUT. A CLEAR at WASH_IN in
LOADING: SKIPPED, DRAINING, WASH_SKIPPED with LEFT_ENTRY; in other states nothing. A CLEAR at WASH_OUT blanks its sign,
before the owner acts (the model's choice, log 22); DRAINING, the lane goes to FREE and calls; OUT, its bus is cleared;
then the bus that left is looked at for ADRIFT; in other states nothing more. -/
def Obligations.BusyAndDoneDriveTheWash : Prop :=
  (∀ (s : State) (w : Nat) (l : WashLane), s.works → s.yard.washLane? w = some l →
     let seen (i : PlantInput) : State := { s with yard := setPlant w i true s.yard }
     (l.state = .starting → exec (.busy w) s = .next { s with
       yard := setWash s.env w (fun l => { l with state := .washing, timer := none, washMs := 0 }) (setPlant w .busy true s.yard) })
     ∧ (l.state ≠ .starting → exec (.busy w) s = .next (seen .busy))
     ∧ (∀ f x, l.state = .washing → l.current = some f → l.called = some x →
         let m := min 4080 (l.washMs / 1000 * 16 / 60)
         let v := max 16 (min 4080 ((l.estimate x.prog * (32 - l.cfg.alpha) + m * l.cfg.alpha) / 32))
         exec (.done w) s = .next { s with yard := settle s.env (endWash w f .done
           (setWash s.env w (fun l => { (l.setEstimate x.prog v) with state := .draining, called := none })
             (setPlant w .done true s.yard))) })
     ∧ (l.state ≠ .washing → exec (.done w) s = .next (seen .done))
     ∧ (l.state = .starting ∨ l.state = .washing → s.startPin w = true
         ∧ ∀ x, l.called = some x → s.progA w = decide (x.prog.code % 2 = 1) ∧ s.progB w = decide (2 ≤ x.prog.code))
     ∧ (l.state ≠ .starting → l.state ≠ .washing →
         s.startPin w = false ∧ s.progA w = false ∧ s.progB w = false))
  ∧ (∀ (w f : Nat) (m : WashMark) (y : Yard) (r : Record), y.rec? f = some r → r.state = .inService → r.loc = .wash w →
       let left := match r.bus.itinerary with
         | .wash :: rest => rest
         | it => it
       (endWash w f m y).rec? f = some { r with
         state := .seeking
         bus.washMark := m
         bus.itinerary := match left with
           | [] => [.berth]
           | .exit :: _ => [.berth]
           | it => it })
  ∧ (∀ (e : Env) (w : Nat) (y : Yard) (l : WashLane), y.washLane? w = some l →
       (l.queue.length ≤ 8 → ∀ m, (washCall e w y).washLane? w = some m → m.state ≠ .free ∨ m.queue = [])
       ∧ ((l.state ≠ .free ∨ l.queue = []) → washCallOnce e w y = y)
       ∧ (∀ x rest r, l.state = .free → l.queue = x :: rest → y.rec? x.fleet = some r →
         let p := l.downgrade r.bus.wash 0 (slackOf e.minute (r.bus.pin.map (·.release)))
         (p ≠ .noWash → washCallOnce e w y = setWash e w (fun l => { l with
             state := .calling, queue := rest, called := some ⟨x.fleet, p, x.skips⟩
             timer := some (60000 * l.cfg.callTimeout) })
           (onRec x.fleet (fun r => { r with state := .called, loc := .wash w, bus.wash := p }) y))
         ∧ (p = .noWash → washCallOnce e w y = notify e .washSkipped (some x.fleet) (some (.wash w)) [0]
           (nextStep x.fleet (onRec x.fleet (fun r => { r with
             state := .served
             bus.washMark := .skipped
             bus.itinerary := match r.bus.itinerary with
               | .wash :: rest => rest
               | it => it })
             (removeExpect e .washIn w x.fleet (onWash w (fun l => { l with queue := rest }) y))))))
       ∧ (∀ (x : Expect),
         let mine : Prop := l.state = .calling ∧ ∃ c, l.called = some c ∧ c.fleet = x.fleet
         (mine → arrival e .washIn w x y = placeRec x.fleet .inService (.wash w) (setWash e w (fun l => { l with
           state := .loading, current := some x.fleet, timer := none }) y))
         ∧ (¬ mine → l.state ≠ .out → arrival e .washIn w x y
           = notify e .intruder (some x.fleet) (some (.wash w)) [] (onQueue e .washIn w (x :: ·) y))
         ∧ (l.state = .out → arrival e .washIn w x y = onQueue e .washIn w (x :: ·) y))
       ∧ (l.state ≠ .out → intruder e .washIn w y = notify e .intruder none (some (.wash w)) [] y)
       ∧ (l.state = .out → intruder e .washIn w y = y)
       ∧ (∀ f, l.state = .loading → l.current = some f → clearAt e .washIn w y
         = settle e (notify e .washSkipped (some f) (some (.wash w)) [1]
             (setWash e w (fun l => { l with state := .draining, called := none }) (endWash w f .skipped y))))
       ∧ (l.state ≠ .loading → clearAt e .washIn w y = y)
       ∧ (let z := setSign e (42 + w) 0 y
         (∀ f, l.state = .draining → l.current = some f → clearAt e .washOut w y
           = settle e (checkAdrift e f (.wash w) (.wash w)
               (washCall e w (setWash e w (fun l => { l with state := .free, current := none }) z))))
         ∧ (∀ f, l.state = .out → l.current = some f → clearAt e .washOut w y
           = settle e (checkAdrift e f (.wash w) (.wash w) (onWash w (fun l => { l with current := none }) z)))
         ∧ (l.state ≠ .draining → l.state ≠ .out → clearAt e .washOut w y = z)
         ∧ (l.current = none → clearAt e .washOut w y = z)))

/-- FAULT on a lane that is not OUT, and the start timer in STARTING, take the lane out of service: OUT, its timers off;
a bus inside with its wash not ended is ABORTED and seeks its next service; WASH_FAULT is raised with detail 0 or 1; a
called bus is EXPECTED again; and the called entry and the queue are handed on, one by one. A lane that is OUT stays as
it was. A CALLING wash lane whose call timer runs out goes to FREE. Below the maximum skips and with room the called
entry returns to the queue's tail with one more skip, its expectation moved to the tail, EXPECTED; else its record goes
STRAY. Then the lane calls. The release of a plant input only clears the station's view of it (the view, set by FAULT
also when it was set, and kept in LOCKED too, is the model's choice, log 26). The inputs of a lane not laid out are
ignored, its outputs low (log 62). Handing on an entry: its expectation leaves the lane, and with the other lane not
OUT, with room, with an enabled programme not above the wanted one and a place among its expectations, the entry joins
that lane's tail with its skips and its programme set for that lane, its record EXPECTED there; else it goes to SEEKING,
at the tail of the seeking list, and joins the fault re-seek list. -/
def Obligations.WashFaultsSkipsAndReleasedInputs : Prop :=
  (∀ (s : State) (w : Nat) (l : WashLane), s.works → s.yard.washLane? w = some l →
     let out (detail : Nat) (y : Yard) : Yard :=
       let y := setWash s.env w (fun l => { l with state := .out, timer := none }) y
       let y := match l.current with
         | some f => if l.state = .loading ∨ l.state = .starting ∨ l.state = .washing then endWash w f .aborted y else y
         | none => y
       let y := notify s.env .washFault none (some (.wash w)) [detail] y
       match l.state, l.called with
       | .calling, some x =>
         settle s.env (handOnQueue s.env w (x :: l.queue) (placeRec x.fleet .expected (.wash w) y))
       | _, _ => settle s.env (handOnQueue s.env w l.queue y)
     (l.state ≠ .out → exec (.fault w) s = .next { s with yard := out 0 (setPlant w .fault true s.yard) })
     ∧ (l.state = .out → exec (.fault w) s = .next { s with yard := setPlant w .fault true s.yard })
     ∧ (l.state = .starting → exec (.startTimeout w) s = .next { s with yard := out 1 s.yard })
     ∧ (l.state ≠ .starting → exec (.startTimeout w) s = .next s))
  ∧ (∀ s : State,
       (∀ w l x, s.works → s.yard.washLane? w = some l → l.state = .calling → l.called = some x →
         let y := setWash s.env w (fun l => { l with state := .free, called := none, timer := none }) s.yard
         (x.skips + 1 < l.cfg.maxSkips → l.queue.length + l.reservs.length < l.cfg.depth →
           exec (.washCallTimeout w) s = .next { s with yard := settle s.env (washCall s.env w
             (placeRec x.fleet .expected (.wash w) (tailExpect s.env .washIn w x.fleet
               (onWash w (fun l => { l with queue := l.queue ++ [⟨x.fleet, x.prog, x.skips + 1⟩] }) y)))) })
         ∧ ((l.cfg.maxSkips ≤ x.skips + 1 ∨ l.cfg.depth ≤ l.queue.length + l.reservs.length) →
           exec (.washCallTimeout w) s = .next { s with yard := settle s.env (washCall s.env w
             (notify s.env .stray (some x.fleet) none []
               (loseRec x.fleet .stray (removeExpect s.env .washIn w x.fleet y)))) }))
       ∧ (∀ w i, s.inReset = false → s.yard.washLane? w = none → s.startPin w = false ∧ s.progCode w = 0
         ∧ exec (.plantInputReleased w i) s = .next s ∧ exec (.busy w) s = .next s ∧ exec (.done w) s = .next s
         ∧ exec (.fault w) s = .next s)
       ∧ (∀ w i l, s.inReset = false → w < 2 → s.yard.washLane? w = some l → exec (.plantInputReleased w i) s
         = .next { s with yard := { s.yard with wash :=
             if w = 0 then { s.yard.wash with plant0 := s.yard.wash.plant0.set i false }
             else { s.yard.wash with plant1 := s.yard.wash.plant1.set i false } } }))
  ∧ (∀ (e : Env) (w : Nat) (x : WashEntry) (y : Yard) (r : Record), y.rec? x.fleet = some r →
       let v := 1 - w
       let y' := removeExpect e .washIn w x.fleet y
       let takes (l : WashLane) : Prop := l.state ≠ .out ∧ l.queue.length + l.reservs.length < l.cfg.depth
         ∧ l.cfg.joinProg r.bus.wash ≠ .noWash
       (∀ l z, y.washLane? v = some l → takes l → pushExpect e .washIn v x.fleet false y' = some z →
         handOnEntry e w x y = placeRec x.fleet .expected (.wash v) (onWash v (fun l => { l with
           queue := l.queue ++ [⟨x.fleet, l.cfg.joinProg r.bus.wash, x.skips⟩] }) z))
       ∧ ((y.washLane? v = none ∨ (∃ l, y.washLane? v = some l ∧ ¬ takes l)
           ∨ pushExpect e .washIn v x.fleet false y' = none) →
         let z := enterSeeking x.fleet y'
         handOnEntry e w x y = { z with wash := { z.wash with
           faultList := y.wash.faultList.filter (· != x.fleet) ++ [x.fleet] } }))

/-! ## The gate unit -/

/-- The poll timer starts again with the poll interval. With a transaction under way nothing more happens; with the bus
free and both lines high a read transaction begins with a start and the first bit of the reader's address. With the bus
held by another master or a line low no transfer is begun and the poll has failed. A start condition of another master
seen between transactions holds the bus, a stop condition frees it. How the transaction ends, and what the poller puts
on the bus until then, from SDA in its clocks: after the start, the address and the read direction, with the ninth clock
high, NO TAG, and a stop and no data clock; with it low, eight bytes of which the first seven are acknowledged and the
eighth is not, a stop, and the record; with a sent high bit of the address byte or the last acknowledge read low,
ARBITRATION LOST, and nothing more. A failed poll raises the count of failed polls, up to 3, and POLL_FAILED; at 3 with
no READER_FAULT since the last success one is raised with the reader's address. Losing the arbitration is a failed poll,
with the bus held from then on (the model's choice, log 25); a transaction with no tag is a success, which sets the
count to 0 and arms the notice again. -/
def Obligations.PollsAndTheirResults : Prop :=
  (∀ (s : State) (g : GateCfg) (left : Nat), s.works → s.layout.gate = some g → s.yard.gate.pollTimer = some left →
     let y : Yard := { s.yard with gate := { s.yard.gate with pollTimer := some g.poll } }
     (s.yard.gate.polling = true → ∀ low, exec (.pollTimerExpiry low) s = .next { s with yard := y })
     ∧ (s.yard.gate.polling = false →
       (s.yard.gate.busHeld = false → ∃ t, exec (.pollTimerExpiry false) s = .next t
         ∧ t.yard.gate.busOut = [.start] ++ ((natBits 7 g.reader).take 1).map .send
         ∧ t = { s with yard := { y with gate := { y.gate with polling := true, busOut := t.yard.gate.busOut } } })
       ∧ (∀ low, s.yard.gate.busHeld = true ∨ low = true → exec (.pollTimerExpiry low) s
         = .next { s with yard := pollFailed s.env { y with gate := { y.gate with busOut := [] } } })
       ∧ (∀ b, exec (.i2cStartStopSeen b) s
         = .next { s with yard := { s.yard with gate := { s.yard.gate with busHeld := b } } })))
  ∧ (∀ (a : Nat),
       let sent : List Bool := natBits 7 a ++ [true]
       (∀ rest, pollOutcome a (sent ++ true :: rest) = some .noTag
         ∧ busDriven a (sent ++ true :: rest) = [.start] ++ sent.map .send ++ [.readerAck, .stop])
       ∧ (∀ i rest, sent[i]? = some true → pollOutcome a (sent.take i ++ false :: rest) = some .arbitrationLost
         ∧ busDriven a (sent.take i ++ false :: rest) = [.start] ++ (sent.take (i + 1)).map .send)
       ∧ (∀ (v : Vector Byte 8) (last : Bool),
         let sda := sent ++ [false] ++ (v.toList.take 7).flatMap (fun b => natBits 8 b.toNat ++ [false])
           ++ natBits 8 v[7].toNat ++ [last]
         pollOutcome a sda = some (if last then .tag v else .arbitrationLost)
         ∧ busDriven a sda = [.start] ++ sent.map .send ++ [.readerAck]
             ++ (List.replicate 7 (List.replicate 8 BusItem.readerBit ++ [.send false])).flatten
             ++ List.replicate 8 .readerBit ++ [.send true] ++ (if last then [.stop] else [])))
  ∧ (∀ (s : State) (g : GateCfg) (sda : List Bool), s.works → s.layout.gate = some g → s.yard.gate.polling = true →
       (pollOutcome g.reader sda = some .noTag → exec (.pollTransactionEnd sda) s
         = .next { s with yard := { s.yard with gate := { s.yard.gate with
             polling := false, busOut := busDriven g.reader sda, failCount := 0, faultRaised := false } } })
       ∧ (pollOutcome g.reader sda = some .arbitrationLost → ∃ t, exec (.pollTransactionEnd sda) s = .next t
         ∧ t.yard.gate.polling = false ∧ t.yard.gate.busHeld = true ∧ t.yard.gate.busOut = busDriven g.reader sda
         ∧ t.yard.gate.failCount = min 3 (s.yard.gate.failCount + 1)
         ∧ t.yard.gate.faultRaised = (s.yard.gate.faultRaised || decide (2 ≤ s.yard.gate.failCount))
         ∧ t.yard.cnt = { s.yard.cnt with pollFailed := min 65535 (s.yard.cnt.pollFailed + 1) }
         ∧ (s.yard.notices.length < 32 → t.yard.notices = s.yard.notices
             ++ (if 2 ≤ s.yard.gate.failCount ∧ s.yard.gate.faultRaised = false then
               [⟨.readerFault, if s.clock.valid then s.clock.minute else 0, none, none, [g.reader]⟩] else []))
         ∧ t = { s with yard := { s.yard with
             gate := { s.yard.gate with
               polling := false, busOut := t.yard.gate.busOut, busHeld := true, failCount := t.yard.gate.failCount
               faultRaised := t.yard.gate.faultRaised }
             cnt := t.yard.cnt, notices := t.yard.notices, lost := t.yard.lost } }))

/-- A transaction that ends with a record read is a success. A tag record with its valid mark off changes nothing but
that; a bad one raises TAG_BAD by one; a good one joins the tail of the arrival FIFO, or with 8 entries in it is lost
with ARRIVAL_LOST, and counts as a tag read in the loop cross-check. The oldest item of a cross-check list that has
stood for the tag window leaves it: an arrival with an INTRUDER at the gate entry, a read silently. -/
def Obligations.TagsAndTheLoopCrossCheck : Prop :=
  (∀ (s : State) (g : GateCfg) (sda : List Bool) (bytes : Vector Byte 8), s.works → s.layout.gate = some g →
     s.yard.gate.polling = true → pollOutcome g.reader sda = some (.tag bytes) →
     let y : Yard := { s.yard with gate := { s.yard.gate with
       polling := false, busOut := busDriven g.reader sda, failCount := 0, faultRaised := false } }
     (decodeTag bytes = .noMark → exec (.pollTransactionEnd sda) s = .next { s with yard := y })
     ∧ (decodeTag bytes = .bad → exec (.pollTransactionEnd sda) s = .next { s with yard := { y with
         cnt := { y.cnt with tagBad := min 65535 (y.cnt.tagBad + 1) } } })
     ∧ (∀ b, decodeTag bytes = .good b → s.yard.gate.fifo.length < 8 → exec (.pollTransactionEnd sda) s
       = .next { s with yard := settle s.env (crossRead s.env { y with gate := { y.gate with
           fifo := y.gate.fifo ++ [⟨b, false⟩] } }) })
     ∧ (∀ b, decodeTag bytes = .good b → 8 ≤ s.yard.gate.fifo.length → exec (.pollTransactionEnd sda) s
       = .next { s with yard := settle s.env (crossRead s.env (
           notify s.env .arrivalLost (some b.fleet) none [] y)) }))
  ∧ (∀ s : State, s.works →
       (∀ x rest, s.yard.gate.arrivals = x :: rest → exec (.tagWindowExpiry true) s
         = .next { s with yard := notify s.env .intruder none (some .gateEntry) [] (
             { s.yard with gate := { s.yard.gate with arrivals := rest } }) })
       ∧ (exec (.tagWindowExpiry false) s
         = .next { s with yard := { s.yard with gate := { s.yard.gate with reads := s.yard.gate.reads.drop 1 } } }))

/-- The eight bytes of a tag: fleet in 12 bits, class in 3, the valid mark, fuel and wash in 2 bits, capacity in 10,
level in 7, and a check byte, the sum of the others modulo 256; the bits marked 0 (r2, r4, b5, b6) are not tested. A tag
so written of a bus in range is read back as that bus; with the mark off it is no tag; with another check byte, or with
a field out of range or fuel code 3, it is bad. -/
def Obligations.TagBytesAreReadAsWritten : Prop :=
  ∀ (fleet : BitVec 12) (cls : BitVec 3) (fuel : Fuel) (wash : Prog) (cap : BitVec 10) (level : BitVec 7) (c : Byte)
    (r2 : BitVec 2) (r4 : BitVec 1) (b5 b6 : Byte),
    let f2 : BitVec 2 := match fuel with
      | .noFuel => 0
      | .diesel => 1
      | .gas => 2
    let w2 : BitVec 2 := match wash with
      | .noWash => 0
      | .rinse => 1
      | .standard => 2
      | .full => 3
    let b0 : Byte := fleet.extractLsb' 4 8
    let b1 (mark : BitVec 1) : Byte := fleet.extractLsb' 0 4 ++ cls ++ mark
    let b2 (f2 : BitVec 2) : Byte := f2 ++ w2 ++ r2 ++ cap.extractLsb' 8 2
    let b3 : Byte := cap.extractLsb' 0 8
    let b4 : Byte := r4 ++ level
    let sum (f2 : BitVec 2) := b0 + b1 1 + b2 f2 + b3 + b4 + b5 + b6
    let ok : Prop := 1 ≤ fleet.toNat ∧ 50 ≤ cap.toNat ∧ cap.toNat ≤ 600 ∧ level.toNat ≤ 100
    decodeTag #v[b0, b1 0, b2 f2, b3, b4, b5, b6, c] = .noMark
    ∧ (c ≠ sum f2 → decodeTag #v[b0, b1 1, b2 f2, b3, b4, b5, b6, c] = .bad)
    ∧ (ok → decodeTag #v[b0, b1 1, b2 f2, b3, b4, b5, b6, sum f2]
        = .good ⟨fleet.toNat, cls.toNat, fuel, cap.toNat, level.toNat, wash⟩)
    ∧ (¬ ok → decodeTag #v[b0, b1 1, b2 f2, b3, b4, b5, b6, sum f2] = .bad)
    ∧ decodeTag #v[b0, b1 1, b2 3, b3, b4, b5, b6, sum 3] = .bad

/-! ## The end of an event -/

/-- The end of an event reaches no more than a new record from the arrival FIFO and the seek entries it gives out. In
the RUNNING phase it gives them out while a free entry and a subject that waits for one are left: first the first
CALLING duty with its call pending, which becomes "no", then the oldest record of the seeking list without an entry, for
the head of its itinerary; with none there, no entry goes out (the model's choice, log 49). The entry takes the next
free number of the counter (numbers held are passed over, the model's choice, log 27), is QUEUED with no station
excluded, and its SEEK is queued; and the head of the FIFO stays only with the custody table full. That both happen at
the end of the event is the model's choice (log 5). How the head of the FIFO asks: its fleet held, it leaves and
DUPLICATE_TAGS rises by one; with the table full it stays; else it leaves for a new record at the gate with the fields
of the tag or the ADMIT, no marks, the minute of arrival, FUEL where the bus needs it, WASH where it is wanted, and
BERTH. The record takes the pin that the pin table holds for its fleet; else that of the first OPEN duty that admits its
class and burns its fuel, which becomes PINNED and is paired with it; else none; and goes to SEEKING at the tail of the
seeking list. -/
def Obligations.TheEndOfAnEventGivesOutEveryFreeEntry : Prop :=
  (∀ (e : Env) (y : Yard), Yard.settledFrom y (settle e y)
    ∧ (e.running = true → 8 ≤ (settle e y).seek.table.length ∨ (settle e y).nextSubject = none)
    ∧ (y.gate.fifo.length ≤ 8 → (settle e y).gate.fifo = [] ∨ 96 ≤ (settle e y).records.length)
    ∧ ((8 ≤ y.seek.table.length ∨ y.nextSubject = none) → giveEntry e y = y)
    ∧ (∀ w, y.seek.table.length < 8 → y.nextSubject = some w →
      let k := y.seek.nextNumber
      let given (x : Duty) : Duty := match x.state with
        | .calling _ g => { x with state := .calling false g }
        | _ => x
      giveEntry e y = send e (.seek k) { y with
        seek := { y.seek with
          table := y.seek.table ++ [⟨k, w, [], .queued, 0, none, none, false, none⟩]
          counter := (k + 1) % 256
          given := match w with
            | .bus f _ => insertBy (·.1) (k, f) y.seek.given
            | .duty _ => y.seek.given.filter (·.1 != k) }
        gate := match w with
          | .bus _ _ => y.gate
          | .duty d => { y.gate with duties := updFirst (·.number == d) given y.gate.duties } }))
  ∧ (∀ y : Yard,
      let waits (d : Duty) : Prop := ∃ g, d.state = .calling true g
      let served (f : Nat) : Prop := ∃ en ∈ y.seek.table, ∃ sv, en.subject = .bus f sv
      (∀ a d b, y.gate.duties = a ++ d :: b → waits d → (∀ z ∈ a, ¬ waits z) → y.nextSubject = some (.duty d.number))
      ∧ ((∀ d ∈ y.gate.duties, ¬ waits d) →
        (∀ a f b r, y.seeking = a ++ f :: b → (∀ g ∈ a, served g) → ¬ served f → y.rec? f = some r →
          (∀ sv rest, r.bus.itinerary = sv :: rest → y.nextSubject = some (.bus f sv))
          ∧ (r.bus.itinerary = [] → y.nextSubject = none))
        ∧ ((∀ f ∈ y.seeking, served f) → y.nextSubject = none)))
  ∧ (∀ (e : Env) (y : Yard) (h : FifoEntry) (rest : List FifoEntry), y.gate.fifo = h :: rest →
      let f := h.bus.fleet
      ((y.rec? f).isSome = true → fifoStep e y = { y with
        gate := { y.gate with fifo := rest }, cnt := { y.cnt with dupTags := min 65535 (y.cnt.dupTags + 1) } })
      ∧ (y.rec? f = none → 96 ≤ y.records.length → fifoStep e y = y)
      ∧ (y.rec? f = none → y.records.length < 96 →
        let itinerary : List Service :=
          (if h.bus.fuel ≠ .noFuel ∧ h.bus.level < e.layout.gateCfg.refuel then [.fuel] else [])
            ++ (if h.bus.wash ≠ .noWash then [.wash] else []) ++ [.berth]
        let made (pin : Option Pin) : Record := ⟨⟨f, h.bus.cls, h.bus.fuel, h.bus.capacity, h.bus.level, .unmarked,
          h.bus.wash, .unmarked, pin, itinerary, e.minute⟩, .seeking, .gate⟩
        let open_ (d : Duty) : Prop := d.state = .unpinned ∧ d.mask.getLsbD h.bus.cls = true ∧ d.fuel = h.bus.fuel
        let t := fifoStep e y
        t.seeking = y.seeking.filter (· != f) ++ [f]
        ∧ (∀ g, g ≠ f → t.rec? g = y.rec? g)
        ∧ t.gate = { y.gate with fifo := rest, duties := t.gate.duties, pins := t.gate.pins }
        ∧ t = { y with records := t.records, seeking := t.seeking, gate := t.gate }
        ∧ (∀ p, y.tablePin f = some p → t.rec? f = some (made (some p))
          ∧ t.gate.duties = y.gate.duties ∧ t.gate.pins = y.gate.pins)
        ∧ (∀ a d b, y.tablePin f = none → y.gate.duties = a ++ d :: b → open_ d →
          (∀ z ∈ a, ¬ open_ z ∧ z.number ≠ d.number) → t.rec? f = some (made (some ⟨d.number, d.release⟩))
          ∧ t.gate.duties = a ++ { d with state := .pinned } :: b
          ∧ t.gate.pins = insertBy (·.duty) ⟨d.number, f⟩ y.gate.pins)
        ∧ (y.tablePin f = none → (∀ d ∈ y.gate.duties, ¬ open_ d) → t.rec? f = some (made none)
          ∧ t.gate.duties = y.gate.duties ∧ t.gate.pins = y.gate.pins)))

end
end

