-- ==== Sys2Proof/Laws/Commands.lean ====
section
/-! SUPPORT. How a command reaches the blocks: a host command at a ready station, a yard event of a working station, and
what an answer writes. -/

namespace Sys2Proof.Machine

/-- A yard event of a station that works changes the yard alone. -/
theorem whenRunning_works {s : State} (h : s.works) (f : Env → Yard → Yard) :
    s.whenRunning f = { s with yard := f s.env s.yard } := by
  simp [State.whenRunning, h.1, h.2]

/-- Outside the RUNNING phase and in reset it changes nothing. -/
theorem whenRunning_idle {s : State} (h : s.inReset = true ∨ s.phase ≠ .running) (f : Env → Yard → Yard) :
    s.whenRunning f = s := by
  rcases h with h | h <;> simp [State.whenRunning, h]

/-- Outside reset an event that every phase takes changes the yard alone. -/
theorem onYard_eq {s : State} (h : s.inReset = false) (f : Env → Yard → Yard) :
    s.onYard f = { s with yard := f s.env s.yard } := by
  simp [State.onYard, h]

/-- At a ready station a command row waits for nothing. -/
theorem hostRow_ready {s : State} (h : s.ready) (i : Instr) (code : Nat) (f : State → Reply) :
    s.hostRow i code f = s.command code f := by
  simp [State.hostRow, State.answering, h.2.2]

/-- While an answer is being sent it waits in the receive buffer. -/
theorem hostRow_answering {s : State} (h : s.inReset = false) (ha : s.host.answer.isSome = true) (i : Instr)
    (code : Nat) (f : State → Reply) : s.hostRow i code f = s.wait (rowRecord i code) := by
  simp [State.hostRow, State.answering, h, ha]

/-- A ready station takes a host command in the phases of its code. -/
theorem command_taken {s : State} (h : s.ready) {code : Nat} (ht : takenIn code s.phase = true) (f : State → Reply) :
    s.command code f = (f s).give code s := by
  simp [State.command, h.1, h.2.1, ht]

/-- In the other phases it answers PHASE. -/
theorem command_phase {s : State} (h : s.ready) {code : Nat} (ht : takenIn code s.phase = false) (f : State → Reply) :
    s.command code f = s.answer code .phase [] := by
  simp [State.command, h.1, h.2.1, ht]

/-! ## What an answer writes -/

@[simp] theorem answer_yard (s : State) (c : Nat) (r : HostResult) (d : List Byte) : (s.answer c r d).yard = s.yard := rfl
@[simp] theorem answer_phase (s : State) (c : Nat) (r : HostResult) (d : List Byte) : (s.answer c r d).phase = s.phase :=
  rfl
@[simp] theorem answer_store (s : State) (c : Nat) (r : HostResult) (d : List Byte) : (s.answer c r d).store = s.store :=
  rfl
@[simp] theorem answer_layout (s : State) (c : Nat) (r : HostResult) (d : List Byte) :
    (s.answer c r d).layout = s.layout := rfl
@[simp] theorem answer_clock (s : State) (c : Nat) (r : HostResult) (d : List Byte) : (s.answer c r d).clock = s.clock :=
  rfl
@[simp] theorem answer_scan (s : State) (c : Nat) (r : HostResult) (d : List Byte) : (s.answer c r d).scan = s.scan := rfl
@[simp] theorem answer_pending (s : State) (c : Nat) (r : HostResult) (d : List Byte) :
    (s.answer c r d).pending = s.pending := rfl
@[simp] theorem answer_answer (s : State) (c : Nat) (r : HostResult) (d : List Byte) :
    (s.answer c r d).host.answer = some ⟨c, r, d⟩ := rfl
@[simp] theorem answer_txd (s : State) (c : Nat) (r : HostResult) (d : List Byte) :
    (s.answer c r d).host.txd = (HostAnswer.mk c r d).bytes := rfl
@[simp] theorem answer_discarded (s : State) (c : Nat) (r : HostResult) (d : List Byte) :
    (s.answer c r d).host.discarded = s.host.discarded := rfl
@[simp] theorem answer_env (s : State) (c : Nat) (r : HostResult) (d : List Byte) : (s.answer c r d).env = s.env := rfl

end Sys2Proof.Machine
end

