-- ==== Sys2Proof/Laws/State.lean ====
section
/-! SUPPORT. Frame lemmas of the updates that write one or two fields of the yard: every field an update does not
name is as before. Each is true by unfolding the update once; later proofs cite these and unfold no update. -/

namespace Sys2Proof.Machine

/-! ## Updates of one field, true by rfl -/

@[simp] theorem onRec_frame (f : Nat) (g : Record → Record) (y : Yard) :
    (onRec f g y).seeking = y.seeking ∧ (onRec f g y).line = y.line ∧ (onRec f g y).seek = y.seek ∧
      (onRec f g y).saturated = y.saturated ∧ (onRec f g y).lanes = y.lanes ∧ (onRec f g y).fuel = y.fuel ∧
      (onRec f g y).wash = y.wash ∧ (onRec f g y).gate = y.gate ∧ (onRec f g y).points = y.points ∧
      (onRec f g y).signs = y.signs ∧ (onRec f g y).notices = y.notices ∧ (onRec f g y).lost = y.lost ∧
      (onRec f g y).cnt = y.cnt := by
  and_intros <;> rfl

@[simp] theorem placeRec_frame (f : Nat) (st : RecState) (loc : Loc) (y : Yard) :
    (placeRec f st loc y).seeking = y.seeking ∧ (placeRec f st loc y).line = y.line ∧
      (placeRec f st loc y).seek = y.seek ∧ (placeRec f st loc y).saturated = y.saturated ∧
      (placeRec f st loc y).lanes = y.lanes ∧ (placeRec f st loc y).fuel = y.fuel ∧
      (placeRec f st loc y).wash = y.wash ∧ (placeRec f st loc y).gate = y.gate ∧
      (placeRec f st loc y).points = y.points ∧ (placeRec f st loc y).signs = y.signs ∧
      (placeRec f st loc y).notices = y.notices ∧ (placeRec f st loc y).lost = y.lost ∧
      (placeRec f st loc y).cnt = y.cnt := by
  and_intros <;> rfl

@[simp] theorem addRec_frame (r : Record) (y : Yard) :
    (addRec r y).seeking = y.seeking ∧ (addRec r y).line = y.line ∧ (addRec r y).seek = y.seek ∧
      (addRec r y).saturated = y.saturated ∧ (addRec r y).lanes = y.lanes ∧ (addRec r y).fuel = y.fuel ∧
      (addRec r y).wash = y.wash ∧ (addRec r y).gate = y.gate ∧ (addRec r y).points = y.points ∧
      (addRec r y).signs = y.signs ∧ (addRec r y).notices = y.notices ∧ (addRec r y).lost = y.lost ∧
      (addRec r y).cnt = y.cnt := by
  and_intros <;> rfl

@[simp] theorem enterSeeking_frame (f : Nat) (y : Yard) :
    (enterSeeking f y).line = y.line ∧ (enterSeeking f y).seek = y.seek ∧
      (enterSeeking f y).saturated = y.saturated ∧ (enterSeeking f y).lanes = y.lanes ∧
      (enterSeeking f y).fuel = y.fuel ∧ (enterSeeking f y).wash = y.wash ∧ (enterSeeking f y).gate = y.gate ∧
      (enterSeeking f y).points = y.points ∧ (enterSeeking f y).signs = y.signs ∧
      (enterSeeking f y).notices = y.notices ∧ (enterSeeking f y).lost = y.lost ∧ (enterSeeking f y).cnt = y.cnt := by
  and_intros <;> rfl

@[simp] theorem nextStep_frame (f : Nat) (y : Yard) :
    (nextStep f y).line = y.line ∧ (nextStep f y).seek = y.seek ∧ (nextStep f y).saturated = y.saturated ∧
      (nextStep f y).lanes = y.lanes ∧ (nextStep f y).fuel = y.fuel ∧ (nextStep f y).wash = y.wash ∧
      (nextStep f y).gate = y.gate ∧ (nextStep f y).points = y.points ∧ (nextStep f y).signs = y.signs ∧
      (nextStep f y).notices = y.notices ∧ (nextStep f y).lost = y.lost ∧ (nextStep f y).cnt = y.cnt := by
  and_intros <;> rfl

@[simp] theorem removeRec_frame (f : Nat) (y : Yard) :
    (removeRec f y).line = y.line ∧ (removeRec f y).seek.counter = y.seek.counter ∧
      (removeRec f y).seek.table = y.seek.table ∧ (removeRec f y).seek.given = y.seek.given ∧
      (removeRec f y).seek.offers = y.seek.offers ∧ (removeRec f y).seek.lapsed = y.seek.lapsed ∧
      (removeRec f y).seek.choice = y.seek.choice ∧ (removeRec f y).seek.freeCount = y.seek.freeCount ∧
      (removeRec f y).saturated = y.saturated ∧ (removeRec f y).lanes = y.lanes ∧ (removeRec f y).fuel = y.fuel ∧
      (removeRec f y).wash.lanes = y.wash.lanes ∧ (removeRec f y).wash.plant0 = y.wash.plant0 ∧
      (removeRec f y).wash.plant1 = y.wash.plant1 ∧ (removeRec f y).gate = y.gate ∧
      (removeRec f y).points = y.points ∧ (removeRec f y).signs = y.signs ∧ (removeRec f y).notices = y.notices ∧
      (removeRec f y).lost = y.lost ∧ (removeRec f y).cnt = y.cnt := by
  and_intros <;> rfl

@[simp] theorem loseRec_frame (f : Nat) (st : RecState) (y : Yard) :
    (loseRec f st y).line = y.line ∧ (loseRec f st y).seek = y.seek ∧ (loseRec f st y).saturated = y.saturated ∧
      (loseRec f st y).lanes = y.lanes ∧ (loseRec f st y).fuel = y.fuel ∧
      (loseRec f st y).wash.lanes = y.wash.lanes ∧ (loseRec f st y).wash.plant0 = y.wash.plant0 ∧
      (loseRec f st y).wash.plant1 = y.wash.plant1 ∧ (loseRec f st y).gate = y.gate ∧
      (loseRec f st y).points = y.points ∧ (loseRec f st y).signs = y.signs ∧ (loseRec f st y).notices = y.notices ∧
      (loseRec f st y).lost = y.lost ∧ (loseRec f st y).cnt = y.cnt := by
  and_intros <;> rfl

@[simp] theorem onLane_frame (n : Nat) (f : Lane → Lane) (y : Yard) :
    (onLane n f y).records = y.records ∧ (onLane n f y).seeking = y.seeking ∧ (onLane n f y).line = y.line ∧
      (onLane n f y).seek = y.seek ∧ (onLane n f y).saturated = y.saturated ∧ (onLane n f y).fuel = y.fuel ∧
      (onLane n f y).wash = y.wash ∧ (onLane n f y).gate = y.gate ∧ (onLane n f y).points = y.points ∧
      (onLane n f y).signs = y.signs ∧ (onLane n f y).notices = y.notices ∧ (onLane n f y).lost = y.lost ∧
      (onLane n f y).cnt = y.cnt := by
  and_intros <;> rfl

@[simp] theorem laneRelease_frame (n : Nat) (ref : SeekRef) (f : Nat) (y : Yard) :
    (laneRelease n ref f y).records = y.records ∧ (laneRelease n ref f y).seeking = y.seeking ∧
      (laneRelease n ref f y).line = y.line ∧ (laneRelease n ref f y).seek = y.seek ∧
      (laneRelease n ref f y).saturated = y.saturated ∧ (laneRelease n ref f y).fuel = y.fuel ∧
      (laneRelease n ref f y).wash = y.wash ∧ (laneRelease n ref f y).gate = y.gate ∧
      (laneRelease n ref f y).points = y.points ∧ (laneRelease n ref f y).signs = y.signs ∧
      (laneRelease n ref f y).notices = y.notices ∧ (laneRelease n ref f y).lost = y.lost ∧
      (laneRelease n ref f y).cnt = y.cnt := by
  and_intros <;> rfl

@[simp] theorem laneUncommit_frame (n f : Nat) (y : Yard) :
    (laneUncommit n f y).records = y.records ∧ (laneUncommit n f y).seeking = y.seeking ∧
      (laneUncommit n f y).line = y.line ∧ (laneUncommit n f y).seek = y.seek ∧
      (laneUncommit n f y).saturated = y.saturated ∧ (laneUncommit n f y).fuel = y.fuel ∧
      (laneUncommit n f y).wash = y.wash ∧ (laneUncommit n f y).gate = y.gate ∧
      (laneUncommit n f y).points = y.points ∧ (laneUncommit n f y).signs = y.signs ∧
      (laneUncommit n f y).notices = y.notices ∧ (laneUncommit n f y).lost = y.lost ∧
      (laneUncommit n f y).cnt = y.cnt := by
  and_intros <;> rfl

@[simp] theorem laneRepin_frame (n f : Nat) (r : Option Nat) (y : Yard) :
    (laneRepin n f r y).records = y.records ∧ (laneRepin n f r y).seeking = y.seeking ∧
      (laneRepin n f r y).line = y.line ∧ (laneRepin n f r y).seek = y.seek ∧
      (laneRepin n f r y).saturated = y.saturated ∧ (laneRepin n f r y).fuel = y.fuel ∧
      (laneRepin n f r y).wash = y.wash ∧ (laneRepin n f r y).gate = y.gate ∧ (laneRepin n f r y).points = y.points ∧
      (laneRepin n f r y).signs = y.signs ∧ (laneRepin n f r y).notices = y.notices ∧
      (laneRepin n f r y).lost = y.lost ∧ (laneRepin n f r y).cnt = y.cnt := by
  and_intros <;> rfl

@[simp] theorem laneEntryClear_frame (n : Nat) (y : Yard) :
    (laneEntryClear n y).records = y.records ∧ (laneEntryClear n y).seeking = y.seeking ∧
      (laneEntryClear n y).line = y.line ∧ (laneEntryClear n y).seek = y.seek ∧
      (laneEntryClear n y).saturated = y.saturated ∧ (laneEntryClear n y).fuel = y.fuel ∧
      (laneEntryClear n y).wash = y.wash ∧ (laneEntryClear n y).gate = y.gate ∧
      (laneEntryClear n y).points = y.points ∧ (laneEntryClear n y).signs = y.signs ∧
      (laneEntryClear n y).notices = y.notices ∧ (laneEntryClear n y).lost = y.lost ∧
      (laneEntryClear n y).cnt = y.cnt := by
  and_intros <;> rfl

@[simp] theorem lanesDayTurn_frame  (y : Yard) :
    (lanesDayTurn y).records = y.records ∧ (lanesDayTurn y).seeking = y.seeking ∧ (lanesDayTurn y).line = y.line ∧
      (lanesDayTurn y).seek = y.seek ∧ (lanesDayTurn y).saturated = y.saturated ∧ (lanesDayTurn y).fuel = y.fuel ∧
      (lanesDayTurn y).wash = y.wash ∧ (lanesDayTurn y).gate = y.gate ∧ (lanesDayTurn y).points = y.points ∧
      (lanesDayTurn y).signs = y.signs ∧ (lanesDayTurn y).notices = y.notices ∧ (lanesDayTurn y).lost = y.lost ∧
      (lanesDayTurn y).cnt = y.cnt := by
  and_intros <;> rfl

@[simp] theorem onSeek_frame (n : Nat) (f : SeekEntry → SeekEntry) (y : Yard) :
    (onSeek n f y).records = y.records ∧ (onSeek n f y).seeking = y.seeking ∧ (onSeek n f y).line = y.line ∧
      (onSeek n f y).seek.counter = y.seek.counter ∧ (onSeek n f y).seek.given = y.seek.given ∧
      (onSeek n f y).seek.offers = y.seek.offers ∧ (onSeek n f y).seek.lapsed = y.seek.lapsed ∧
      (onSeek n f y).seek.taken = y.seek.taken ∧ (onSeek n f y).seek.choice = y.seek.choice ∧
      (onSeek n f y).seek.freeCount = y.seek.freeCount ∧ (onSeek n f y).saturated = y.saturated ∧
      (onSeek n f y).lanes = y.lanes ∧ (onSeek n f y).fuel = y.fuel ∧ (onSeek n f y).wash = y.wash ∧
      (onSeek n f y).gate = y.gate ∧ (onSeek n f y).points = y.points ∧ (onSeek n f y).signs = y.signs ∧
      (onSeek n f y).notices = y.notices ∧ (onSeek n f y).lost = y.lost ∧ (onSeek n f y).cnt = y.cnt := by
  and_intros <;> rfl

@[simp] theorem removeSeek_frame (n : Nat) (y : Yard) :
    (removeSeek n y).records = y.records ∧ (removeSeek n y).seeking = y.seeking ∧ (removeSeek n y).line = y.line ∧
      (removeSeek n y).seek.counter = y.seek.counter ∧ (removeSeek n y).seek.given = y.seek.given ∧
      (removeSeek n y).seek.offers = y.seek.offers ∧ (removeSeek n y).seek.lapsed = y.seek.lapsed ∧
      (removeSeek n y).seek.taken = y.seek.taken ∧ (removeSeek n y).seek.choice = y.seek.choice ∧
      (removeSeek n y).seek.freeCount = y.seek.freeCount ∧ (removeSeek n y).saturated = y.saturated ∧
      (removeSeek n y).lanes = y.lanes ∧ (removeSeek n y).fuel = y.fuel ∧ (removeSeek n y).wash = y.wash ∧
      (removeSeek n y).gate = y.gate ∧ (removeSeek n y).points = y.points ∧ (removeSeek n y).signs = y.signs ∧
      (removeSeek n y).notices = y.notices ∧ (removeSeek n y).lost = y.lost ∧ (removeSeek n y).cnt = y.cnt := by
  and_intros <;> rfl

@[simp] theorem countFrom_frame (k : Nat) (y : Yard) :
    (countFrom k y).records = y.records ∧ (countFrom k y).seeking = y.seeking ∧ (countFrom k y).line = y.line ∧
      (countFrom k y).seek.table = y.seek.table ∧ (countFrom k y).seek.given = y.seek.given ∧
      (countFrom k y).seek.offers = y.seek.offers ∧ (countFrom k y).seek.lapsed = y.seek.lapsed ∧
      (countFrom k y).seek.taken = y.seek.taken ∧ (countFrom k y).seek.choice = y.seek.choice ∧
      (countFrom k y).seek.freeCount = y.seek.freeCount ∧ (countFrom k y).saturated = y.saturated ∧
      (countFrom k y).lanes = y.lanes ∧ (countFrom k y).fuel = y.fuel ∧ (countFrom k y).wash = y.wash ∧
      (countFrom k y).gate = y.gate ∧ (countFrom k y).points = y.points ∧ (countFrom k y).signs = y.signs ∧
      (countFrom k y).notices = y.notices ∧ (countFrom k y).lost = y.lost ∧ (countFrom k y).cnt = y.cnt := by
  and_intros <;> rfl

@[simp] theorem callGiven_frame (d : Nat) (y : Yard) :
    (callGiven d y).records = y.records ∧ (callGiven d y).seeking = y.seeking ∧ (callGiven d y).line = y.line ∧
      (callGiven d y).seek = y.seek ∧ (callGiven d y).saturated = y.saturated ∧ (callGiven d y).lanes = y.lanes ∧
      (callGiven d y).fuel = y.fuel ∧ (callGiven d y).wash = y.wash ∧
      (callGiven d y).gate.pollTimer = y.gate.pollTimer ∧ (callGiven d y).gate.polling = y.gate.polling ∧
      (callGiven d y).gate.busOut = y.gate.busOut ∧
      (callGiven d y).gate.busHeld = y.gate.busHeld ∧ (callGiven d y).gate.failCount = y.gate.failCount ∧
      (callGiven d y).gate.faultRaised = y.gate.faultRaised ∧ (callGiven d y).gate.fifo = y.gate.fifo ∧
      (callGiven d y).gate.reads = y.gate.reads ∧ (callGiven d y).gate.arrivals = y.gate.arrivals ∧
      (callGiven d y).gate.pins = y.gate.pins ∧ (callGiven d y).points = y.points ∧ (callGiven d y).signs = y.signs ∧
      (callGiven d y).notices = y.notices ∧ (callGiven d y).lost = y.lost ∧ (callGiven d y).cnt = y.cnt := by
  and_intros <;> rfl

@[simp] theorem onOffer_frame (h : Bool) (ref : SeekRef) (f : Nat) (g : OfferEntry → OfferEntry) (y : Yard) :
    (onOffer h ref f g y).records = y.records ∧ (onOffer h ref f g y).seeking = y.seeking ∧
      (onOffer h ref f g y).line = y.line ∧ (onOffer h ref f g y).seek.counter = y.seek.counter ∧
      (onOffer h ref f g y).seek.table = y.seek.table ∧ (onOffer h ref f g y).seek.given = y.seek.given ∧
      (onOffer h ref f g y).seek.lapsed = y.seek.lapsed ∧ (onOffer h ref f g y).seek.taken = y.seek.taken ∧
      (onOffer h ref f g y).seek.choice = y.seek.choice ∧ (onOffer h ref f g y).seek.freeCount = y.seek.freeCount ∧
      (onOffer h ref f g y).saturated = y.saturated ∧ (onOffer h ref f g y).lanes = y.lanes ∧
      (onOffer h ref f g y).fuel = y.fuel ∧ (onOffer h ref f g y).wash = y.wash ∧ (onOffer h ref f g y).gate = y.gate ∧
      (onOffer h ref f g y).points = y.points ∧ (onOffer h ref f g y).signs = y.signs ∧
      (onOffer h ref f g y).notices = y.notices ∧ (onOffer h ref f g y).lost = y.lost ∧
      (onOffer h ref f g y).cnt = y.cnt := by
  and_intros <;> rfl

@[simp] theorem removeOffer_frame (h : Bool) (ref : SeekRef) (f : Nat) (y : Yard) :
    (removeOffer h ref f y).records = y.records ∧ (removeOffer h ref f y).seeking = y.seeking ∧
      (removeOffer h ref f y).line = y.line ∧ (removeOffer h ref f y).seek.counter = y.seek.counter ∧
      (removeOffer h ref f y).seek.table = y.seek.table ∧ (removeOffer h ref f y).seek.given = y.seek.given ∧
      (removeOffer h ref f y).seek.lapsed = y.seek.lapsed ∧ (removeOffer h ref f y).seek.taken = y.seek.taken ∧
      (removeOffer h ref f y).seek.choice = y.seek.choice ∧ (removeOffer h ref f y).seek.freeCount = y.seek.freeCount ∧
      (removeOffer h ref f y).saturated = y.saturated ∧ (removeOffer h ref f y).lanes = y.lanes ∧
      (removeOffer h ref f y).fuel = y.fuel ∧ (removeOffer h ref f y).wash = y.wash ∧
      (removeOffer h ref f y).gate = y.gate ∧ (removeOffer h ref f y).points = y.points ∧
      (removeOffer h ref f y).signs = y.signs ∧ (removeOffer h ref f y).notices = y.notices ∧
      (removeOffer h ref f y).lost = y.lost ∧ (removeOffer h ref f y).cnt = y.cnt := by
  and_intros <;> rfl

@[simp] theorem dropLapsed_frame (ref : SeekRef) (f : Nat) (y : Yard) :
    (dropLapsed ref f y).records = y.records ∧ (dropLapsed ref f y).seeking = y.seeking ∧
      (dropLapsed ref f y).line = y.line ∧ (dropLapsed ref f y).seek.counter = y.seek.counter ∧
      (dropLapsed ref f y).seek.table = y.seek.table ∧ (dropLapsed ref f y).seek.given = y.seek.given ∧
      (dropLapsed ref f y).seek.offers = y.seek.offers ∧ (dropLapsed ref f y).seek.taken = y.seek.taken ∧
      (dropLapsed ref f y).seek.choice = y.seek.choice ∧ (dropLapsed ref f y).seek.freeCount = y.seek.freeCount ∧
      (dropLapsed ref f y).saturated = y.saturated ∧ (dropLapsed ref f y).lanes = y.lanes ∧
      (dropLapsed ref f y).fuel = y.fuel ∧ (dropLapsed ref f y).wash = y.wash ∧ (dropLapsed ref f y).gate = y.gate ∧
      (dropLapsed ref f y).points = y.points ∧ (dropLapsed ref f y).signs = y.signs ∧
      (dropLapsed ref f y).notices = y.notices ∧ (dropLapsed ref f y).lost = y.lost ∧
      (dropLapsed ref f y).cnt = y.cnt := by
  and_intros <;> rfl

@[simp] theorem noteTaken_frame (ref : SeekRef) (f : Nat) (y : Yard) :
    (noteTaken ref f y).records = y.records ∧ (noteTaken ref f y).seeking = y.seeking ∧
      (noteTaken ref f y).line = y.line ∧ (noteTaken ref f y).seek.counter = y.seek.counter ∧
      (noteTaken ref f y).seek.table = y.seek.table ∧ (noteTaken ref f y).seek.given = y.seek.given ∧
      (noteTaken ref f y).seek.offers = y.seek.offers ∧ (noteTaken ref f y).seek.lapsed = y.seek.lapsed ∧
      (noteTaken ref f y).seek.choice = y.seek.choice ∧ (noteTaken ref f y).seek.freeCount = y.seek.freeCount ∧
      (noteTaken ref f y).saturated = y.saturated ∧ (noteTaken ref f y).lanes = y.lanes ∧
      (noteTaken ref f y).fuel = y.fuel ∧ (noteTaken ref f y).wash = y.wash ∧ (noteTaken ref f y).gate = y.gate ∧
      (noteTaken ref f y).points = y.points ∧ (noteTaken ref f y).signs = y.signs ∧
      (noteTaken ref f y).notices = y.notices ∧ (noteTaken ref f y).lost = y.lost ∧
      (noteTaken ref f y).cnt = y.cnt := by
  and_intros <;> rfl

@[simp] theorem onDuty_frame (n : Nat) (f : Duty → Duty) (y : Yard) :
    (onDuty n f y).records = y.records ∧ (onDuty n f y).seeking = y.seeking ∧ (onDuty n f y).line = y.line ∧
      (onDuty n f y).seek = y.seek ∧ (onDuty n f y).saturated = y.saturated ∧ (onDuty n f y).lanes = y.lanes ∧
      (onDuty n f y).fuel = y.fuel ∧ (onDuty n f y).wash = y.wash ∧
      (onDuty n f y).gate.pollTimer = y.gate.pollTimer ∧ (onDuty n f y).gate.polling = y.gate.polling ∧
      (onDuty n f y).gate.busOut = y.gate.busOut ∧
      (onDuty n f y).gate.busHeld = y.gate.busHeld ∧ (onDuty n f y).gate.failCount = y.gate.failCount ∧
      (onDuty n f y).gate.faultRaised = y.gate.faultRaised ∧ (onDuty n f y).gate.fifo = y.gate.fifo ∧
      (onDuty n f y).gate.reads = y.gate.reads ∧ (onDuty n f y).gate.arrivals = y.gate.arrivals ∧
      (onDuty n f y).gate.pins = y.gate.pins ∧ (onDuty n f y).points = y.points ∧ (onDuty n f y).signs = y.signs ∧
      (onDuty n f y).notices = y.notices ∧ (onDuty n f y).lost = y.lost ∧ (onDuty n f y).cnt = y.cnt := by
  and_intros <;> rfl

@[simp] theorem removeDuty_frame (n : Nat) (y : Yard) :
    (removeDuty n y).records = y.records ∧ (removeDuty n y).seeking = y.seeking ∧ (removeDuty n y).line = y.line ∧
      (removeDuty n y).seek = y.seek ∧ (removeDuty n y).saturated = y.saturated ∧ (removeDuty n y).lanes = y.lanes ∧
      (removeDuty n y).fuel = y.fuel ∧ (removeDuty n y).wash = y.wash ∧
      (removeDuty n y).gate.pollTimer = y.gate.pollTimer ∧ (removeDuty n y).gate.polling = y.gate.polling ∧
      (removeDuty n y).gate.busOut = y.gate.busOut ∧
      (removeDuty n y).gate.busHeld = y.gate.busHeld ∧ (removeDuty n y).gate.failCount = y.gate.failCount ∧
      (removeDuty n y).gate.faultRaised = y.gate.faultRaised ∧ (removeDuty n y).gate.fifo = y.gate.fifo ∧
      (removeDuty n y).gate.reads = y.gate.reads ∧ (removeDuty n y).gate.arrivals = y.gate.arrivals ∧
      (removeDuty n y).gate.pins = y.gate.pins ∧ (removeDuty n y).points = y.points ∧
      (removeDuty n y).signs = y.signs ∧ (removeDuty n y).notices = y.notices ∧ (removeDuty n y).lost = y.lost ∧
      (removeDuty n y).cnt = y.cnt := by
  and_intros <;> rfl

@[simp] theorem openIfPinned_frame (n : Nat) (y : Yard) :
    (openIfPinned n y).records = y.records ∧ (openIfPinned n y).seeking = y.seeking ∧
      (openIfPinned n y).line = y.line ∧ (openIfPinned n y).seek = y.seek ∧
      (openIfPinned n y).saturated = y.saturated ∧ (openIfPinned n y).lanes = y.lanes ∧
      (openIfPinned n y).fuel = y.fuel ∧ (openIfPinned n y).wash = y.wash ∧
      (openIfPinned n y).gate.pollTimer = y.gate.pollTimer ∧ (openIfPinned n y).gate.polling = y.gate.polling ∧
      (openIfPinned n y).gate.busOut = y.gate.busOut ∧
      (openIfPinned n y).gate.busHeld = y.gate.busHeld ∧ (openIfPinned n y).gate.failCount = y.gate.failCount ∧
      (openIfPinned n y).gate.faultRaised = y.gate.faultRaised ∧ (openIfPinned n y).gate.fifo = y.gate.fifo ∧
      (openIfPinned n y).gate.reads = y.gate.reads ∧ (openIfPinned n y).gate.arrivals = y.gate.arrivals ∧
      (openIfPinned n y).gate.pins = y.gate.pins ∧ (openIfPinned n y).points = y.points ∧
      (openIfPinned n y).signs = y.signs ∧ (openIfPinned n y).notices = y.notices ∧
      (openIfPinned n y).lost = y.lost ∧ (openIfPinned n y).cnt = y.cnt := by
  and_intros <;> rfl

@[simp] theorem unpair_frame (d : Nat) (y : Yard) :
    (unpair d y).records = y.records ∧ (unpair d y).seeking = y.seeking ∧ (unpair d y).line = y.line ∧
      (unpair d y).seek = y.seek ∧ (unpair d y).saturated = y.saturated ∧ (unpair d y).lanes = y.lanes ∧
      (unpair d y).fuel = y.fuel ∧ (unpair d y).wash = y.wash ∧ (unpair d y).gate.pollTimer = y.gate.pollTimer ∧
      (unpair d y).gate.polling = y.gate.polling ∧
      (unpair d y).gate.busOut = y.gate.busOut ∧ (unpair d y).gate.busHeld = y.gate.busHeld ∧
      (unpair d y).gate.failCount = y.gate.failCount ∧ (unpair d y).gate.faultRaised = y.gate.faultRaised ∧
      (unpair d y).gate.fifo = y.gate.fifo ∧ (unpair d y).gate.reads = y.gate.reads ∧
      (unpair d y).gate.arrivals = y.gate.arrivals ∧ (unpair d y).gate.duties = y.gate.duties ∧
      (unpair d y).points = y.points ∧ (unpair d y).signs = y.signs ∧ (unpair d y).notices = y.notices ∧
      (unpair d y).lost = y.lost ∧ (unpair d y).cnt = y.cnt := by
  and_intros <;> rfl

@[simp] theorem pair_frame (d f : Nat) (y : Yard) :
    (pair d f y).records = y.records ∧ (pair d f y).seeking = y.seeking ∧ (pair d f y).line = y.line ∧
      (pair d f y).seek = y.seek ∧ (pair d f y).saturated = y.saturated ∧ (pair d f y).lanes = y.lanes ∧
      (pair d f y).fuel = y.fuel ∧ (pair d f y).wash = y.wash ∧ (pair d f y).gate.pollTimer = y.gate.pollTimer ∧
      (pair d f y).gate.polling = y.gate.polling ∧
      (pair d f y).gate.busOut = y.gate.busOut ∧ (pair d f y).gate.busHeld = y.gate.busHeld ∧
      (pair d f y).gate.failCount = y.gate.failCount ∧ (pair d f y).gate.faultRaised = y.gate.faultRaised ∧
      (pair d f y).gate.fifo = y.gate.fifo ∧ (pair d f y).gate.reads = y.gate.reads ∧
      (pair d f y).gate.arrivals = y.gate.arrivals ∧ (pair d f y).gate.duties = y.gate.duties ∧
      (pair d f y).points = y.points ∧ (pair d f y).signs = y.signs ∧ (pair d f y).notices = y.notices ∧
      (pair d f y).lost = y.lost ∧ (pair d f y).cnt = y.cnt := by
  and_intros <;> rfl

@[simp] theorem pinRec_frame (f : Nat) (d : Duty) (y : Yard) :
    (pinRec f d y).seeking = y.seeking ∧ (pinRec f d y).line = y.line ∧ (pinRec f d y).seek = y.seek ∧
      (pinRec f d y).saturated = y.saturated ∧ (pinRec f d y).lanes = y.lanes ∧ (pinRec f d y).fuel = y.fuel ∧
      (pinRec f d y).wash = y.wash ∧ (pinRec f d y).gate = y.gate ∧ (pinRec f d y).points = y.points ∧
      (pinRec f d y).signs = y.signs ∧ (pinRec f d y).notices = y.notices ∧ (pinRec f d y).lost = y.lost ∧
      (pinRec f d y).cnt = y.cnt := by
  and_intros <;> rfl

@[simp] theorem onPump_frame (p : Nat) (f : Pump → Pump) (y : Yard) :
    (onPump p f y).records = y.records ∧ (onPump p f y).seeking = y.seeking ∧ (onPump p f y).line = y.line ∧
      (onPump p f y).seek = y.seek ∧ (onPump p f y).saturated = y.saturated ∧ (onPump p f y).lanes = y.lanes ∧
      (onPump p f y).fuel.queue = y.fuel.queue ∧ (onPump p f y).fuel.reservs = y.fuel.reservs ∧
      (onPump p f y).fuel.diesel = y.fuel.diesel ∧ (onPump p f y).fuel.gas = y.fuel.gas ∧
      (onPump p f y).fuel.aging = y.fuel.aging ∧ (onPump p f y).wash = y.wash ∧ (onPump p f y).gate = y.gate ∧
      (onPump p f y).points = y.points ∧ (onPump p f y).signs = y.signs ∧ (onPump p f y).notices = y.notices ∧
      (onPump p f y).lost = y.lost ∧ (onPump p f y).cnt = y.cnt := by
  and_intros <;> rfl

@[simp] theorem apronRelease_frame (ref : SeekRef) (f : Nat) (y : Yard) :
    (apronRelease ref f y).records = y.records ∧ (apronRelease ref f y).seeking = y.seeking ∧
      (apronRelease ref f y).line = y.line ∧ (apronRelease ref f y).seek = y.seek ∧
      (apronRelease ref f y).saturated = y.saturated ∧ (apronRelease ref f y).lanes = y.lanes ∧
      (apronRelease ref f y).fuel.pumps = y.fuel.pumps ∧ (apronRelease ref f y).fuel.queue = y.fuel.queue ∧
      (apronRelease ref f y).fuel.diesel = y.fuel.diesel ∧ (apronRelease ref f y).fuel.gas = y.fuel.gas ∧
      (apronRelease ref f y).fuel.aging = y.fuel.aging ∧ (apronRelease ref f y).wash = y.wash ∧
      (apronRelease ref f y).gate = y.gate ∧ (apronRelease ref f y).points = y.points ∧
      (apronRelease ref f y).signs = y.signs ∧ (apronRelease ref f y).notices = y.notices ∧
      (apronRelease ref f y).lost = y.lost ∧ (apronRelease ref f y).cnt = y.cnt := by
  and_intros <;> rfl

@[simp] theorem apronUncommit_frame (f : Nat) (y : Yard) :
    (apronUncommit f y).records = y.records ∧ (apronUncommit f y).seeking = y.seeking ∧
      (apronUncommit f y).line = y.line ∧ (apronUncommit f y).seek = y.seek ∧
      (apronUncommit f y).saturated = y.saturated ∧ (apronUncommit f y).lanes = y.lanes ∧
      (apronUncommit f y).fuel.pumps = y.fuel.pumps ∧ (apronUncommit f y).fuel.queue = y.fuel.queue ∧
      (apronUncommit f y).fuel.diesel = y.fuel.diesel ∧ (apronUncommit f y).fuel.gas = y.fuel.gas ∧
      (apronUncommit f y).fuel.aging = y.fuel.aging ∧ (apronUncommit f y).wash = y.wash ∧
      (apronUncommit f y).gate = y.gate ∧ (apronUncommit f y).points = y.points ∧
      (apronUncommit f y).signs = y.signs ∧ (apronUncommit f y).notices = y.notices ∧
      (apronUncommit f y).lost = y.lost ∧ (apronUncommit f y).cnt = y.cnt := by
  and_intros <;> rfl

@[simp] theorem dropApronEntry_frame (f : Nat) (y : Yard) :
    (dropApronEntry f y).records = y.records ∧ (dropApronEntry f y).seeking = y.seeking ∧
      (dropApronEntry f y).line = y.line ∧ (dropApronEntry f y).seek = y.seek ∧
      (dropApronEntry f y).saturated = y.saturated ∧ (dropApronEntry f y).lanes = y.lanes ∧
      (dropApronEntry f y).fuel.pumps = y.fuel.pumps ∧ (dropApronEntry f y).fuel.reservs = y.fuel.reservs ∧
      (dropApronEntry f y).fuel.diesel = y.fuel.diesel ∧ (dropApronEntry f y).fuel.gas = y.fuel.gas ∧
      (dropApronEntry f y).fuel.aging = y.fuel.aging ∧ (dropApronEntry f y).wash = y.wash ∧
      (dropApronEntry f y).gate = y.gate ∧ (dropApronEntry f y).points = y.points ∧
      (dropApronEntry f y).signs = y.signs ∧ (dropApronEntry f y).notices = y.notices ∧
      (dropApronEntry f y).lost = y.lost ∧ (dropApronEntry f y).cnt = y.cnt := by
  and_intros <;> rfl

@[simp] theorem enqueueApron_frame (e : Env) (r : Record) (y : Yard) :
    (enqueueApron e r y).seeking = y.seeking ∧ (enqueueApron e r y).line = y.line ∧
      (enqueueApron e r y).seek = y.seek ∧ (enqueueApron e r y).saturated = y.saturated ∧
      (enqueueApron e r y).lanes = y.lanes ∧ (enqueueApron e r y).fuel.pumps = y.fuel.pumps ∧
      (enqueueApron e r y).fuel.reservs = y.fuel.reservs ∧ (enqueueApron e r y).fuel.diesel = y.fuel.diesel ∧
      (enqueueApron e r y).fuel.gas = y.fuel.gas ∧ (enqueueApron e r y).fuel.aging = y.fuel.aging ∧
      (enqueueApron e r y).wash = y.wash ∧ (enqueueApron e r y).gate = y.gate ∧
      (enqueueApron e r y).points = y.points ∧ (enqueueApron e r y).signs = y.signs ∧
      (enqueueApron e r y).notices = y.notices ∧ (enqueueApron e r y).lost = y.lost ∧
      (enqueueApron e r y).cnt = y.cnt := by
  and_intros <;> rfl

@[simp] theorem onWash_frame (w : Nat) (f : WashLane → WashLane) (y : Yard) :
    (onWash w f y).records = y.records ∧ (onWash w f y).seeking = y.seeking ∧ (onWash w f y).line = y.line ∧
      (onWash w f y).seek = y.seek ∧ (onWash w f y).saturated = y.saturated ∧ (onWash w f y).lanes = y.lanes ∧
      (onWash w f y).fuel = y.fuel ∧ (onWash w f y).wash.faultList = y.wash.faultList ∧
      (onWash w f y).wash.plant0 = y.wash.plant0 ∧ (onWash w f y).wash.plant1 = y.wash.plant1 ∧
      (onWash w f y).gate = y.gate ∧ (onWash w f y).points = y.points ∧ (onWash w f y).signs = y.signs ∧
      (onWash w f y).notices = y.notices ∧ (onWash w f y).lost = y.lost ∧ (onWash w f y).cnt = y.cnt := by
  and_intros <;> rfl

@[simp] theorem washRelease_frame (w : Nat) (ref : SeekRef) (f : Nat) (y : Yard) :
    (washRelease w ref f y).records = y.records ∧ (washRelease w ref f y).seeking = y.seeking ∧
      (washRelease w ref f y).line = y.line ∧ (washRelease w ref f y).seek = y.seek ∧
      (washRelease w ref f y).saturated = y.saturated ∧ (washRelease w ref f y).lanes = y.lanes ∧
      (washRelease w ref f y).fuel = y.fuel ∧ (washRelease w ref f y).wash.faultList = y.wash.faultList ∧
      (washRelease w ref f y).wash.plant0 = y.wash.plant0 ∧ (washRelease w ref f y).wash.plant1 = y.wash.plant1 ∧
      (washRelease w ref f y).gate = y.gate ∧ (washRelease w ref f y).points = y.points ∧
      (washRelease w ref f y).signs = y.signs ∧ (washRelease w ref f y).notices = y.notices ∧
      (washRelease w ref f y).lost = y.lost ∧ (washRelease w ref f y).cnt = y.cnt := by
  and_intros <;> rfl

@[simp] theorem joinWash_frame (w f k : Nat) (y : Yard) :
    (joinWash w f k y).records = y.records ∧ (joinWash w f k y).seeking = y.seeking ∧
      (joinWash w f k y).line = y.line ∧ (joinWash w f k y).seek = y.seek ∧
      (joinWash w f k y).saturated = y.saturated ∧ (joinWash w f k y).lanes = y.lanes ∧
      (joinWash w f k y).fuel = y.fuel ∧ (joinWash w f k y).wash.faultList = y.wash.faultList ∧
      (joinWash w f k y).wash.plant0 = y.wash.plant0 ∧ (joinWash w f k y).wash.plant1 = y.wash.plant1 ∧
      (joinWash w f k y).gate = y.gate ∧ (joinWash w f k y).points = y.points ∧ (joinWash w f k y).signs = y.signs ∧
      (joinWash w f k y).notices = y.notices ∧ (joinWash w f k y).lost = y.lost ∧ (joinWash w f k y).cnt = y.cnt := by
  and_intros <;> rfl

@[simp] theorem dropHead_frame  (y : Yard) :
    (dropHead y).records = y.records ∧ (dropHead y).seeking = y.seeking ∧
      (dropHead y).line.following = y.line.following ∧ (dropHead y).line.nextOffer = y.line.nextOffer ∧
      (dropHead y).line.curOffer = y.line.curOffer ∧ (dropHead y).line.queue = y.line.queue ∧
      (dropHead y).line.waiting = y.line.waiting ∧ (dropHead y).line.txBits = y.line.txBits ∧
      (dropHead y).line.checkSlot = y.line.checkSlot ∧
      (dropHead y).line.flags = y.line.flags ∧ (dropHead y).line.cnt = y.line.cnt ∧ (dropHead y).seek = y.seek ∧
      (dropHead y).saturated = y.saturated ∧ (dropHead y).lanes = y.lanes ∧ (dropHead y).fuel = y.fuel ∧
      (dropHead y).wash = y.wash ∧ (dropHead y).gate = y.gate ∧ (dropHead y).points = y.points ∧
      (dropHead y).signs = y.signs ∧ (dropHead y).notices = y.notices ∧ (dropHead y).lost = y.lost ∧
      (dropHead y).cnt = y.cnt := by
  and_intros <;> rfl

@[simp] theorem lineFollowBegin_frame  (y : Yard) :
    (lineFollowBegin y).records = y.records ∧ (lineFollowBegin y).seeking = y.seeking ∧
      (lineFollowBegin y).line.nextOffer = y.line.nextOffer ∧ (lineFollowBegin y).line.curOffer = y.line.curOffer ∧
      (lineFollowBegin y).line.queue = y.line.queue ∧ (lineFollowBegin y).line.waiting = y.line.waiting ∧
      (lineFollowBegin y).line.pool = y.line.pool ∧ (lineFollowBegin y).line.txBits = y.line.txBits ∧
      (lineFollowBegin y).line.checkSlot = y.line.checkSlot ∧
      (lineFollowBegin y).line.flags = y.line.flags ∧ (lineFollowBegin y).line.cnt = y.line.cnt ∧
      (lineFollowBegin y).seek = y.seek ∧ (lineFollowBegin y).saturated = y.saturated ∧
      (lineFollowBegin y).lanes = y.lanes ∧ (lineFollowBegin y).fuel = y.fuel ∧ (lineFollowBegin y).wash = y.wash ∧
      (lineFollowBegin y).gate = y.gate ∧ (lineFollowBegin y).points = y.points ∧
      (lineFollowBegin y).signs = y.signs ∧ (lineFollowBegin y).notices = y.notices ∧
      (lineFollowBegin y).lost = y.lost ∧ (lineFollowBegin y).cnt = y.cnt := by
  and_intros <;> rfl

@[simp] theorem setDwell_frame (r c : Nat) (t : Option Nat) (y : Yard) :
    (setDwell r c t y).records = y.records ∧ (setDwell r c t y).seeking = y.seeking ∧
      (setDwell r c t y).line = y.line ∧ (setDwell r c t y).seek = y.seek ∧
      (setDwell r c t y).saturated = y.saturated ∧ (setDwell r c t y).lanes = y.lanes ∧
      (setDwell r c t y).fuel = y.fuel ∧ (setDwell r c t y).wash = y.wash ∧ (setDwell r c t y).gate = y.gate ∧
      (setDwell r c t y).signs = y.signs ∧ (setDwell r c t y).notices = y.notices ∧
      (setDwell r c t y).lost = y.lost ∧ (setDwell r c t y).cnt = y.cnt := by
  and_intros <;> rfl

@[simp] theorem countSent_frame  (y : Yard) :
    (countSent y).records = y.records ∧ (countSent y).seeking = y.seeking ∧
      (countSent y).line.following = y.line.following ∧ (countSent y).line.nextOffer = y.line.nextOffer ∧
      (countSent y).line.curOffer = y.line.curOffer ∧ (countSent y).line.queue = y.line.queue ∧
      (countSent y).line.waiting = y.line.waiting ∧ (countSent y).line.pool = y.line.pool ∧
      (countSent y).line.txBits = y.line.txBits ∧
      (countSent y).line.checkSlot = y.line.checkSlot ∧ (countSent y).line.flags = y.line.flags ∧
      (countSent y).seek = y.seek ∧ (countSent y).saturated = y.saturated ∧ (countSent y).lanes = y.lanes ∧
      (countSent y).fuel = y.fuel ∧ (countSent y).wash = y.wash ∧ (countSent y).gate = y.gate ∧
      (countSent y).points = y.points ∧ (countSent y).signs = y.signs ∧ (countSent y).notices = y.notices ∧
      (countSent y).lost = y.lost ∧ (countSent y).cnt = y.cnt := by
  and_intros <;> rfl

@[simp] theorem countReceived_frame  (y : Yard) :
    (countReceived y).records = y.records ∧ (countReceived y).seeking = y.seeking ∧
      (countReceived y).line.following = y.line.following ∧ (countReceived y).line.nextOffer = y.line.nextOffer ∧
      (countReceived y).line.curOffer = y.line.curOffer ∧ (countReceived y).line.queue = y.line.queue ∧
      (countReceived y).line.waiting = y.line.waiting ∧ (countReceived y).line.pool = y.line.pool ∧
      (countReceived y).line.txBits = y.line.txBits ∧
      (countReceived y).line.checkSlot = y.line.checkSlot ∧ (countReceived y).line.flags = y.line.flags ∧
      (countReceived y).seek = y.seek ∧ (countReceived y).saturated = y.saturated ∧
      (countReceived y).lanes = y.lanes ∧ (countReceived y).fuel = y.fuel ∧ (countReceived y).wash = y.wash ∧
      (countReceived y).gate = y.gate ∧ (countReceived y).points = y.points ∧ (countReceived y).signs = y.signs ∧
      (countReceived y).notices = y.notices ∧ (countReceived y).lost = y.lost ∧ (countReceived y).cnt = y.cnt := by
  and_intros <;> rfl

@[simp] theorem countRxLost_frame  (y : Yard) :
    (countRxLost y).records = y.records ∧ (countRxLost y).seeking = y.seeking ∧
      (countRxLost y).line.following = y.line.following ∧ (countRxLost y).line.nextOffer = y.line.nextOffer ∧
      (countRxLost y).line.curOffer = y.line.curOffer ∧ (countRxLost y).line.queue = y.line.queue ∧
      (countRxLost y).line.waiting = y.line.waiting ∧ (countRxLost y).line.pool = y.line.pool ∧
      (countRxLost y).line.txBits = y.line.txBits ∧
      (countRxLost y).line.checkSlot = y.line.checkSlot ∧ (countRxLost y).line.flags = y.line.flags ∧
      (countRxLost y).seek = y.seek ∧ (countRxLost y).saturated = y.saturated ∧ (countRxLost y).lanes = y.lanes ∧
      (countRxLost y).fuel = y.fuel ∧ (countRxLost y).wash = y.wash ∧ (countRxLost y).gate = y.gate ∧
      (countRxLost y).points = y.points ∧ (countRxLost y).signs = y.signs ∧ (countRxLost y).notices = y.notices ∧
      (countRxLost y).lost = y.lost ∧ (countRxLost y).cnt = y.cnt := by
  and_intros <;> rfl

@[simp] theorem countCrcBad_frame  (y : Yard) :
    (countCrcBad y).records = y.records ∧ (countCrcBad y).seeking = y.seeking ∧
      (countCrcBad y).line.following = y.line.following ∧ (countCrcBad y).line.nextOffer = y.line.nextOffer ∧
      (countCrcBad y).line.curOffer = y.line.curOffer ∧ (countCrcBad y).line.queue = y.line.queue ∧
      (countCrcBad y).line.waiting = y.line.waiting ∧ (countCrcBad y).line.pool = y.line.pool ∧
      (countCrcBad y).line.txBits = y.line.txBits ∧
      (countCrcBad y).line.checkSlot = y.line.checkSlot ∧ (countCrcBad y).line.flags = y.line.flags ∧
      (countCrcBad y).seek = y.seek ∧ (countCrcBad y).saturated = y.saturated ∧ (countCrcBad y).lanes = y.lanes ∧
      (countCrcBad y).fuel = y.fuel ∧ (countCrcBad y).wash = y.wash ∧ (countCrcBad y).gate = y.gate ∧
      (countCrcBad y).points = y.points ∧ (countCrcBad y).signs = y.signs ∧ (countCrcBad y).notices = y.notices ∧
      (countCrcBad y).lost = y.lost ∧ (countCrcBad y).cnt = y.cnt := by
  and_intros <;> rfl

@[simp] theorem countMalformed_frame  (y : Yard) :
    (countMalformed y).records = y.records ∧ (countMalformed y).seeking = y.seeking ∧
      (countMalformed y).line.following = y.line.following ∧ (countMalformed y).line.nextOffer = y.line.nextOffer ∧
      (countMalformed y).line.curOffer = y.line.curOffer ∧ (countMalformed y).line.queue = y.line.queue ∧
      (countMalformed y).line.waiting = y.line.waiting ∧ (countMalformed y).line.pool = y.line.pool ∧
      (countMalformed y).line.txBits = y.line.txBits ∧
      (countMalformed y).line.checkSlot = y.line.checkSlot ∧ (countMalformed y).line.flags = y.line.flags ∧
      (countMalformed y).seek = y.seek ∧ (countMalformed y).saturated = y.saturated ∧
      (countMalformed y).lanes = y.lanes ∧ (countMalformed y).fuel = y.fuel ∧ (countMalformed y).wash = y.wash ∧
      (countMalformed y).gate = y.gate ∧ (countMalformed y).points = y.points ∧ (countMalformed y).signs = y.signs ∧
      (countMalformed y).notices = y.notices ∧ (countMalformed y).lost = y.lost ∧ (countMalformed y).cnt = y.cnt := by
  and_intros <;> rfl

@[simp] theorem countTxDamaged_frame  (y : Yard) :
    (countTxDamaged y).records = y.records ∧ (countTxDamaged y).seeking = y.seeking ∧
      (countTxDamaged y).line.following = y.line.following ∧ (countTxDamaged y).line.nextOffer = y.line.nextOffer ∧
      (countTxDamaged y).line.curOffer = y.line.curOffer ∧ (countTxDamaged y).line.queue = y.line.queue ∧
      (countTxDamaged y).line.waiting = y.line.waiting ∧ (countTxDamaged y).line.pool = y.line.pool ∧
      (countTxDamaged y).line.txBits = y.line.txBits ∧
      (countTxDamaged y).line.checkSlot = y.line.checkSlot ∧ (countTxDamaged y).line.flags = y.line.flags ∧
      (countTxDamaged y).seek = y.seek ∧ (countTxDamaged y).saturated = y.saturated ∧
      (countTxDamaged y).lanes = y.lanes ∧ (countTxDamaged y).fuel = y.fuel ∧ (countTxDamaged y).wash = y.wash ∧
      (countTxDamaged y).gate = y.gate ∧ (countTxDamaged y).points = y.points ∧ (countTxDamaged y).signs = y.signs ∧
      (countTxDamaged y).notices = y.notices ∧ (countTxDamaged y).lost = y.lost ∧ (countTxDamaged y).cnt = y.cnt := by
  and_intros <;> rfl

@[simp] theorem countTxDropped_frame  (y : Yard) :
    (countTxDropped y).records = y.records ∧ (countTxDropped y).seeking = y.seeking ∧
      (countTxDropped y).line.following = y.line.following ∧ (countTxDropped y).line.nextOffer = y.line.nextOffer ∧
      (countTxDropped y).line.curOffer = y.line.curOffer ∧ (countTxDropped y).line.queue = y.line.queue ∧
      (countTxDropped y).line.waiting = y.line.waiting ∧ (countTxDropped y).line.pool = y.line.pool ∧
      (countTxDropped y).line.txBits = y.line.txBits ∧
      (countTxDropped y).line.checkSlot = y.line.checkSlot ∧ (countTxDropped y).line.flags = y.line.flags ∧
      (countTxDropped y).seek = y.seek ∧ (countTxDropped y).saturated = y.saturated ∧
      (countTxDropped y).lanes = y.lanes ∧ (countTxDropped y).fuel = y.fuel ∧ (countTxDropped y).wash = y.wash ∧
      (countTxDropped y).gate = y.gate ∧ (countTxDropped y).points = y.points ∧ (countTxDropped y).signs = y.signs ∧
      (countTxDropped y).notices = y.notices ∧ (countTxDropped y).lost = y.lost ∧ (countTxDropped y).cnt = y.cnt := by
  and_intros <;> rfl

@[simp] theorem countOfferUnsent_frame  (y : Yard) :
    (countOfferUnsent y).records = y.records ∧ (countOfferUnsent y).seeking = y.seeking ∧
      (countOfferUnsent y).line.following = y.line.following ∧
      (countOfferUnsent y).line.nextOffer = y.line.nextOffer ∧ (countOfferUnsent y).line.curOffer = y.line.curOffer ∧
      (countOfferUnsent y).line.queue = y.line.queue ∧ (countOfferUnsent y).line.waiting = y.line.waiting ∧
      (countOfferUnsent y).line.pool = y.line.pool ∧ (countOfferUnsent y).line.txBits = y.line.txBits ∧
      (countOfferUnsent y).line.checkSlot = y.line.checkSlot ∧
      (countOfferUnsent y).line.flags = y.line.flags ∧ (countOfferUnsent y).seek = y.seek ∧
      (countOfferUnsent y).saturated = y.saturated ∧ (countOfferUnsent y).lanes = y.lanes ∧
      (countOfferUnsent y).fuel = y.fuel ∧ (countOfferUnsent y).wash = y.wash ∧ (countOfferUnsent y).gate = y.gate ∧
      (countOfferUnsent y).points = y.points ∧ (countOfferUnsent y).signs = y.signs ∧
      (countOfferUnsent y).notices = y.notices ∧ (countOfferUnsent y).lost = y.lost ∧
      (countOfferUnsent y).cnt = y.cnt := by
  and_intros <;> rfl

@[simp] theorem countTimeAdopted_frame  (y : Yard) :
    (countTimeAdopted y).records = y.records ∧ (countTimeAdopted y).seeking = y.seeking ∧
      (countTimeAdopted y).line.following = y.line.following ∧
      (countTimeAdopted y).line.nextOffer = y.line.nextOffer ∧ (countTimeAdopted y).line.curOffer = y.line.curOffer ∧
      (countTimeAdopted y).line.queue = y.line.queue ∧ (countTimeAdopted y).line.waiting = y.line.waiting ∧
      (countTimeAdopted y).line.pool = y.line.pool ∧ (countTimeAdopted y).line.txBits = y.line.txBits ∧
      (countTimeAdopted y).line.checkSlot = y.line.checkSlot ∧
      (countTimeAdopted y).line.flags = y.line.flags ∧ (countTimeAdopted y).seek = y.seek ∧
      (countTimeAdopted y).saturated = y.saturated ∧ (countTimeAdopted y).lanes = y.lanes ∧
      (countTimeAdopted y).fuel = y.fuel ∧ (countTimeAdopted y).wash = y.wash ∧ (countTimeAdopted y).gate = y.gate ∧
      (countTimeAdopted y).points = y.points ∧ (countTimeAdopted y).signs = y.signs ∧
      (countTimeAdopted y).notices = y.notices ∧ (countTimeAdopted y).lost = y.lost ∧
      (countTimeAdopted y).cnt = y.cnt := by
  and_intros <;> rfl

@[simp] theorem countStale_frame  (y : Yard) :
    (countStale y).records = y.records ∧ (countStale y).seeking = y.seeking ∧ (countStale y).line = y.line ∧
      (countStale y).seek = y.seek ∧ (countStale y).saturated = y.saturated ∧ (countStale y).lanes = y.lanes ∧
      (countStale y).fuel = y.fuel ∧ (countStale y).wash = y.wash ∧ (countStale y).gate = y.gate ∧
      (countStale y).points = y.points ∧ (countStale y).signs = y.signs ∧ (countStale y).notices = y.notices ∧
      (countStale y).lost = y.lost := by
  and_intros <;> rfl

@[simp] theorem countEmptyClear_frame  (y : Yard) :
    (countEmptyClear y).records = y.records ∧ (countEmptyClear y).seeking = y.seeking ∧
      (countEmptyClear y).line = y.line ∧ (countEmptyClear y).seek = y.seek ∧
      (countEmptyClear y).saturated = y.saturated ∧ (countEmptyClear y).lanes = y.lanes ∧
      (countEmptyClear y).fuel = y.fuel ∧ (countEmptyClear y).wash = y.wash ∧ (countEmptyClear y).gate = y.gate ∧
      (countEmptyClear y).points = y.points ∧ (countEmptyClear y).signs = y.signs ∧
      (countEmptyClear y).notices = y.notices ∧ (countEmptyClear y).lost = y.lost := by
  and_intros <;> rfl

@[simp] theorem countNozzleIgnored_frame  (y : Yard) :
    (countNozzleIgnored y).records = y.records ∧ (countNozzleIgnored y).seeking = y.seeking ∧
      (countNozzleIgnored y).line = y.line ∧ (countNozzleIgnored y).seek = y.seek ∧
      (countNozzleIgnored y).saturated = y.saturated ∧ (countNozzleIgnored y).lanes = y.lanes ∧
      (countNozzleIgnored y).fuel = y.fuel ∧ (countNozzleIgnored y).wash = y.wash ∧
      (countNozzleIgnored y).gate = y.gate ∧ (countNozzleIgnored y).points = y.points ∧
      (countNozzleIgnored y).signs = y.signs ∧ (countNozzleIgnored y).notices = y.notices ∧
      (countNozzleIgnored y).lost = y.lost := by
  and_intros <;> rfl

@[simp] theorem countTagBad_frame  (y : Yard) :
    (countTagBad y).records = y.records ∧ (countTagBad y).seeking = y.seeking ∧ (countTagBad y).line = y.line ∧
      (countTagBad y).seek = y.seek ∧ (countTagBad y).saturated = y.saturated ∧ (countTagBad y).lanes = y.lanes ∧
      (countTagBad y).fuel = y.fuel ∧ (countTagBad y).wash = y.wash ∧ (countTagBad y).gate = y.gate ∧
      (countTagBad y).points = y.points ∧ (countTagBad y).signs = y.signs ∧ (countTagBad y).notices = y.notices ∧
      (countTagBad y).lost = y.lost := by
  and_intros <;> rfl

@[simp] theorem countDupTag_frame  (y : Yard) :
    (countDupTag y).records = y.records ∧ (countDupTag y).seeking = y.seeking ∧ (countDupTag y).line = y.line ∧
      (countDupTag y).seek = y.seek ∧ (countDupTag y).saturated = y.saturated ∧ (countDupTag y).lanes = y.lanes ∧
      (countDupTag y).fuel = y.fuel ∧ (countDupTag y).wash = y.wash ∧ (countDupTag y).gate = y.gate ∧
      (countDupTag y).points = y.points ∧ (countDupTag y).signs = y.signs ∧ (countDupTag y).notices = y.notices ∧
      (countDupTag y).lost = y.lost := by
  and_intros <;> rfl

@[simp] theorem countPollFailed_frame  (y : Yard) :
    (countPollFailed y).records = y.records ∧ (countPollFailed y).seeking = y.seeking ∧
      (countPollFailed y).line = y.line ∧ (countPollFailed y).seek = y.seek ∧
      (countPollFailed y).saturated = y.saturated ∧ (countPollFailed y).lanes = y.lanes ∧
      (countPollFailed y).fuel = y.fuel ∧ (countPollFailed y).wash = y.wash ∧ (countPollFailed y).gate = y.gate ∧
      (countPollFailed y).points = y.points ∧ (countPollFailed y).signs = y.signs ∧
      (countPollFailed y).notices = y.notices ∧ (countPollFailed y).lost = y.lost := by
  and_intros <;> rfl

@[simp] theorem clearYard_frame (f : ClearFields) (y : Yard) :
    (clearYard f y).records = y.records ∧ (clearYard f y).seeking = y.seeking ∧
      (clearYard f y).line.following = y.line.following ∧ (clearYard f y).line.nextOffer = y.line.nextOffer ∧
      (clearYard f y).line.curOffer = y.line.curOffer ∧ (clearYard f y).line.queue = y.line.queue ∧
      (clearYard f y).line.waiting = y.line.waiting ∧ (clearYard f y).line.pool = y.line.pool ∧
      (clearYard f y).line.txBits = y.line.txBits ∧
      (clearYard f y).line.checkSlot = y.line.checkSlot ∧ (clearYard f y).seek = y.seek ∧
      (clearYard f y).lanes = y.lanes ∧
      (clearYard f y).fuel = y.fuel ∧ (clearYard f y).wash = y.wash ∧ (clearYard f y).gate = y.gate ∧
      (clearYard f y).points = y.points ∧ (clearYard f y).signs = y.signs ∧ (clearYard f y).notices = y.notices := by
  and_intros <;> rfl

@[simp] theorem pollGood_frame  (y : Yard) :
    (pollGood y).records = y.records ∧ (pollGood y).seeking = y.seeking ∧ (pollGood y).line = y.line ∧
      (pollGood y).seek = y.seek ∧ (pollGood y).saturated = y.saturated ∧ (pollGood y).lanes = y.lanes ∧
      (pollGood y).fuel = y.fuel ∧ (pollGood y).wash = y.wash ∧ (pollGood y).gate.pollTimer = y.gate.pollTimer ∧
      (pollGood y).gate.polling = y.gate.polling ∧
      (pollGood y).gate.busOut = y.gate.busOut ∧ (pollGood y).gate.busHeld = y.gate.busHeld ∧
      (pollGood y).gate.fifo = y.gate.fifo ∧ (pollGood y).gate.reads = y.gate.reads ∧
      (pollGood y).gate.arrivals = y.gate.arrivals ∧ (pollGood y).gate.duties = y.gate.duties ∧
      (pollGood y).gate.pins = y.gate.pins ∧ (pollGood y).points = y.points ∧ (pollGood y).signs = y.signs ∧
      (pollGood y).notices = y.notices ∧ (pollGood y).lost = y.lost ∧ (pollGood y).cnt = y.cnt := by
  and_intros <;> rfl

/-! ## Updates with a case split -/

@[simp] theorem notify_frame (e : Env) (k : NoticeKind) (f : Option Nat) (r : Option NoticeRes) (d : List Nat) (y : Yard) :
    (notify e k f r d y).records = y.records ∧ (notify e k f r d y).seeking = y.seeking ∧
      (notify e k f r d y).line = y.line ∧ (notify e k f r d y).seek = y.seek ∧
      (notify e k f r d y).saturated = y.saturated ∧ (notify e k f r d y).lanes = y.lanes ∧
      (notify e k f r d y).fuel = y.fuel ∧ (notify e k f r d y).wash = y.wash ∧ (notify e k f r d y).gate = y.gate ∧
      (notify e k f r d y).points = y.points ∧ (notify e k f r d y).signs = y.signs ∧
      (notify e k f r d y).cnt = y.cnt := by
  unfold notify
  (repeat' split) <;> simp

@[simp] theorem setSign_frame (e : Env) (n v : Nat) (y : Yard) :
    (setSign e n v y).records = y.records ∧ (setSign e n v y).seeking = y.seeking ∧ (setSign e n v y).line = y.line ∧
      (setSign e n v y).seek = y.seek ∧ (setSign e n v y).saturated = y.saturated ∧
      (setSign e n v y).lanes = y.lanes ∧ (setSign e n v y).fuel = y.fuel ∧ (setSign e n v y).wash = y.wash ∧
      (setSign e n v y).gate = y.gate ∧ (setSign e n v y).points = y.points ∧ (setSign e n v y).notices = y.notices ∧
      (setSign e n v y).lost = y.lost ∧ (setSign e n v y).cnt = y.cnt := by
  unfold setSign
  (repeat' split) <;> simp

@[simp] theorem enterTx_frame (e : Env) (r : TxReq) (y : Yard) :
    (enterTx e r y).records = y.records ∧ (enterTx e r y).seeking = y.seeking ∧
      (enterTx e r y).line.following = y.line.following ∧ (enterTx e r y).line.nextOffer = y.line.nextOffer ∧
      (enterTx e r y).line.curOffer = y.line.curOffer ∧ (enterTx e r y).line.waiting = y.line.waiting ∧
      (enterTx e r y).line.pool = y.line.pool ∧ (enterTx e r y).line.txBits = y.line.txBits ∧
      (enterTx e r y).line.checkSlot = y.line.checkSlot ∧
      (enterTx e r y).line.flags = y.line.flags ∧ (enterTx e r y).line.cnt = y.line.cnt ∧
      (enterTx e r y).seek = y.seek ∧ (enterTx e r y).saturated = y.saturated ∧ (enterTx e r y).lanes = y.lanes ∧
      (enterTx e r y).fuel = y.fuel ∧ (enterTx e r y).wash = y.wash ∧ (enterTx e r y).gate = y.gate ∧
      (enterTx e r y).points = y.points ∧ (enterTx e r y).signs = y.signs ∧ (enterTx e r y).notices = y.notices ∧
      (enterTx e r y).lost = y.lost ∧ (enterTx e r y).cnt = y.cnt := by
  unfold enterTx
  (repeat' split) <;> simp

@[simp] theorem fillTx_frame (e : Env) (l : List TxReq) (y : Yard) :
    (fillTx e l y).records = y.records ∧ (fillTx e l y).seeking = y.seeking ∧
      (fillTx e l y).line.following = y.line.following ∧ (fillTx e l y).line.nextOffer = y.line.nextOffer ∧
      (fillTx e l y).line.curOffer = y.line.curOffer ∧ (fillTx e l y).line.pool = y.line.pool ∧
      (fillTx e l y).line.txBits = y.line.txBits ∧
      (fillTx e l y).line.checkSlot = y.line.checkSlot ∧ (fillTx e l y).line.flags = y.line.flags ∧
      (fillTx e l y).line.cnt = y.line.cnt ∧ (fillTx e l y).seek = y.seek ∧ (fillTx e l y).saturated = y.saturated ∧
      (fillTx e l y).lanes = y.lanes ∧ (fillTx e l y).fuel = y.fuel ∧ (fillTx e l y).wash = y.wash ∧
      (fillTx e l y).gate = y.gate ∧ (fillTx e l y).points = y.points ∧ (fillTx e l y).signs = y.signs ∧
      (fillTx e l y).notices = y.notices ∧ (fillTx e l y).lost = y.lost ∧ (fillTx e l y).cnt = y.cnt := by
  induction l generalizing y with
  | nil => simp [fillTx]
  | cons r rs ih => unfold fillTx; split <;> simp [ih]

@[simp] theorem refillTx_frame (e : Env) (y : Yard) :
    (refillTx e y).records = y.records ∧ (refillTx e y).seeking = y.seeking ∧
      (refillTx e y).line.following = y.line.following ∧ (refillTx e y).line.nextOffer = y.line.nextOffer ∧
      (refillTx e y).line.curOffer = y.line.curOffer ∧ (refillTx e y).line.pool = y.line.pool ∧
      (refillTx e y).line.txBits = y.line.txBits ∧
      (refillTx e y).line.checkSlot = y.line.checkSlot ∧ (refillTx e y).line.flags = y.line.flags ∧
      (refillTx e y).line.cnt = y.line.cnt ∧ (refillTx e y).seek = y.seek ∧ (refillTx e y).saturated = y.saturated ∧
      (refillTx e y).lanes = y.lanes ∧ (refillTx e y).fuel = y.fuel ∧ (refillTx e y).wash = y.wash ∧
      (refillTx e y).gate = y.gate ∧ (refillTx e y).points = y.points ∧ (refillTx e y).signs = y.signs ∧
      (refillTx e y).notices = y.notices ∧ (refillTx e y).lost = y.lost ∧ (refillTx e y).cnt = y.cnt := by
  simp [refillTx]

@[simp] theorem send_frame (e : Env) (r : TxReq) (y : Yard) :
    (send e r y).records = y.records ∧ (send e r y).seeking = y.seeking ∧
      (send e r y).line.following = y.line.following ∧ (send e r y).line.nextOffer = y.line.nextOffer ∧
      (send e r y).line.curOffer = y.line.curOffer ∧ (send e r y).line.pool = y.line.pool ∧
      (send e r y).line.txBits = y.line.txBits ∧
      (send e r y).line.checkSlot = y.line.checkSlot ∧ (send e r y).line.flags = y.line.flags ∧
      (send e r y).line.cnt = y.line.cnt ∧ (send e r y).seek = y.seek ∧ (send e r y).saturated = y.saturated ∧
      (send e r y).lanes = y.lanes ∧ (send e r y).fuel = y.fuel ∧ (send e r y).wash = y.wash ∧
      (send e r y).gate = y.gate ∧ (send e r y).points = y.points ∧ (send e r y).signs = y.signs ∧
      (send e r y).notices = y.notices ∧ (send e r y).lost = y.lost ∧ (send e r y).cnt = y.cnt := by
  unfold send
  (repeat' split) <;> simp

@[simp] theorem withdraw_frame (e : Env) (p : TxReq → Bool) (y : Yard) :
    (withdraw e p y).records = y.records ∧ (withdraw e p y).seeking = y.seeking ∧
      (withdraw e p y).line.following = y.line.following ∧ (withdraw e p y).line.nextOffer = y.line.nextOffer ∧
      (withdraw e p y).line.curOffer = y.line.curOffer ∧ (withdraw e p y).line.pool = y.line.pool ∧
      (withdraw e p y).line.txBits = y.line.txBits ∧
      (withdraw e p y).line.checkSlot = y.line.checkSlot ∧ (withdraw e p y).line.flags = y.line.flags ∧
      (withdraw e p y).line.cnt = y.line.cnt ∧ (withdraw e p y).seek = y.seek ∧
      (withdraw e p y).saturated = y.saturated ∧ (withdraw e p y).lanes = y.lanes ∧ (withdraw e p y).fuel = y.fuel ∧
      (withdraw e p y).wash = y.wash ∧ (withdraw e p y).gate = y.gate ∧ (withdraw e p y).points = y.points ∧
      (withdraw e p y).signs = y.signs ∧ (withdraw e p y).notices = y.notices ∧ (withdraw e p y).lost = y.lost ∧
      (withdraw e p y).cnt = y.cnt := by
  simp [withdraw]

@[simp] theorem setFlag_frame (e : Env) (fl : LineFlag) (y : Yard) :
    (setFlag e fl y).records = y.records ∧ (setFlag e fl y).seeking = y.seeking ∧
      (setFlag e fl y).line.following = y.line.following ∧ (setFlag e fl y).line.nextOffer = y.line.nextOffer ∧
      (setFlag e fl y).line.curOffer = y.line.curOffer ∧ (setFlag e fl y).line.queue = y.line.queue ∧
      (setFlag e fl y).line.waiting = y.line.waiting ∧ (setFlag e fl y).line.pool = y.line.pool ∧
      (setFlag e fl y).line.txBits = y.line.txBits ∧
      (setFlag e fl y).line.checkSlot = y.line.checkSlot ∧ (setFlag e fl y).line.cnt = y.line.cnt ∧
      (setFlag e fl y).seek = y.seek ∧ (setFlag e fl y).saturated = y.saturated ∧ (setFlag e fl y).lanes = y.lanes ∧
      (setFlag e fl y).fuel = y.fuel ∧ (setFlag e fl y).wash = y.wash ∧ (setFlag e fl y).gate = y.gate ∧
      (setFlag e fl y).points = y.points ∧ (setFlag e fl y).signs = y.signs ∧ (setFlag e fl y).cnt = y.cnt := by
  unfold setFlag
  (repeat' split) <;> simp

@[simp] theorem noteGiven_frame (k : Nat) (s : Subject) (y : Yard) :
    (noteGiven k s y).records = y.records ∧ (noteGiven k s y).seeking = y.seeking ∧ (noteGiven k s y).line = y.line ∧
      (noteGiven k s y).seek.counter = y.seek.counter ∧ (noteGiven k s y).seek.table = y.seek.table ∧
      (noteGiven k s y).seek.offers = y.seek.offers ∧ (noteGiven k s y).seek.lapsed = y.seek.lapsed ∧
      (noteGiven k s y).seek.taken = y.seek.taken ∧ (noteGiven k s y).seek.choice = y.seek.choice ∧
      (noteGiven k s y).seek.freeCount = y.seek.freeCount ∧ (noteGiven k s y).saturated = y.saturated ∧
      (noteGiven k s y).lanes = y.lanes ∧ (noteGiven k s y).fuel = y.fuel ∧ (noteGiven k s y).wash = y.wash ∧
      (noteGiven k s y).gate = y.gate ∧ (noteGiven k s y).points = y.points ∧ (noteGiven k s y).signs = y.signs ∧
      (noteGiven k s y).notices = y.notices ∧ (noteGiven k s y).lost = y.lost ∧ (noteGiven k s y).cnt = y.cnt := by
  unfold noteGiven
  (repeat' split) <;> simp

@[simp] theorem setPlant_frame (w : Nat) (i : PlantInput) (b : Bool) (y : Yard) :
    (setPlant w i b y).records = y.records ∧ (setPlant w i b y).seeking = y.seeking ∧
      (setPlant w i b y).line = y.line ∧ (setPlant w i b y).seek = y.seek ∧
      (setPlant w i b y).saturated = y.saturated ∧ (setPlant w i b y).lanes = y.lanes ∧
      (setPlant w i b y).fuel = y.fuel ∧ (setPlant w i b y).wash.lanes = y.wash.lanes ∧
      (setPlant w i b y).wash.faultList = y.wash.faultList ∧ (setPlant w i b y).gate = y.gate ∧
      (setPlant w i b y).points = y.points ∧ (setPlant w i b y).signs = y.signs ∧
      (setPlant w i b y).notices = y.notices ∧ (setPlant w i b y).lost = y.lost ∧ (setPlant w i b y).cnt = y.cnt := by
  unfold setPlant
  (repeat' split) <;> simp

@[simp] theorem windowEnd_frame (e : Env) (b : Bool) (y : Yard) :
    (windowEnd e b y).records = y.records ∧ (windowEnd e b y).seeking = y.seeking ∧ (windowEnd e b y).line = y.line ∧
      (windowEnd e b y).seek = y.seek ∧ (windowEnd e b y).saturated = y.saturated ∧
      (windowEnd e b y).lanes = y.lanes ∧ (windowEnd e b y).fuel = y.fuel ∧ (windowEnd e b y).wash = y.wash ∧
      (windowEnd e b y).gate.pollTimer = y.gate.pollTimer ∧ (windowEnd e b y).gate.polling = y.gate.polling ∧
      (windowEnd e b y).gate.busOut = y.gate.busOut ∧
      (windowEnd e b y).gate.busHeld = y.gate.busHeld ∧ (windowEnd e b y).gate.failCount = y.gate.failCount ∧
      (windowEnd e b y).gate.faultRaised = y.gate.faultRaised ∧ (windowEnd e b y).gate.fifo = y.gate.fifo ∧
      (windowEnd e b y).gate.duties = y.gate.duties ∧ (windowEnd e b y).gate.pins = y.gate.pins ∧
      (windowEnd e b y).points = y.points ∧ (windowEnd e b y).signs = y.signs ∧ (windowEnd e b y).cnt = y.cnt := by
  unfold windowEnd gateIntruder
  (repeat' split) <;> simp

@[simp] theorem crossRead_frame (e : Env) (y : Yard) :
    (crossRead e y).records = y.records ∧ (crossRead e y).seeking = y.seeking ∧ (crossRead e y).line = y.line ∧
      (crossRead e y).seek = y.seek ∧ (crossRead e y).saturated = y.saturated ∧ (crossRead e y).lanes = y.lanes ∧
      (crossRead e y).fuel = y.fuel ∧ (crossRead e y).wash = y.wash ∧
      (crossRead e y).gate.pollTimer = y.gate.pollTimer ∧ (crossRead e y).gate.polling = y.gate.polling ∧
      (crossRead e y).gate.busOut = y.gate.busOut ∧
      (crossRead e y).gate.busHeld = y.gate.busHeld ∧ (crossRead e y).gate.failCount = y.gate.failCount ∧
      (crossRead e y).gate.faultRaised = y.gate.faultRaised ∧ (crossRead e y).gate.fifo = y.gate.fifo ∧
      (crossRead e y).gate.duties = y.gate.duties ∧ (crossRead e y).gate.pins = y.gate.pins ∧
      (crossRead e y).points = y.points ∧ (crossRead e y).signs = y.signs ∧ (crossRead e y).notices = y.notices ∧
      (crossRead e y).lost = y.lost ∧ (crossRead e y).cnt = y.cnt := by
  unfold crossRead
  (repeat' split) <;> simp

@[simp] theorem crossArrive_frame (e : Env) (y : Yard) :
    (crossArrive e y).records = y.records ∧ (crossArrive e y).seeking = y.seeking ∧ (crossArrive e y).line = y.line ∧
      (crossArrive e y).seek = y.seek ∧ (crossArrive e y).saturated = y.saturated ∧
      (crossArrive e y).lanes = y.lanes ∧ (crossArrive e y).fuel = y.fuel ∧ (crossArrive e y).wash = y.wash ∧
      (crossArrive e y).gate.pollTimer = y.gate.pollTimer ∧ (crossArrive e y).gate.polling = y.gate.polling ∧
      (crossArrive e y).gate.busOut = y.gate.busOut ∧
      (crossArrive e y).gate.busHeld = y.gate.busHeld ∧ (crossArrive e y).gate.failCount = y.gate.failCount ∧
      (crossArrive e y).gate.faultRaised = y.gate.faultRaised ∧ (crossArrive e y).gate.fifo = y.gate.fifo ∧
      (crossArrive e y).gate.duties = y.gate.duties ∧ (crossArrive e y).gate.pins = y.gate.pins ∧
      (crossArrive e y).points = y.points ∧ (crossArrive e y).signs = y.signs ∧ (crossArrive e y).cnt = y.cnt := by
  unfold crossArrive gateIntruder
  (repeat' split) <;> simp

end Sys2Proof.Machine
end

