-- ==== Sys2Proof/Laws/Frames.lean ====
section
/-! SUPPORT. Frame lemmas of the shared operations of the blocks: for each, the parts of the yard it leaves as they
were. Together with State.lean's they say what a meaning can reach, with no operation unfolded. -/

namespace Sys2Proof.Machine

@[simp] theorem entryLight_frame (e : Env) (k : PointKind) (i : Nat) (y : Yard) :
    (entryLight e k i y).records = y.records ∧ (entryLight e k i y).seeking = y.seeking ∧
      (entryLight e k i y).line = y.line ∧ (entryLight e k i y).seek = y.seek ∧
      (entryLight e k i y).saturated = y.saturated ∧ (entryLight e k i y).lanes = y.lanes ∧
      (entryLight e k i y).fuel = y.fuel ∧ (entryLight e k i y).wash = y.wash ∧ (entryLight e k i y).gate = y.gate ∧
      (entryLight e k i y).points = y.points ∧ (entryLight e k i y).notices = y.notices ∧
      (entryLight e k i y).lost = y.lost ∧ (entryLight e k i y).cnt = y.cnt := by
  unfold entryLight
  (repeat' split) <;> simp

@[simp] theorem onQueue_frame (e : Env) (k : PointKind) (i : Nat) (f : List Expect → List Expect) (y : Yard) :
    (onQueue e k i f y).records = y.records ∧ (onQueue e k i f y).seeking = y.seeking ∧
      (onQueue e k i f y).line = y.line ∧ (onQueue e k i f y).seek = y.seek ∧
      (onQueue e k i f y).saturated = y.saturated ∧ (onQueue e k i f y).lanes = y.lanes ∧
      (onQueue e k i f y).fuel = y.fuel ∧ (onQueue e k i f y).wash = y.wash ∧ (onQueue e k i f y).gate = y.gate ∧
      (onQueue e k i f y).notices = y.notices ∧ (onQueue e k i f y).lost = y.lost ∧
      (onQueue e k i f y).cnt = y.cnt := by
  simp [onQueue]

@[simp] theorem removeExpect_frame (e : Env) (k : PointKind) (i f : Nat) (y : Yard) :
    (removeExpect e k i f y).records = y.records ∧ (removeExpect e k i f y).seeking = y.seeking ∧
      (removeExpect e k i f y).line = y.line ∧ (removeExpect e k i f y).seek = y.seek ∧
      (removeExpect e k i f y).saturated = y.saturated ∧ (removeExpect e k i f y).lanes = y.lanes ∧
      (removeExpect e k i f y).fuel = y.fuel ∧ (removeExpect e k i f y).wash = y.wash ∧
      (removeExpect e k i f y).gate = y.gate ∧ (removeExpect e k i f y).notices = y.notices ∧
      (removeExpect e k i f y).lost = y.lost ∧ (removeExpect e k i f y).cnt = y.cnt := by
  simp [removeExpect]

@[simp] theorem tailExpect_frame (e : Env) (k : PointKind) (i f : Nat) (y : Yard) :
    (tailExpect e k i f y).records = y.records ∧ (tailExpect e k i f y).seeking = y.seeking ∧
      (tailExpect e k i f y).line = y.line ∧ (tailExpect e k i f y).seek = y.seek ∧
      (tailExpect e k i f y).saturated = y.saturated ∧ (tailExpect e k i f y).lanes = y.lanes ∧
      (tailExpect e k i f y).fuel = y.fuel ∧ (tailExpect e k i f y).wash = y.wash ∧
      (tailExpect e k i f y).gate = y.gate ∧ (tailExpect e k i f y).notices = y.notices ∧
      (tailExpect e k i f y).lost = y.lost ∧ (tailExpect e k i f y).cnt = y.cnt := by
  simp [tailExpect]

@[simp] theorem handBack_frame (e : Env) (k : PointKind) (i : Nat) (x : Expect) (y : Yard) :
    (handBack e k i x y).records = y.records ∧ (handBack e k i x y).seeking = y.seeking ∧
      (handBack e k i x y).line = y.line ∧ (handBack e k i x y).seek = y.seek ∧
      (handBack e k i x y).saturated = y.saturated ∧ (handBack e k i x y).lanes = y.lanes ∧
      (handBack e k i x y).fuel = y.fuel ∧ (handBack e k i x y).wash = y.wash ∧ (handBack e k i x y).gate = y.gate ∧
      (handBack e k i x y).notices = y.notices ∧ (handBack e k i x y).lost = y.lost ∧
      (handBack e k i x y).cnt = y.cnt := by
  simp [handBack]

@[simp] theorem popExpect_frame (e : Env) (k : PointKind) (i : Nat) (y : Yard) :
    ((popExpect e k i y).2).records = y.records ∧ ((popExpect e k i y).2).seeking = y.seeking ∧
      ((popExpect e k i y).2).line = y.line ∧ ((popExpect e k i y).2).seek = y.seek ∧
      ((popExpect e k i y).2).saturated = y.saturated ∧ ((popExpect e k i y).2).lanes = y.lanes ∧
      ((popExpect e k i y).2).fuel = y.fuel ∧ ((popExpect e k i y).2).wash = y.wash ∧
      ((popExpect e k i y).2).gate = y.gate ∧ ((popExpect e k i y).2).notices = y.notices ∧
      ((popExpect e k i y).2).lost = y.lost ∧ ((popExpect e k i y).2).cnt = y.cnt := by
  unfold popExpect
  (repeat' split) <;> simp

@[simp] theorem laneLight_frame (e : Env) (n : Nat) (y : Yard) :
    (laneLight e n y).records = y.records ∧ (laneLight e n y).seeking = y.seeking ∧ (laneLight e n y).line = y.line ∧
      (laneLight e n y).seek = y.seek ∧ (laneLight e n y).saturated = y.saturated ∧
      (laneLight e n y).lanes = y.lanes ∧ (laneLight e n y).fuel = y.fuel ∧ (laneLight e n y).wash = y.wash ∧
      (laneLight e n y).gate = y.gate ∧ (laneLight e n y).points = y.points ∧ (laneLight e n y).notices = y.notices ∧
      (laneLight e n y).lost = y.lost ∧ (laneLight e n y).cnt = y.cnt := by
  unfold laneLight
  (repeat' split) <;> simp

@[simp] theorem onPositions_frame (e : Env) (n : Nat) (f : List Position → List Position) (y : Yard) :
    (onPositions e n f y).records = y.records ∧ (onPositions e n f y).seeking = y.seeking ∧
      (onPositions e n f y).line = y.line ∧ (onPositions e n f y).seek = y.seek ∧
      (onPositions e n f y).saturated = y.saturated ∧ (onPositions e n f y).fuel = y.fuel ∧
      (onPositions e n f y).wash = y.wash ∧ (onPositions e n f y).gate = y.gate ∧
      (onPositions e n f y).points = y.points ∧ (onPositions e n f y).notices = y.notices ∧
      (onPositions e n f y).lost = y.lost ∧ (onPositions e n f y).cnt = y.cnt := by
  simp [onPositions]

@[simp] theorem setPosition_frame (e : Env) (n f : Nat) (st : PosState) (y : Yard) :
    (setPosition e n f st y).records = y.records ∧ (setPosition e n f st y).seeking = y.seeking ∧
      (setPosition e n f st y).line = y.line ∧ (setPosition e n f st y).seek = y.seek ∧
      (setPosition e n f st y).saturated = y.saturated ∧ (setPosition e n f st y).fuel = y.fuel ∧
      (setPosition e n f st y).wash = y.wash ∧ (setPosition e n f st y).gate = y.gate ∧
      (setPosition e n f st y).points = y.points ∧ (setPosition e n f st y).notices = y.notices ∧
      (setPosition e n f st y).lost = y.lost ∧ (setPosition e n f st y).cnt = y.cnt := by
  simp [setPosition]

@[simp] theorem leavePosition_frame (e : Env) (n f : Nat) (y : Yard) :
    (leavePosition e n f y).records = y.records ∧ (leavePosition e n f y).seeking = y.seeking ∧
      (leavePosition e n f y).line = y.line ∧ (leavePosition e n f y).seek = y.seek ∧
      (leavePosition e n f y).saturated = y.saturated ∧ (leavePosition e n f y).fuel = y.fuel ∧
      (leavePosition e n f y).wash = y.wash ∧ (leavePosition e n f y).gate = y.gate ∧
      (leavePosition e n f y).points = y.points ∧ (leavePosition e n f y).notices = y.notices ∧
      (leavePosition e n f y).lost = y.lost ∧ (leavePosition e n f y).cnt = y.cnt := by
  simp [leavePosition]

@[simp] theorem laneCommit_frame (n : Nat) (ref : SeekRef) (f : Nat) (r : Option Nat) (late : Bool) (y : Yard) :
    (laneCommit n ref f r late y).records = y.records ∧ (laneCommit n ref f r late y).seeking = y.seeking ∧
      (laneCommit n ref f r late y).line = y.line ∧ (laneCommit n ref f r late y).seek = y.seek ∧
      (laneCommit n ref f r late y).saturated = y.saturated ∧ (laneCommit n ref f r late y).fuel = y.fuel ∧
      (laneCommit n ref f r late y).wash = y.wash ∧ (laneCommit n ref f r late y).gate = y.gate ∧
      (laneCommit n ref f r late y).points = y.points ∧ (laneCommit n ref f r late y).signs = y.signs ∧
      (laneCommit n ref f r late y).notices = y.notices ∧ (laneCommit n ref f r late y).lost = y.lost ∧
      (laneCommit n ref f r late y).cnt = y.cnt := by
  simp [laneCommit]

@[simp] theorem laneArrival_frame (e : Env) (n f : Nat) (y : Yard) :
    (laneArrival e n f y).seeking = y.seeking ∧ (laneArrival e n f y).line = y.line ∧
      (laneArrival e n f y).seek = y.seek ∧ (laneArrival e n f y).saturated = y.saturated ∧
      (laneArrival e n f y).fuel = y.fuel ∧ (laneArrival e n f y).wash = y.wash ∧
      (laneArrival e n f y).gate = y.gate ∧ (laneArrival e n f y).points = y.points ∧
      (laneArrival e n f y).notices = y.notices ∧ (laneArrival e n f y).lost = y.lost ∧
      (laneArrival e n f y).cnt = y.cnt := by
  simp [laneArrival]

@[simp] theorem laneIntruder_frame (e : Env) (n : Nat) (y : Yard) :
    (laneIntruder e n y).records = y.records ∧ (laneIntruder e n y).seeking = y.seeking ∧
      (laneIntruder e n y).line = y.line ∧ (laneIntruder e n y).seek = y.seek ∧
      (laneIntruder e n y).saturated = y.saturated ∧ (laneIntruder e n y).lanes = y.lanes ∧
      (laneIntruder e n y).fuel = y.fuel ∧ (laneIntruder e n y).wash = y.wash ∧ (laneIntruder e n y).gate = y.gate ∧
      (laneIntruder e n y).points = y.points ∧ (laneIntruder e n y).signs = y.signs ∧
      (laneIntruder e n y).cnt = y.cnt := by
  simp [laneIntruder]

@[simp] theorem laneDwell_frame (e : Env) (n : Nat) (y : Yard) :
    (laneDwell e n y).records = y.records ∧ (laneDwell e n y).seeking = y.seeking ∧ (laneDwell e n y).line = y.line ∧
      (laneDwell e n y).seek = y.seek ∧ (laneDwell e n y).saturated = y.saturated ∧ (laneDwell e n y).fuel = y.fuel ∧
      (laneDwell e n y).wash = y.wash ∧ (laneDwell e n y).gate = y.gate ∧ (laneDwell e n y).points = y.points ∧
      (laneDwell e n y).signs = y.signs ∧ (laneDwell e n y).cnt = y.cnt := by
  unfold laneDwell
  (repeat' split) <;> simp

@[simp] theorem newRound_frame (e : Env) (n : Nat) (y : Yard) :
    (newRound e n y).records = y.records ∧ (newRound e n y).seeking = y.seeking ∧
      (newRound e n y).line.following = y.line.following ∧ (newRound e n y).line.nextOffer = y.line.nextOffer ∧
      (newRound e n y).line.curOffer = y.line.curOffer ∧ (newRound e n y).line.pool = y.line.pool ∧
      (newRound e n y).line.txBits = y.line.txBits ∧
      (newRound e n y).line.checkSlot = y.line.checkSlot ∧ (newRound e n y).line.flags = y.line.flags ∧
      (newRound e n y).line.cnt = y.line.cnt ∧ (newRound e n y).seek.offers = y.seek.offers ∧
      (newRound e n y).seek.lapsed = y.seek.lapsed ∧ (newRound e n y).seek.taken = y.seek.taken ∧
      (newRound e n y).seek.choice = y.seek.choice ∧ (newRound e n y).seek.freeCount = y.seek.freeCount ∧
      (newRound e n y).saturated = y.saturated ∧ (newRound e n y).lanes = y.lanes ∧ (newRound e n y).fuel = y.fuel ∧
      (newRound e n y).wash = y.wash ∧ (newRound e n y).gate = y.gate ∧ (newRound e n y).points = y.points ∧
      (newRound e n y).signs = y.signs ∧ (newRound e n y).notices = y.notices ∧ (newRound e n y).lost = y.lost ∧
      (newRound e n y).cnt = y.cnt := by
  unfold newRound
  (repeat' split) <;> simp

@[simp] theorem giveEntry_frame (e : Env) (y : Yard) :
    (giveEntry e y).records = y.records ∧ (giveEntry e y).seeking = y.seeking ∧
      (giveEntry e y).line.following = y.line.following ∧ (giveEntry e y).line.nextOffer = y.line.nextOffer ∧
      (giveEntry e y).line.curOffer = y.line.curOffer ∧ (giveEntry e y).line.pool = y.line.pool ∧
      (giveEntry e y).line.txBits = y.line.txBits ∧
      (giveEntry e y).line.checkSlot = y.line.checkSlot ∧ (giveEntry e y).line.flags = y.line.flags ∧
      (giveEntry e y).line.cnt = y.line.cnt ∧ (giveEntry e y).seek.offers = y.seek.offers ∧
      (giveEntry e y).seek.lapsed = y.seek.lapsed ∧ (giveEntry e y).seek.taken = y.seek.taken ∧
      (giveEntry e y).seek.choice = y.seek.choice ∧ (giveEntry e y).seek.freeCount = y.seek.freeCount ∧
      (giveEntry e y).saturated = y.saturated ∧ (giveEntry e y).lanes = y.lanes ∧ (giveEntry e y).fuel = y.fuel ∧
      (giveEntry e y).wash = y.wash ∧ (giveEntry e y).gate.pollTimer = y.gate.pollTimer ∧
      (giveEntry e y).gate.polling = y.gate.polling ∧
      (giveEntry e y).gate.busOut = y.gate.busOut ∧ (giveEntry e y).gate.busHeld = y.gate.busHeld ∧
      (giveEntry e y).gate.failCount = y.gate.failCount ∧ (giveEntry e y).gate.faultRaised = y.gate.faultRaised ∧
      (giveEntry e y).gate.fifo = y.gate.fifo ∧ (giveEntry e y).gate.reads = y.gate.reads ∧
      (giveEntry e y).gate.arrivals = y.gate.arrivals ∧ (giveEntry e y).gate.pins = y.gate.pins ∧
      (giveEntry e y).points = y.points ∧ (giveEntry e y).signs = y.signs ∧ (giveEntry e y).notices = y.notices ∧
      (giveEntry e y).lost = y.lost ∧ (giveEntry e y).cnt = y.cnt := by
  unfold giveEntry
  (repeat' split) <;> simp

@[simp] theorem giveTimes_frame (e : Env) (n : Nat) (y : Yard) :
    (giveTimes e n y).records = y.records ∧ (giveTimes e n y).seeking = y.seeking ∧
      (giveTimes e n y).line.following = y.line.following ∧ (giveTimes e n y).line.nextOffer = y.line.nextOffer ∧
      (giveTimes e n y).line.curOffer = y.line.curOffer ∧ (giveTimes e n y).line.pool = y.line.pool ∧
      (giveTimes e n y).line.txBits = y.line.txBits ∧
      (giveTimes e n y).line.checkSlot = y.line.checkSlot ∧ (giveTimes e n y).line.flags = y.line.flags ∧
      (giveTimes e n y).line.cnt = y.line.cnt ∧ (giveTimes e n y).seek.offers = y.seek.offers ∧
      (giveTimes e n y).seek.lapsed = y.seek.lapsed ∧ (giveTimes e n y).seek.taken = y.seek.taken ∧
      (giveTimes e n y).seek.choice = y.seek.choice ∧ (giveTimes e n y).seek.freeCount = y.seek.freeCount ∧
      (giveTimes e n y).saturated = y.saturated ∧ (giveTimes e n y).lanes = y.lanes ∧
      (giveTimes e n y).fuel = y.fuel ∧ (giveTimes e n y).wash = y.wash ∧
      (giveTimes e n y).gate.pollTimer = y.gate.pollTimer ∧ (giveTimes e n y).gate.polling = y.gate.polling ∧
      (giveTimes e n y).gate.busOut = y.gate.busOut ∧
      (giveTimes e n y).gate.busHeld = y.gate.busHeld ∧ (giveTimes e n y).gate.failCount = y.gate.failCount ∧
      (giveTimes e n y).gate.faultRaised = y.gate.faultRaised ∧ (giveTimes e n y).gate.fifo = y.gate.fifo ∧
      (giveTimes e n y).gate.reads = y.gate.reads ∧ (giveTimes e n y).gate.arrivals = y.gate.arrivals ∧
      (giveTimes e n y).gate.pins = y.gate.pins ∧ (giveTimes e n y).points = y.points ∧
      (giveTimes e n y).signs = y.signs ∧ (giveTimes e n y).notices = y.notices ∧ (giveTimes e n y).lost = y.lost ∧
      (giveTimes e n y).cnt = y.cnt := by
  induction n generalizing y with
  | zero => simp [giveTimes]
  | succ n ih => simp [giveTimes, ih]

@[simp] theorem giveEntries_frame (e : Env) (y : Yard) :
    (giveEntries e y).records = y.records ∧ (giveEntries e y).seeking = y.seeking ∧
      (giveEntries e y).line.following = y.line.following ∧ (giveEntries e y).line.nextOffer = y.line.nextOffer ∧
      (giveEntries e y).line.curOffer = y.line.curOffer ∧ (giveEntries e y).line.pool = y.line.pool ∧
      (giveEntries e y).line.txBits = y.line.txBits ∧
      (giveEntries e y).line.checkSlot = y.line.checkSlot ∧ (giveEntries e y).line.flags = y.line.flags ∧
      (giveEntries e y).line.cnt = y.line.cnt ∧ (giveEntries e y).seek.offers = y.seek.offers ∧
      (giveEntries e y).seek.lapsed = y.seek.lapsed ∧ (giveEntries e y).seek.taken = y.seek.taken ∧
      (giveEntries e y).seek.choice = y.seek.choice ∧ (giveEntries e y).seek.freeCount = y.seek.freeCount ∧
      (giveEntries e y).saturated = y.saturated ∧ (giveEntries e y).lanes = y.lanes ∧
      (giveEntries e y).fuel = y.fuel ∧ (giveEntries e y).wash = y.wash ∧
      (giveEntries e y).gate.pollTimer = y.gate.pollTimer ∧ (giveEntries e y).gate.polling = y.gate.polling ∧
      (giveEntries e y).gate.busOut = y.gate.busOut ∧
      (giveEntries e y).gate.busHeld = y.gate.busHeld ∧ (giveEntries e y).gate.failCount = y.gate.failCount ∧
      (giveEntries e y).gate.faultRaised = y.gate.faultRaised ∧ (giveEntries e y).gate.fifo = y.gate.fifo ∧
      (giveEntries e y).gate.reads = y.gate.reads ∧ (giveEntries e y).gate.arrivals = y.gate.arrivals ∧
      (giveEntries e y).gate.pins = y.gate.pins ∧ (giveEntries e y).points = y.points ∧
      (giveEntries e y).signs = y.signs ∧ (giveEntries e y).notices = y.notices ∧ (giveEntries e y).lost = y.lost ∧
      (giveEntries e y).cnt = y.cnt := by
  unfold giveEntries
  (repeat' split) <;> simp

@[simp] theorem withdrawHandover_frame (e : Env) (n : Nat) (y : Yard) :
    (withdrawHandover e n y).records = y.records ∧ (withdrawHandover e n y).seeking = y.seeking ∧
      (withdrawHandover e n y).line.following = y.line.following ∧
      (withdrawHandover e n y).line.nextOffer = y.line.nextOffer ∧
      (withdrawHandover e n y).line.curOffer = y.line.curOffer ∧ (withdrawHandover e n y).line.pool = y.line.pool ∧
      (withdrawHandover e n y).line.txBits = y.line.txBits ∧
      (withdrawHandover e n y).line.checkSlot = y.line.checkSlot ∧
      (withdrawHandover e n y).line.flags = y.line.flags ∧
      (withdrawHandover e n y).line.cnt = y.line.cnt ∧ (withdrawHandover e n y).seek = y.seek ∧
      (withdrawHandover e n y).saturated = y.saturated ∧ (withdrawHandover e n y).lanes = y.lanes ∧
      (withdrawHandover e n y).fuel = y.fuel ∧ (withdrawHandover e n y).wash = y.wash ∧
      (withdrawHandover e n y).gate = y.gate ∧ (withdrawHandover e n y).points = y.points ∧
      (withdrawHandover e n y).signs = y.signs ∧ (withdrawHandover e n y).notices = y.notices ∧
      (withdrawHandover e n y).lost = y.lost ∧ (withdrawHandover e n y).cnt = y.cnt := by
  simp [withdrawHandover]

@[simp] theorem withdrawExit_frame (e : Env) (ref : SeekRef) (f : Nat) (y : Yard) :
    (withdrawExit e ref f y).records = y.records ∧ (withdrawExit e ref f y).seeking = y.seeking ∧
      (withdrawExit e ref f y).line.following = y.line.following ∧
      (withdrawExit e ref f y).line.nextOffer = y.line.nextOffer ∧
      (withdrawExit e ref f y).line.curOffer = y.line.curOffer ∧ (withdrawExit e ref f y).line.pool = y.line.pool ∧
      (withdrawExit e ref f y).line.txBits = y.line.txBits ∧
      (withdrawExit e ref f y).line.checkSlot = y.line.checkSlot ∧
      (withdrawExit e ref f y).line.flags = y.line.flags ∧
      (withdrawExit e ref f y).line.cnt = y.line.cnt ∧ (withdrawExit e ref f y).seek = y.seek ∧
      (withdrawExit e ref f y).saturated = y.saturated ∧ (withdrawExit e ref f y).lanes = y.lanes ∧
      (withdrawExit e ref f y).fuel = y.fuel ∧ (withdrawExit e ref f y).wash = y.wash ∧
      (withdrawExit e ref f y).gate = y.gate ∧ (withdrawExit e ref f y).points = y.points ∧
      (withdrawExit e ref f y).signs = y.signs ∧ (withdrawExit e ref f y).notices = y.notices ∧
      (withdrawExit e ref f y).lost = y.lost ∧ (withdrawExit e ref f y).cnt = y.cnt := by
  simp [withdrawExit]

@[simp] theorem cancelSeek_frame (e : Env) (n : Nat) (y : Yard) :
    (cancelSeek e n y).records = y.records ∧ (cancelSeek e n y).seeking = y.seeking ∧
      (cancelSeek e n y).line.following = y.line.following ∧ (cancelSeek e n y).line.nextOffer = y.line.nextOffer ∧
      (cancelSeek e n y).line.curOffer = y.line.curOffer ∧ (cancelSeek e n y).line.pool = y.line.pool ∧
      (cancelSeek e n y).line.txBits = y.line.txBits ∧
      (cancelSeek e n y).line.checkSlot = y.line.checkSlot ∧ (cancelSeek e n y).line.flags = y.line.flags ∧
      (cancelSeek e n y).line.cnt = y.line.cnt ∧ (cancelSeek e n y).seek.counter = y.seek.counter ∧
      (cancelSeek e n y).seek.given = y.seek.given ∧ (cancelSeek e n y).seek.offers = y.seek.offers ∧
      (cancelSeek e n y).seek.lapsed = y.seek.lapsed ∧ (cancelSeek e n y).seek.taken = y.seek.taken ∧
      (cancelSeek e n y).seek.choice = y.seek.choice ∧ (cancelSeek e n y).seek.freeCount = y.seek.freeCount ∧
      (cancelSeek e n y).saturated = y.saturated ∧ (cancelSeek e n y).lanes = y.lanes ∧
      (cancelSeek e n y).fuel = y.fuel ∧ (cancelSeek e n y).wash = y.wash ∧ (cancelSeek e n y).gate = y.gate ∧
      (cancelSeek e n y).points = y.points ∧ (cancelSeek e n y).signs = y.signs ∧
      (cancelSeek e n y).notices = y.notices ∧ (cancelSeek e n y).lost = y.lost ∧ (cancelSeek e n y).cnt = y.cnt := by
  unfold cancelSeek
  (repeat' split) <;> simp

@[simp] theorem cancelBusSeek_frame (e : Env) (f : Nat) (y : Yard) :
    (cancelBusSeek e f y).records = y.records ∧ (cancelBusSeek e f y).seeking = y.seeking ∧
      (cancelBusSeek e f y).line.following = y.line.following ∧
      (cancelBusSeek e f y).line.nextOffer = y.line.nextOffer ∧
      (cancelBusSeek e f y).line.curOffer = y.line.curOffer ∧ (cancelBusSeek e f y).line.pool = y.line.pool ∧
      (cancelBusSeek e f y).line.txBits = y.line.txBits ∧
      (cancelBusSeek e f y).line.checkSlot = y.line.checkSlot ∧ (cancelBusSeek e f y).line.flags = y.line.flags ∧
      (cancelBusSeek e f y).line.cnt = y.line.cnt ∧ (cancelBusSeek e f y).seek.counter = y.seek.counter ∧
      (cancelBusSeek e f y).seek.given = y.seek.given ∧ (cancelBusSeek e f y).seek.offers = y.seek.offers ∧
      (cancelBusSeek e f y).seek.lapsed = y.seek.lapsed ∧ (cancelBusSeek e f y).seek.taken = y.seek.taken ∧
      (cancelBusSeek e f y).seek.choice = y.seek.choice ∧ (cancelBusSeek e f y).seek.freeCount = y.seek.freeCount ∧
      (cancelBusSeek e f y).saturated = y.saturated ∧ (cancelBusSeek e f y).lanes = y.lanes ∧
      (cancelBusSeek e f y).fuel = y.fuel ∧ (cancelBusSeek e f y).wash = y.wash ∧
      (cancelBusSeek e f y).gate = y.gate ∧ (cancelBusSeek e f y).points = y.points ∧
      (cancelBusSeek e f y).signs = y.signs ∧ (cancelBusSeek e f y).notices = y.notices ∧
      (cancelBusSeek e f y).lost = y.lost ∧ (cancelBusSeek e f y).cnt = y.cnt := by
  unfold cancelBusSeek
  (repeat' split) <;> simp

@[simp] theorem excludeAndRetry_frame (e : Env) (n st : Nat) (y : Yard) :
    (excludeAndRetry e n st y).records = y.records ∧ (excludeAndRetry e n st y).seeking = y.seeking ∧
      (excludeAndRetry e n st y).line.following = y.line.following ∧
      (excludeAndRetry e n st y).line.nextOffer = y.line.nextOffer ∧
      (excludeAndRetry e n st y).line.curOffer = y.line.curOffer ∧
      (excludeAndRetry e n st y).line.pool = y.line.pool ∧ (excludeAndRetry e n st y).line.txBits = y.line.txBits ∧
      (excludeAndRetry e n st y).line.checkSlot = y.line.checkSlot ∧
      (excludeAndRetry e n st y).line.flags = y.line.flags ∧ (excludeAndRetry e n st y).line.cnt = y.line.cnt ∧
      (excludeAndRetry e n st y).seek.offers = y.seek.offers ∧
      (excludeAndRetry e n st y).seek.lapsed = y.seek.lapsed ∧ (excludeAndRetry e n st y).seek.taken = y.seek.taken ∧
      (excludeAndRetry e n st y).seek.choice = y.seek.choice ∧
      (excludeAndRetry e n st y).seek.freeCount = y.seek.freeCount ∧
      (excludeAndRetry e n st y).saturated = y.saturated ∧ (excludeAndRetry e n st y).lanes = y.lanes ∧
      (excludeAndRetry e n st y).fuel = y.fuel ∧ (excludeAndRetry e n st y).wash = y.wash ∧
      (excludeAndRetry e n st y).gate = y.gate ∧ (excludeAndRetry e n st y).points = y.points ∧
      (excludeAndRetry e n st y).signs = y.signs ∧ (excludeAndRetry e n st y).notices = y.notices ∧
      (excludeAndRetry e n st y).lost = y.lost ∧ (excludeAndRetry e n st y).cnt = y.cnt := by
  simp [excludeAndRetry]

@[simp] theorem handoverFailed_frame (e : Env) (n : Nat) (y : Yard) :
    (handoverFailed e n y).line.following = y.line.following ∧
      (handoverFailed e n y).line.nextOffer = y.line.nextOffer ∧
      (handoverFailed e n y).line.curOffer = y.line.curOffer ∧ (handoverFailed e n y).line.pool = y.line.pool ∧
      (handoverFailed e n y).line.txBits = y.line.txBits ∧
      (handoverFailed e n y).line.checkSlot = y.line.checkSlot ∧ (handoverFailed e n y).line.flags = y.line.flags ∧
      (handoverFailed e n y).line.cnt = y.line.cnt ∧ (handoverFailed e n y).seek.offers = y.seek.offers ∧
      (handoverFailed e n y).seek.lapsed = y.seek.lapsed ∧ (handoverFailed e n y).seek.taken = y.seek.taken ∧
      (handoverFailed e n y).seek.choice = y.seek.choice ∧ (handoverFailed e n y).seek.freeCount = y.seek.freeCount ∧
      (handoverFailed e n y).saturated = y.saturated ∧ (handoverFailed e n y).lanes = y.lanes ∧
      (handoverFailed e n y).fuel = y.fuel ∧ (handoverFailed e n y).wash = y.wash ∧
      (handoverFailed e n y).gate = y.gate ∧ (handoverFailed e n y).points = y.points ∧
      (handoverFailed e n y).signs = y.signs ∧ (handoverFailed e n y).cnt = y.cnt := by
  unfold handoverFailed
  (repeat' split) <;> simp

@[simp] theorem endCallOut_frame (e : Env) (o : OfferEntry) (y : Yard) :
    (endCallOut e o y).records = y.records ∧ (endCallOut e o y).seeking = y.seeking ∧
      (endCallOut e o y).line.following = y.line.following ∧ (endCallOut e o y).line.nextOffer = y.line.nextOffer ∧
      (endCallOut e o y).line.curOffer = y.line.curOffer ∧ (endCallOut e o y).line.pool = y.line.pool ∧
      (endCallOut e o y).line.txBits = y.line.txBits ∧
      (endCallOut e o y).line.checkSlot = y.line.checkSlot ∧ (endCallOut e o y).line.flags = y.line.flags ∧
      (endCallOut e o y).line.cnt = y.line.cnt ∧ (endCallOut e o y).seek.counter = y.seek.counter ∧
      (endCallOut e o y).seek.table = y.seek.table ∧ (endCallOut e o y).seek.given = y.seek.given ∧
      (endCallOut e o y).seek.lapsed = y.seek.lapsed ∧ (endCallOut e o y).seek.taken = y.seek.taken ∧
      (endCallOut e o y).seek.choice = y.seek.choice ∧ (endCallOut e o y).seek.freeCount = y.seek.freeCount ∧
      (endCallOut e o y).saturated = y.saturated ∧ (endCallOut e o y).fuel = y.fuel ∧
      (endCallOut e o y).wash = y.wash ∧ (endCallOut e o y).gate = y.gate ∧ (endCallOut e o y).points = y.points ∧
      (endCallOut e o y).notices = y.notices ∧ (endCallOut e o y).lost = y.lost ∧ (endCallOut e o y).cnt = y.cnt := by
  unfold endCallOut
  split <;> simp

@[simp] theorem dropExitOffer_frame (e : Env) (f : Nat) (y : Yard) :
    (dropExitOffer e f y).records = y.records ∧ (dropExitOffer e f y).seeking = y.seeking ∧
      (dropExitOffer e f y).line.following = y.line.following ∧
      (dropExitOffer e f y).line.nextOffer = y.line.nextOffer ∧
      (dropExitOffer e f y).line.curOffer = y.line.curOffer ∧ (dropExitOffer e f y).line.pool = y.line.pool ∧
      (dropExitOffer e f y).line.txBits = y.line.txBits ∧
      (dropExitOffer e f y).line.checkSlot = y.line.checkSlot ∧ (dropExitOffer e f y).line.flags = y.line.flags ∧
      (dropExitOffer e f y).line.cnt = y.line.cnt ∧ (dropExitOffer e f y).seek.counter = y.seek.counter ∧
      (dropExitOffer e f y).seek.table = y.seek.table ∧ (dropExitOffer e f y).seek.given = y.seek.given ∧
      (dropExitOffer e f y).seek.lapsed = y.seek.lapsed ∧ (dropExitOffer e f y).seek.taken = y.seek.taken ∧
      (dropExitOffer e f y).seek.choice = y.seek.choice ∧ (dropExitOffer e f y).seek.freeCount = y.seek.freeCount ∧
      (dropExitOffer e f y).saturated = y.saturated ∧ (dropExitOffer e f y).lanes = y.lanes ∧
      (dropExitOffer e f y).fuel = y.fuel ∧ (dropExitOffer e f y).wash = y.wash ∧
      (dropExitOffer e f y).gate = y.gate ∧ (dropExitOffer e f y).points = y.points ∧
      (dropExitOffer e f y).signs = y.signs ∧ (dropExitOffer e f y).notices = y.notices ∧
      (dropExitOffer e f y).lost = y.lost ∧ (dropExitOffer e f y).cnt = y.cnt := by
  unfold dropExitOffer
  (repeat' split) <;> simp

@[simp] theorem dropPendingExit_frame (e : Env) (f : Nat) (y : Yard) :
    (dropPendingExit e f y).records = y.records ∧ (dropPendingExit e f y).seeking = y.seeking ∧
      (dropPendingExit e f y).line.following = y.line.following ∧
      (dropPendingExit e f y).line.nextOffer = y.line.nextOffer ∧
      (dropPendingExit e f y).line.curOffer = y.line.curOffer ∧ (dropPendingExit e f y).line.pool = y.line.pool ∧
      (dropPendingExit e f y).line.txBits = y.line.txBits ∧
      (dropPendingExit e f y).line.checkSlot = y.line.checkSlot ∧ (dropPendingExit e f y).line.flags = y.line.flags ∧
      (dropPendingExit e f y).line.cnt = y.line.cnt ∧ (dropPendingExit e f y).seek.counter = y.seek.counter ∧
      (dropPendingExit e f y).seek.table = y.seek.table ∧ (dropPendingExit e f y).seek.given = y.seek.given ∧
      (dropPendingExit e f y).seek.offers = y.seek.offers ∧ (dropPendingExit e f y).seek.lapsed = y.seek.lapsed ∧
      (dropPendingExit e f y).seek.taken = y.seek.taken ∧ (dropPendingExit e f y).seek.freeCount = y.seek.freeCount ∧
      (dropPendingExit e f y).saturated = y.saturated ∧ (dropPendingExit e f y).lanes = y.lanes ∧
      (dropPendingExit e f y).fuel = y.fuel ∧ (dropPendingExit e f y).wash = y.wash ∧
      (dropPendingExit e f y).gate = y.gate ∧ (dropPendingExit e f y).points = y.points ∧
      (dropPendingExit e f y).signs = y.signs ∧ (dropPendingExit e f y).notices = y.notices ∧
      (dropPendingExit e f y).lost = y.lost ∧ (dropPendingExit e f y).cnt = y.cnt := by
  unfold dropPendingExit
  (repeat' split) <;> simp

@[simp] theorem sendRepin_frame (e : Env) (f : Nat) (y : Yard) :
    (sendRepin e f y).records = y.records ∧ (sendRepin e f y).seeking = y.seeking ∧
      (sendRepin e f y).line.following = y.line.following ∧ (sendRepin e f y).line.nextOffer = y.line.nextOffer ∧
      (sendRepin e f y).line.curOffer = y.line.curOffer ∧ (sendRepin e f y).line.pool = y.line.pool ∧
      (sendRepin e f y).line.txBits = y.line.txBits ∧
      (sendRepin e f y).line.checkSlot = y.line.checkSlot ∧ (sendRepin e f y).line.flags = y.line.flags ∧
      (sendRepin e f y).line.cnt = y.line.cnt ∧ (sendRepin e f y).seek = y.seek ∧
      (sendRepin e f y).saturated = y.saturated ∧ (sendRepin e f y).lanes = y.lanes ∧
      (sendRepin e f y).fuel = y.fuel ∧ (sendRepin e f y).wash = y.wash ∧ (sendRepin e f y).gate = y.gate ∧
      (sendRepin e f y).points = y.points ∧ (sendRepin e f y).signs = y.signs ∧
      (sendRepin e f y).notices = y.notices ∧ (sendRepin e f y).lost = y.lost ∧ (sendRepin e f y).cnt = y.cnt := by
  simp [sendRepin]

@[simp] theorem unpinFleet_frame (e : Env) (f : Nat) (y : Yard) :
    (unpinFleet e f y).seeking = y.seeking ∧ (unpinFleet e f y).line.following = y.line.following ∧
      (unpinFleet e f y).line.nextOffer = y.line.nextOffer ∧ (unpinFleet e f y).line.curOffer = y.line.curOffer ∧
      (unpinFleet e f y).line.pool = y.line.pool ∧ (unpinFleet e f y).line.txBits = y.line.txBits ∧
      (unpinFleet e f y).line.checkSlot = y.line.checkSlot ∧
      (unpinFleet e f y).line.flags = y.line.flags ∧ (unpinFleet e f y).line.cnt = y.line.cnt ∧
      (unpinFleet e f y).seek = y.seek ∧ (unpinFleet e f y).saturated = y.saturated ∧
      (unpinFleet e f y).lanes = y.lanes ∧ (unpinFleet e f y).fuel = y.fuel ∧ (unpinFleet e f y).wash = y.wash ∧
      (unpinFleet e f y).gate = y.gate ∧ (unpinFleet e f y).points = y.points ∧ (unpinFleet e f y).signs = y.signs ∧
      (unpinFleet e f y).notices = y.notices ∧ (unpinFleet e f y).lost = y.lost ∧ (unpinFleet e f y).cnt = y.cnt := by
  simp [unpinFleet]

@[simp] theorem uncoverDuty_frame (e : Env) (d : Nat) (y : Yard) :
    (uncoverDuty e d y).seeking = y.seeking ∧ (uncoverDuty e d y).line.following = y.line.following ∧
      (uncoverDuty e d y).line.nextOffer = y.line.nextOffer ∧ (uncoverDuty e d y).line.curOffer = y.line.curOffer ∧
      (uncoverDuty e d y).line.pool = y.line.pool ∧ (uncoverDuty e d y).line.txBits = y.line.txBits ∧
      (uncoverDuty e d y).line.checkSlot = y.line.checkSlot ∧
      (uncoverDuty e d y).line.flags = y.line.flags ∧ (uncoverDuty e d y).line.cnt = y.line.cnt ∧
      (uncoverDuty e d y).seek.counter = y.seek.counter ∧ (uncoverDuty e d y).seek.given = y.seek.given ∧
      (uncoverDuty e d y).seek.offers = y.seek.offers ∧ (uncoverDuty e d y).seek.lapsed = y.seek.lapsed ∧
      (uncoverDuty e d y).seek.taken = y.seek.taken ∧ (uncoverDuty e d y).seek.choice = y.seek.choice ∧
      (uncoverDuty e d y).seek.freeCount = y.seek.freeCount ∧ (uncoverDuty e d y).saturated = y.saturated ∧
      (uncoverDuty e d y).lanes = y.lanes ∧ (uncoverDuty e d y).fuel = y.fuel ∧ (uncoverDuty e d y).wash = y.wash ∧
      (uncoverDuty e d y).gate.pollTimer = y.gate.pollTimer ∧ (uncoverDuty e d y).gate.polling = y.gate.polling ∧
      (uncoverDuty e d y).gate.busOut = y.gate.busOut ∧
      (uncoverDuty e d y).gate.busHeld = y.gate.busHeld ∧ (uncoverDuty e d y).gate.failCount = y.gate.failCount ∧
      (uncoverDuty e d y).gate.faultRaised = y.gate.faultRaised ∧ (uncoverDuty e d y).gate.fifo = y.gate.fifo ∧
      (uncoverDuty e d y).gate.reads = y.gate.reads ∧ (uncoverDuty e d y).gate.arrivals = y.gate.arrivals ∧
      (uncoverDuty e d y).points = y.points ∧ (uncoverDuty e d y).signs = y.signs ∧
      (uncoverDuty e d y).cnt = y.cnt := by
  unfold uncoverDuty
  dsimp only
  cases y.dutySeek? d <;> cases y.pinnedFleet d <;> simp

@[simp] theorem enterCalling_frame (e : Env) (d : Duty) (y : Yard) :
    (enterCalling e d y).seeking = y.seeking ∧ (enterCalling e d y).line.following = y.line.following ∧
      (enterCalling e d y).line.nextOffer = y.line.nextOffer ∧ (enterCalling e d y).line.curOffer = y.line.curOffer ∧
      (enterCalling e d y).line.pool = y.line.pool ∧ (enterCalling e d y).line.txBits = y.line.txBits ∧
      (enterCalling e d y).line.checkSlot = y.line.checkSlot ∧
      (enterCalling e d y).line.flags = y.line.flags ∧ (enterCalling e d y).line.cnt = y.line.cnt ∧
      (enterCalling e d y).seek.counter = y.seek.counter ∧ (enterCalling e d y).seek.given = y.seek.given ∧
      (enterCalling e d y).seek.offers = y.seek.offers ∧ (enterCalling e d y).seek.lapsed = y.seek.lapsed ∧
      (enterCalling e d y).seek.taken = y.seek.taken ∧ (enterCalling e d y).seek.choice = y.seek.choice ∧
      (enterCalling e d y).seek.freeCount = y.seek.freeCount ∧ (enterCalling e d y).saturated = y.saturated ∧
      (enterCalling e d y).lanes = y.lanes ∧ (enterCalling e d y).fuel = y.fuel ∧
      (enterCalling e d y).wash = y.wash ∧ (enterCalling e d y).gate.pollTimer = y.gate.pollTimer ∧
      (enterCalling e d y).gate.polling = y.gate.polling ∧
      (enterCalling e d y).gate.busOut = y.gate.busOut ∧ (enterCalling e d y).gate.busHeld = y.gate.busHeld ∧
      (enterCalling e d y).gate.failCount = y.gate.failCount ∧
      (enterCalling e d y).gate.faultRaised = y.gate.faultRaised ∧ (enterCalling e d y).gate.fifo = y.gate.fifo ∧
      (enterCalling e d y).gate.reads = y.gate.reads ∧ (enterCalling e d y).gate.arrivals = y.gate.arrivals ∧
      (enterCalling e d y).points = y.points ∧ (enterCalling e d y).signs = y.signs ∧
      (enterCalling e d y).cnt = y.cnt := by
  unfold enterCalling
  dsimp only
  split <;> simp

@[simp] theorem callIfDue_frame (e : Env) (n : Nat) (y : Yard) :
    (callIfDue e n y).seeking = y.seeking ∧ (callIfDue e n y).line.following = y.line.following ∧
      (callIfDue e n y).line.nextOffer = y.line.nextOffer ∧ (callIfDue e n y).line.curOffer = y.line.curOffer ∧
      (callIfDue e n y).line.pool = y.line.pool ∧ (callIfDue e n y).line.txBits = y.line.txBits ∧
      (callIfDue e n y).line.checkSlot = y.line.checkSlot ∧
      (callIfDue e n y).line.flags = y.line.flags ∧ (callIfDue e n y).line.cnt = y.line.cnt ∧
      (callIfDue e n y).seek.counter = y.seek.counter ∧ (callIfDue e n y).seek.given = y.seek.given ∧
      (callIfDue e n y).seek.offers = y.seek.offers ∧ (callIfDue e n y).seek.lapsed = y.seek.lapsed ∧
      (callIfDue e n y).seek.taken = y.seek.taken ∧ (callIfDue e n y).seek.choice = y.seek.choice ∧
      (callIfDue e n y).seek.freeCount = y.seek.freeCount ∧ (callIfDue e n y).saturated = y.saturated ∧
      (callIfDue e n y).lanes = y.lanes ∧ (callIfDue e n y).fuel = y.fuel ∧ (callIfDue e n y).wash = y.wash ∧
      (callIfDue e n y).gate.pollTimer = y.gate.pollTimer ∧ (callIfDue e n y).gate.polling = y.gate.polling ∧
      (callIfDue e n y).gate.busOut = y.gate.busOut ∧
      (callIfDue e n y).gate.busHeld = y.gate.busHeld ∧ (callIfDue e n y).gate.failCount = y.gate.failCount ∧
      (callIfDue e n y).gate.faultRaised = y.gate.faultRaised ∧ (callIfDue e n y).gate.fifo = y.gate.fifo ∧
      (callIfDue e n y).gate.reads = y.gate.reads ∧ (callIfDue e n y).gate.arrivals = y.gate.arrivals ∧
      (callIfDue e n y).points = y.points ∧ (callIfDue e n y).signs = y.signs ∧ (callIfDue e n y).cnt = y.cnt := by
  unfold callIfDue
  (repeat' split) <;> simp

@[simp] theorem recallFor_frame (e : Env) (f : Nat) (y : Yard) :
    (recallFor e f y).seeking = y.seeking ∧ (recallFor e f y).line.following = y.line.following ∧
      (recallFor e f y).line.nextOffer = y.line.nextOffer ∧ (recallFor e f y).line.curOffer = y.line.curOffer ∧
      (recallFor e f y).line.pool = y.line.pool ∧ (recallFor e f y).line.txBits = y.line.txBits ∧
      (recallFor e f y).line.checkSlot = y.line.checkSlot ∧
      (recallFor e f y).line.flags = y.line.flags ∧ (recallFor e f y).line.cnt = y.line.cnt ∧
      (recallFor e f y).seek.counter = y.seek.counter ∧ (recallFor e f y).seek.given = y.seek.given ∧
      (recallFor e f y).seek.offers = y.seek.offers ∧ (recallFor e f y).seek.lapsed = y.seek.lapsed ∧
      (recallFor e f y).seek.taken = y.seek.taken ∧ (recallFor e f y).seek.choice = y.seek.choice ∧
      (recallFor e f y).seek.freeCount = y.seek.freeCount ∧ (recallFor e f y).saturated = y.saturated ∧
      (recallFor e f y).lanes = y.lanes ∧ (recallFor e f y).fuel = y.fuel ∧ (recallFor e f y).wash = y.wash ∧
      (recallFor e f y).gate.pollTimer = y.gate.pollTimer ∧ (recallFor e f y).gate.polling = y.gate.polling ∧
      (recallFor e f y).gate.busOut = y.gate.busOut ∧
      (recallFor e f y).gate.busHeld = y.gate.busHeld ∧ (recallFor e f y).gate.failCount = y.gate.failCount ∧
      (recallFor e f y).gate.faultRaised = y.gate.faultRaised ∧ (recallFor e f y).gate.fifo = y.gate.fifo ∧
      (recallFor e f y).gate.reads = y.gate.reads ∧ (recallFor e f y).gate.arrivals = y.gate.arrivals ∧
      (recallFor e f y).points = y.points ∧ (recallFor e f y).signs = y.signs ∧ (recallFor e f y).cnt = y.cnt := by
  unfold recallFor
  (repeat' split) <;> simp

@[simp] theorem dutyMinute_frame (e : Env) (a b n : Nat) (y : Yard) :
    (dutyMinute e a b n y).seeking = y.seeking ∧ (dutyMinute e a b n y).line.following = y.line.following ∧
      (dutyMinute e a b n y).line.nextOffer = y.line.nextOffer ∧
      (dutyMinute e a b n y).line.curOffer = y.line.curOffer ∧ (dutyMinute e a b n y).line.pool = y.line.pool ∧
      (dutyMinute e a b n y).line.txBits = y.line.txBits ∧
      (dutyMinute e a b n y).line.checkSlot = y.line.checkSlot ∧ (dutyMinute e a b n y).line.flags = y.line.flags ∧
      (dutyMinute e a b n y).line.cnt = y.line.cnt ∧ (dutyMinute e a b n y).seek.counter = y.seek.counter ∧
      (dutyMinute e a b n y).seek.given = y.seek.given ∧ (dutyMinute e a b n y).seek.offers = y.seek.offers ∧
      (dutyMinute e a b n y).seek.lapsed = y.seek.lapsed ∧ (dutyMinute e a b n y).seek.taken = y.seek.taken ∧
      (dutyMinute e a b n y).seek.choice = y.seek.choice ∧ (dutyMinute e a b n y).seek.freeCount = y.seek.freeCount ∧
      (dutyMinute e a b n y).saturated = y.saturated ∧ (dutyMinute e a b n y).lanes = y.lanes ∧
      (dutyMinute e a b n y).fuel = y.fuel ∧ (dutyMinute e a b n y).wash = y.wash ∧
      (dutyMinute e a b n y).gate.pollTimer = y.gate.pollTimer ∧
      (dutyMinute e a b n y).gate.polling = y.gate.polling ∧
      (dutyMinute e a b n y).gate.busOut = y.gate.busOut ∧ (dutyMinute e a b n y).gate.busHeld = y.gate.busHeld ∧
      (dutyMinute e a b n y).gate.failCount = y.gate.failCount ∧
      (dutyMinute e a b n y).gate.faultRaised = y.gate.faultRaised ∧ (dutyMinute e a b n y).gate.fifo = y.gate.fifo ∧
      (dutyMinute e a b n y).gate.reads = y.gate.reads ∧ (dutyMinute e a b n y).gate.arrivals = y.gate.arrivals ∧
      (dutyMinute e a b n y).points = y.points ∧ (dutyMinute e a b n y).signs = y.signs ∧
      (dutyMinute e a b n y).cnt = y.cnt := by
  unfold dutyMinute
  split
  · simp
  split <;> (try split) <;> (try simp only []) <;> (repeat' split) <;> simp

@[simp] theorem dutyMinuteFold_frame (e : Env) (a b : Nat) (l : List Nat) (y : Yard) :
    (l.foldl (fun y n => dutyMinute e a b n y) y).seeking = y.seeking ∧
      (l.foldl (fun y n => dutyMinute e a b n y) y).line.following = y.line.following ∧
      (l.foldl (fun y n => dutyMinute e a b n y) y).line.nextOffer = y.line.nextOffer ∧
      (l.foldl (fun y n => dutyMinute e a b n y) y).line.curOffer = y.line.curOffer ∧
      (l.foldl (fun y n => dutyMinute e a b n y) y).line.pool = y.line.pool ∧
      (l.foldl (fun y n => dutyMinute e a b n y) y).line.txBits = y.line.txBits ∧
      (l.foldl (fun y n => dutyMinute e a b n y) y).line.checkSlot = y.line.checkSlot ∧
      (l.foldl (fun y n => dutyMinute e a b n y) y).line.flags = y.line.flags ∧
      (l.foldl (fun y n => dutyMinute e a b n y) y).line.cnt = y.line.cnt ∧
      (l.foldl (fun y n => dutyMinute e a b n y) y).seek.counter = y.seek.counter ∧
      (l.foldl (fun y n => dutyMinute e a b n y) y).seek.given = y.seek.given ∧
      (l.foldl (fun y n => dutyMinute e a b n y) y).seek.offers = y.seek.offers ∧
      (l.foldl (fun y n => dutyMinute e a b n y) y).seek.lapsed = y.seek.lapsed ∧
      (l.foldl (fun y n => dutyMinute e a b n y) y).seek.taken = y.seek.taken ∧
      (l.foldl (fun y n => dutyMinute e a b n y) y).seek.choice = y.seek.choice ∧
      (l.foldl (fun y n => dutyMinute e a b n y) y).seek.freeCount = y.seek.freeCount ∧
      (l.foldl (fun y n => dutyMinute e a b n y) y).saturated = y.saturated ∧
      (l.foldl (fun y n => dutyMinute e a b n y) y).lanes = y.lanes ∧
      (l.foldl (fun y n => dutyMinute e a b n y) y).fuel = y.fuel ∧
      (l.foldl (fun y n => dutyMinute e a b n y) y).wash = y.wash ∧
      (l.foldl (fun y n => dutyMinute e a b n y) y).gate.pollTimer = y.gate.pollTimer ∧
      (l.foldl (fun y n => dutyMinute e a b n y) y).gate.polling = y.gate.polling ∧
      (l.foldl (fun y n => dutyMinute e a b n y) y).gate.busOut = y.gate.busOut ∧
      (l.foldl (fun y n => dutyMinute e a b n y) y).gate.busHeld = y.gate.busHeld ∧
      (l.foldl (fun y n => dutyMinute e a b n y) y).gate.failCount = y.gate.failCount ∧
      (l.foldl (fun y n => dutyMinute e a b n y) y).gate.faultRaised = y.gate.faultRaised ∧
      (l.foldl (fun y n => dutyMinute e a b n y) y).gate.fifo = y.gate.fifo ∧
      (l.foldl (fun y n => dutyMinute e a b n y) y).gate.reads = y.gate.reads ∧
      (l.foldl (fun y n => dutyMinute e a b n y) y).gate.arrivals = y.gate.arrivals ∧
      (l.foldl (fun y n => dutyMinute e a b n y) y).points = y.points ∧
      (l.foldl (fun y n => dutyMinute e a b n y) y).signs = y.signs ∧
      (l.foldl (fun y n => dutyMinute e a b n y) y).cnt = y.cnt := by
  induction l generalizing y with
  | nil => simp
  | cons n l ih => simp [ih]

@[simp] theorem dutiesMinute_frame (e : Env) (a b : Nat) (y : Yard) :
    (dutiesMinute e a b y).seeking = y.seeking ∧ (dutiesMinute e a b y).line.following = y.line.following ∧
      (dutiesMinute e a b y).line.nextOffer = y.line.nextOffer ∧
      (dutiesMinute e a b y).line.curOffer = y.line.curOffer ∧ (dutiesMinute e a b y).line.pool = y.line.pool ∧
      (dutiesMinute e a b y).line.txBits = y.line.txBits ∧
      (dutiesMinute e a b y).line.checkSlot = y.line.checkSlot ∧ (dutiesMinute e a b y).line.flags = y.line.flags ∧
      (dutiesMinute e a b y).line.cnt = y.line.cnt ∧ (dutiesMinute e a b y).seek.counter = y.seek.counter ∧
      (dutiesMinute e a b y).seek.given = y.seek.given ∧ (dutiesMinute e a b y).seek.offers = y.seek.offers ∧
      (dutiesMinute e a b y).seek.lapsed = y.seek.lapsed ∧ (dutiesMinute e a b y).seek.taken = y.seek.taken ∧
      (dutiesMinute e a b y).seek.choice = y.seek.choice ∧ (dutiesMinute e a b y).seek.freeCount = y.seek.freeCount ∧
      (dutiesMinute e a b y).saturated = y.saturated ∧ (dutiesMinute e a b y).lanes = y.lanes ∧
      (dutiesMinute e a b y).fuel = y.fuel ∧ (dutiesMinute e a b y).wash = y.wash ∧
      (dutiesMinute e a b y).gate.pollTimer = y.gate.pollTimer ∧
      (dutiesMinute e a b y).gate.polling = y.gate.polling ∧
      (dutiesMinute e a b y).gate.busOut = y.gate.busOut ∧ (dutiesMinute e a b y).gate.busHeld = y.gate.busHeld ∧
      (dutiesMinute e a b y).gate.failCount = y.gate.failCount ∧
      (dutiesMinute e a b y).gate.faultRaised = y.gate.faultRaised ∧ (dutiesMinute e a b y).gate.fifo = y.gate.fifo ∧
      (dutiesMinute e a b y).gate.reads = y.gate.reads ∧ (dutiesMinute e a b y).gate.arrivals = y.gate.arrivals ∧
      (dutiesMinute e a b y).points = y.points ∧ (dutiesMinute e a b y).signs = y.signs ∧
      (dutiesMinute e a b y).cnt = y.cnt := by
  simp [dutiesMinute]

@[simp] theorem expireDuty_frame (e : Env) (y : Yard) (d : Duty) :
    (expireDuty e y d).records = y.records ∧ (expireDuty e y d).seeking = y.seeking ∧
      (expireDuty e y d).line = y.line ∧ (expireDuty e y d).seek = y.seek ∧
      (expireDuty e y d).saturated = y.saturated ∧ (expireDuty e y d).lanes = y.lanes ∧
      (expireDuty e y d).fuel = y.fuel ∧ (expireDuty e y d).wash = y.wash ∧
      (expireDuty e y d).gate.pollTimer = y.gate.pollTimer ∧ (expireDuty e y d).gate.polling = y.gate.polling ∧
      (expireDuty e y d).gate.busOut = y.gate.busOut ∧
      (expireDuty e y d).gate.busHeld = y.gate.busHeld ∧ (expireDuty e y d).gate.failCount = y.gate.failCount ∧
      (expireDuty e y d).gate.faultRaised = y.gate.faultRaised ∧ (expireDuty e y d).gate.fifo = y.gate.fifo ∧
      (expireDuty e y d).gate.reads = y.gate.reads ∧ (expireDuty e y d).gate.arrivals = y.gate.arrivals ∧
      (expireDuty e y d).gate.pins = y.gate.pins ∧ (expireDuty e y d).points = y.points ∧
      (expireDuty e y d).signs = y.signs ∧ (expireDuty e y d).cnt = y.cnt := by
  simp [expireDuty]

@[simp] theorem cancelDutySeek_frame (e : Env) (y : Yard) (d : Duty) :
    (cancelDutySeek e y d).records = y.records ∧ (cancelDutySeek e y d).seeking = y.seeking ∧
      (cancelDutySeek e y d).line.following = y.line.following ∧
      (cancelDutySeek e y d).line.nextOffer = y.line.nextOffer ∧
      (cancelDutySeek e y d).line.curOffer = y.line.curOffer ∧ (cancelDutySeek e y d).line.pool = y.line.pool ∧
      (cancelDutySeek e y d).line.txBits = y.line.txBits ∧
      (cancelDutySeek e y d).line.checkSlot = y.line.checkSlot ∧ (cancelDutySeek e y d).line.flags = y.line.flags ∧
      (cancelDutySeek e y d).line.cnt = y.line.cnt ∧ (cancelDutySeek e y d).seek.counter = y.seek.counter ∧
      (cancelDutySeek e y d).seek.given = y.seek.given ∧ (cancelDutySeek e y d).seek.offers = y.seek.offers ∧
      (cancelDutySeek e y d).seek.lapsed = y.seek.lapsed ∧ (cancelDutySeek e y d).seek.taken = y.seek.taken ∧
      (cancelDutySeek e y d).seek.choice = y.seek.choice ∧ (cancelDutySeek e y d).seek.freeCount = y.seek.freeCount ∧
      (cancelDutySeek e y d).saturated = y.saturated ∧ (cancelDutySeek e y d).lanes = y.lanes ∧
      (cancelDutySeek e y d).fuel = y.fuel ∧ (cancelDutySeek e y d).wash = y.wash ∧
      (cancelDutySeek e y d).gate = y.gate ∧ (cancelDutySeek e y d).points = y.points ∧
      (cancelDutySeek e y d).signs = y.signs ∧ (cancelDutySeek e y d).notices = y.notices ∧
      (cancelDutySeek e y d).lost = y.lost ∧ (cancelDutySeek e y d).cnt = y.cnt := by
  unfold cancelDutySeek
  (repeat' split) <;> simp

@[simp] theorem expireFold_frame (e : Env) (l : List Duty) (y : Yard) :
    (l.foldl (expireDuty e) y).records = y.records ∧ (l.foldl (expireDuty e) y).seeking = y.seeking ∧
      (l.foldl (expireDuty e) y).line = y.line ∧ (l.foldl (expireDuty e) y).seek = y.seek ∧
      (l.foldl (expireDuty e) y).saturated = y.saturated ∧ (l.foldl (expireDuty e) y).lanes = y.lanes ∧
      (l.foldl (expireDuty e) y).fuel = y.fuel ∧ (l.foldl (expireDuty e) y).wash = y.wash ∧
      (l.foldl (expireDuty e) y).gate.pollTimer = y.gate.pollTimer ∧
      (l.foldl (expireDuty e) y).gate.polling = y.gate.polling ∧
      (l.foldl (expireDuty e) y).gate.busOut = y.gate.busOut ∧
      (l.foldl (expireDuty e) y).gate.busHeld = y.gate.busHeld ∧
      (l.foldl (expireDuty e) y).gate.failCount = y.gate.failCount ∧
      (l.foldl (expireDuty e) y).gate.faultRaised = y.gate.faultRaised ∧
      (l.foldl (expireDuty e) y).gate.fifo = y.gate.fifo ∧ (l.foldl (expireDuty e) y).gate.reads = y.gate.reads ∧
      (l.foldl (expireDuty e) y).gate.arrivals = y.gate.arrivals ∧
      (l.foldl (expireDuty e) y).gate.pins = y.gate.pins ∧ (l.foldl (expireDuty e) y).points = y.points ∧
      (l.foldl (expireDuty e) y).signs = y.signs ∧ (l.foldl (expireDuty e) y).cnt = y.cnt := by
  induction l generalizing y with
  | nil => simp
  | cons n l ih => simp [ih]

@[simp] theorem cancelFold_frame (e : Env) (l : List Duty) (y : Yard) :
    (l.foldl (cancelDutySeek e) y).records = y.records ∧ (l.foldl (cancelDutySeek e) y).seeking = y.seeking ∧
      (l.foldl (cancelDutySeek e) y).line.following = y.line.following ∧
      (l.foldl (cancelDutySeek e) y).line.nextOffer = y.line.nextOffer ∧
      (l.foldl (cancelDutySeek e) y).line.curOffer = y.line.curOffer ∧
      (l.foldl (cancelDutySeek e) y).line.pool = y.line.pool ∧
      (l.foldl (cancelDutySeek e) y).line.txBits = y.line.txBits ∧
      (l.foldl (cancelDutySeek e) y).line.checkSlot = y.line.checkSlot ∧
      (l.foldl (cancelDutySeek e) y).line.flags = y.line.flags ∧
      (l.foldl (cancelDutySeek e) y).line.cnt = y.line.cnt ∧
      (l.foldl (cancelDutySeek e) y).seek.counter = y.seek.counter ∧
      (l.foldl (cancelDutySeek e) y).seek.given = y.seek.given ∧
      (l.foldl (cancelDutySeek e) y).seek.offers = y.seek.offers ∧
      (l.foldl (cancelDutySeek e) y).seek.lapsed = y.seek.lapsed ∧
      (l.foldl (cancelDutySeek e) y).seek.taken = y.seek.taken ∧
      (l.foldl (cancelDutySeek e) y).seek.choice = y.seek.choice ∧
      (l.foldl (cancelDutySeek e) y).seek.freeCount = y.seek.freeCount ∧
      (l.foldl (cancelDutySeek e) y).saturated = y.saturated ∧ (l.foldl (cancelDutySeek e) y).lanes = y.lanes ∧
      (l.foldl (cancelDutySeek e) y).fuel = y.fuel ∧ (l.foldl (cancelDutySeek e) y).wash = y.wash ∧
      (l.foldl (cancelDutySeek e) y).gate = y.gate ∧ (l.foldl (cancelDutySeek e) y).points = y.points ∧
      (l.foldl (cancelDutySeek e) y).signs = y.signs ∧ (l.foldl (cancelDutySeek e) y).notices = y.notices ∧
      (l.foldl (cancelDutySeek e) y).lost = y.lost ∧ (l.foldl (cancelDutySeek e) y).cnt = y.cnt := by
  induction l generalizing y with
  | nil => simp
  | cons n l ih => simp [ih]

@[simp] theorem callIfDueFold_frame (e : Env) (l : List Nat) (y : Yard) :
    (l.foldl (fun y n => callIfDue e n y) y).seeking = y.seeking ∧
      (l.foldl (fun y n => callIfDue e n y) y).line.following = y.line.following ∧
      (l.foldl (fun y n => callIfDue e n y) y).line.nextOffer = y.line.nextOffer ∧
      (l.foldl (fun y n => callIfDue e n y) y).line.curOffer = y.line.curOffer ∧
      (l.foldl (fun y n => callIfDue e n y) y).line.pool = y.line.pool ∧
      (l.foldl (fun y n => callIfDue e n y) y).line.txBits = y.line.txBits ∧
      (l.foldl (fun y n => callIfDue e n y) y).line.checkSlot = y.line.checkSlot ∧
      (l.foldl (fun y n => callIfDue e n y) y).line.flags = y.line.flags ∧
      (l.foldl (fun y n => callIfDue e n y) y).line.cnt = y.line.cnt ∧
      (l.foldl (fun y n => callIfDue e n y) y).seek.counter = y.seek.counter ∧
      (l.foldl (fun y n => callIfDue e n y) y).seek.given = y.seek.given ∧
      (l.foldl (fun y n => callIfDue e n y) y).seek.offers = y.seek.offers ∧
      (l.foldl (fun y n => callIfDue e n y) y).seek.lapsed = y.seek.lapsed ∧
      (l.foldl (fun y n => callIfDue e n y) y).seek.taken = y.seek.taken ∧
      (l.foldl (fun y n => callIfDue e n y) y).seek.choice = y.seek.choice ∧
      (l.foldl (fun y n => callIfDue e n y) y).seek.freeCount = y.seek.freeCount ∧
      (l.foldl (fun y n => callIfDue e n y) y).saturated = y.saturated ∧
      (l.foldl (fun y n => callIfDue e n y) y).lanes = y.lanes ∧
      (l.foldl (fun y n => callIfDue e n y) y).fuel = y.fuel ∧
      (l.foldl (fun y n => callIfDue e n y) y).wash = y.wash ∧
      (l.foldl (fun y n => callIfDue e n y) y).gate.pollTimer = y.gate.pollTimer ∧
      (l.foldl (fun y n => callIfDue e n y) y).gate.polling = y.gate.polling ∧
      (l.foldl (fun y n => callIfDue e n y) y).gate.busOut = y.gate.busOut ∧
      (l.foldl (fun y n => callIfDue e n y) y).gate.busHeld = y.gate.busHeld ∧
      (l.foldl (fun y n => callIfDue e n y) y).gate.failCount = y.gate.failCount ∧
      (l.foldl (fun y n => callIfDue e n y) y).gate.faultRaised = y.gate.faultRaised ∧
      (l.foldl (fun y n => callIfDue e n y) y).gate.fifo = y.gate.fifo ∧
      (l.foldl (fun y n => callIfDue e n y) y).gate.reads = y.gate.reads ∧
      (l.foldl (fun y n => callIfDue e n y) y).gate.arrivals = y.gate.arrivals ∧
      (l.foldl (fun y n => callIfDue e n y) y).points = y.points ∧
      (l.foldl (fun y n => callIfDue e n y) y).signs = y.signs ∧
      (l.foldl (fun y n => callIfDue e n y) y).cnt = y.cnt := by
  induction l generalizing y with
  | nil => simp
  | cons n l ih => simp [ih]

@[simp] theorem gateDayTurn_frame (e : Env) (y : Yard) :
    (gateDayTurn e y).records = y.records ∧ (gateDayTurn e y).seeking = y.seeking ∧
      (gateDayTurn e y).line.following = y.line.following ∧ (gateDayTurn e y).line.nextOffer = y.line.nextOffer ∧
      (gateDayTurn e y).line.curOffer = y.line.curOffer ∧ (gateDayTurn e y).line.pool = y.line.pool ∧
      (gateDayTurn e y).line.txBits = y.line.txBits ∧
      (gateDayTurn e y).line.checkSlot = y.line.checkSlot ∧ (gateDayTurn e y).line.flags = y.line.flags ∧
      (gateDayTurn e y).line.cnt = y.line.cnt ∧ (gateDayTurn e y).seek.counter = y.seek.counter ∧
      (gateDayTurn e y).seek.given = y.seek.given ∧ (gateDayTurn e y).seek.offers = y.seek.offers ∧
      (gateDayTurn e y).seek.lapsed = y.seek.lapsed ∧ (gateDayTurn e y).seek.taken = y.seek.taken ∧
      (gateDayTurn e y).seek.choice = y.seek.choice ∧ (gateDayTurn e y).seek.freeCount = y.seek.freeCount ∧
      (gateDayTurn e y).saturated = y.saturated ∧ (gateDayTurn e y).lanes = y.lanes ∧
      (gateDayTurn e y).fuel = y.fuel ∧ (gateDayTurn e y).wash = y.wash ∧
      (gateDayTurn e y).gate.pollTimer = y.gate.pollTimer ∧ (gateDayTurn e y).gate.polling = y.gate.polling ∧
      (gateDayTurn e y).gate.busOut = y.gate.busOut ∧
      (gateDayTurn e y).gate.busHeld = y.gate.busHeld ∧ (gateDayTurn e y).gate.failCount = y.gate.failCount ∧
      (gateDayTurn e y).gate.faultRaised = y.gate.faultRaised ∧ (gateDayTurn e y).gate.fifo = y.gate.fifo ∧
      (gateDayTurn e y).gate.reads = y.gate.reads ∧ (gateDayTurn e y).gate.arrivals = y.gate.arrivals ∧
      (gateDayTurn e y).points = y.points ∧ (gateDayTurn e y).signs = y.signs ∧ (gateDayTurn e y).cnt = y.cnt := by
  simp [gateDayTurn]

@[simp] theorem dayTurn_frame (e : Env) (y : Yard) :
    (dayTurn e y).seeking = y.seeking ∧ (dayTurn e y).line.following = y.line.following ∧
      (dayTurn e y).line.nextOffer = y.line.nextOffer ∧ (dayTurn e y).line.curOffer = y.line.curOffer ∧
      (dayTurn e y).line.pool = y.line.pool ∧ (dayTurn e y).line.txBits = y.line.txBits ∧
      (dayTurn e y).line.checkSlot = y.line.checkSlot ∧
      (dayTurn e y).line.flags = y.line.flags ∧ (dayTurn e y).line.cnt = y.line.cnt ∧
      (dayTurn e y).seek.counter = y.seek.counter ∧ (dayTurn e y).seek.given = y.seek.given ∧
      (dayTurn e y).seek.offers = y.seek.offers ∧ (dayTurn e y).seek.lapsed = y.seek.lapsed ∧
      (dayTurn e y).seek.taken = y.seek.taken ∧ (dayTurn e y).seek.choice = y.seek.choice ∧
      (dayTurn e y).seek.freeCount = y.seek.freeCount ∧ (dayTurn e y).saturated = y.saturated ∧
      (dayTurn e y).fuel = y.fuel ∧ (dayTurn e y).wash = y.wash ∧ (dayTurn e y).gate.pollTimer = y.gate.pollTimer ∧
      (dayTurn e y).gate.polling = y.gate.polling ∧
      (dayTurn e y).gate.busOut = y.gate.busOut ∧ (dayTurn e y).gate.busHeld = y.gate.busHeld ∧
      (dayTurn e y).gate.failCount = y.gate.failCount ∧ (dayTurn e y).gate.faultRaised = y.gate.faultRaised ∧
      (dayTurn e y).gate.fifo = y.gate.fifo ∧ (dayTurn e y).gate.reads = y.gate.reads ∧
      (dayTurn e y).gate.arrivals = y.gate.arrivals ∧ (dayTurn e y).points = y.points ∧
      (dayTurn e y).signs = y.signs ∧ (dayTurn e y).cnt = y.cnt := by
  unfold dayTurn
  split <;> simp

@[simp] theorem minuteChange_frame (e : Env) (a b : Nat) (y : Yard) :
    (minuteChange e a b y).seeking = y.seeking ∧ (minuteChange e a b y).line.following = y.line.following ∧
      (minuteChange e a b y).line.nextOffer = y.line.nextOffer ∧
      (minuteChange e a b y).line.curOffer = y.line.curOffer ∧ (minuteChange e a b y).line.pool = y.line.pool ∧
      (minuteChange e a b y).line.txBits = y.line.txBits ∧
      (minuteChange e a b y).line.checkSlot = y.line.checkSlot ∧ (minuteChange e a b y).line.flags = y.line.flags ∧
      (minuteChange e a b y).line.cnt = y.line.cnt ∧ (minuteChange e a b y).seek.counter = y.seek.counter ∧
      (minuteChange e a b y).seek.given = y.seek.given ∧ (minuteChange e a b y).seek.offers = y.seek.offers ∧
      (minuteChange e a b y).seek.lapsed = y.seek.lapsed ∧ (minuteChange e a b y).seek.taken = y.seek.taken ∧
      (minuteChange e a b y).seek.choice = y.seek.choice ∧ (minuteChange e a b y).seek.freeCount = y.seek.freeCount ∧
      (minuteChange e a b y).saturated = y.saturated ∧ (minuteChange e a b y).fuel = y.fuel ∧
      (minuteChange e a b y).wash = y.wash ∧ (minuteChange e a b y).gate.pollTimer = y.gate.pollTimer ∧
      (minuteChange e a b y).gate.polling = y.gate.polling ∧
      (minuteChange e a b y).gate.busOut = y.gate.busOut ∧ (minuteChange e a b y).gate.busHeld = y.gate.busHeld ∧
      (minuteChange e a b y).gate.failCount = y.gate.failCount ∧
      (minuteChange e a b y).gate.faultRaised = y.gate.faultRaised ∧ (minuteChange e a b y).gate.fifo = y.gate.fifo ∧
      (minuteChange e a b y).gate.reads = y.gate.reads ∧ (minuteChange e a b y).gate.arrivals = y.gate.arrivals ∧
      (minuteChange e a b y).points = y.points ∧ (minuteChange e a b y).signs = y.signs ∧
      (minuteChange e a b y).cnt = y.cnt := by
  unfold minuteChange
  (repeat' split) <;> simp

@[simp] theorem endFaultReseek_frame (e : Env) (n f : Nat) (y : Yard) :
    (endFaultReseek e n f y).seeking = y.seeking ∧ (endFaultReseek e n f y).line = y.line ∧
      (endFaultReseek e n f y).seek.counter = y.seek.counter ∧ (endFaultReseek e n f y).seek.given = y.seek.given ∧
      (endFaultReseek e n f y).seek.offers = y.seek.offers ∧ (endFaultReseek e n f y).seek.lapsed = y.seek.lapsed ∧
      (endFaultReseek e n f y).seek.taken = y.seek.taken ∧ (endFaultReseek e n f y).seek.choice = y.seek.choice ∧
      (endFaultReseek e n f y).seek.freeCount = y.seek.freeCount ∧ (endFaultReseek e n f y).saturated = y.saturated ∧
      (endFaultReseek e n f y).lanes = y.lanes ∧ (endFaultReseek e n f y).fuel = y.fuel ∧
      (endFaultReseek e n f y).wash.lanes = y.wash.lanes ∧ (endFaultReseek e n f y).wash.plant0 = y.wash.plant0 ∧
      (endFaultReseek e n f y).wash.plant1 = y.wash.plant1 ∧ (endFaultReseek e n f y).gate = y.gate ∧
      (endFaultReseek e n f y).points = y.points ∧ (endFaultReseek e n f y).signs = y.signs ∧
      (endFaultReseek e n f y).cnt = y.cnt := by
  simp [endFaultReseek]

@[simp] theorem notifyNoOffer_frame (e : Env) (s : Subject) (y : Yard) :
    (notifyNoOffer e s y).records = y.records ∧ (notifyNoOffer e s y).seeking = y.seeking ∧
      (notifyNoOffer e s y).line = y.line ∧ (notifyNoOffer e s y).seek = y.seek ∧
      (notifyNoOffer e s y).saturated = y.saturated ∧ (notifyNoOffer e s y).lanes = y.lanes ∧
      (notifyNoOffer e s y).fuel = y.fuel ∧ (notifyNoOffer e s y).wash = y.wash ∧
      (notifyNoOffer e s y).gate = y.gate ∧ (notifyNoOffer e s y).points = y.points ∧
      (notifyNoOffer e s y).signs = y.signs ∧ (notifyNoOffer e s y).cnt = y.cnt := by
  unfold notifyNoOffer
  (repeat' split) <;> simp

@[simp] theorem noOffer_frame (e : Env) (n : Nat) (y : Yard) :
    (noOffer e n y).seeking = y.seeking ∧ (noOffer e n y).line.following = y.line.following ∧
      (noOffer e n y).line.nextOffer = y.line.nextOffer ∧ (noOffer e n y).line.curOffer = y.line.curOffer ∧
      (noOffer e n y).line.pool = y.line.pool ∧ (noOffer e n y).line.txBits = y.line.txBits ∧
      (noOffer e n y).line.checkSlot = y.line.checkSlot ∧
      (noOffer e n y).line.cnt = y.line.cnt ∧ (noOffer e n y).seek.counter = y.seek.counter ∧
      (noOffer e n y).seek.given = y.seek.given ∧ (noOffer e n y).seek.offers = y.seek.offers ∧
      (noOffer e n y).seek.lapsed = y.seek.lapsed ∧ (noOffer e n y).seek.taken = y.seek.taken ∧
      (noOffer e n y).seek.choice = y.seek.choice ∧ (noOffer e n y).seek.freeCount = y.seek.freeCount ∧
      (noOffer e n y).saturated = y.saturated ∧ (noOffer e n y).lanes = y.lanes ∧ (noOffer e n y).fuel = y.fuel ∧
      (noOffer e n y).wash.lanes = y.wash.lanes ∧ (noOffer e n y).wash.plant0 = y.wash.plant0 ∧
      (noOffer e n y).wash.plant1 = y.wash.plant1 ∧ (noOffer e n y).gate.pollTimer = y.gate.pollTimer ∧
      (noOffer e n y).gate.polling = y.gate.polling ∧
      (noOffer e n y).gate.busOut = y.gate.busOut ∧ (noOffer e n y).gate.busHeld = y.gate.busHeld ∧
      (noOffer e n y).gate.failCount = y.gate.failCount ∧ (noOffer e n y).gate.faultRaised = y.gate.faultRaised ∧
      (noOffer e n y).gate.fifo = y.gate.fifo ∧ (noOffer e n y).gate.reads = y.gate.reads ∧
      (noOffer e n y).gate.arrivals = y.gate.arrivals ∧ (noOffer e n y).points = y.points ∧
      (noOffer e n y).signs = y.signs ∧ (noOffer e n y).cnt = y.cnt := by
  unfold noOffer
  dsimp only
  (repeat' split) <;> simp

@[simp] theorem pinAttempt_frame (f : Nat) (y : Yard) :
    (pinAttempt f y).seeking = y.seeking ∧ (pinAttempt f y).line = y.line ∧ (pinAttempt f y).seek = y.seek ∧
      (pinAttempt f y).saturated = y.saturated ∧ (pinAttempt f y).lanes = y.lanes ∧ (pinAttempt f y).fuel = y.fuel ∧
      (pinAttempt f y).wash = y.wash ∧ (pinAttempt f y).gate.pollTimer = y.gate.pollTimer ∧
      (pinAttempt f y).gate.polling = y.gate.polling ∧
      (pinAttempt f y).gate.busOut = y.gate.busOut ∧ (pinAttempt f y).gate.busHeld = y.gate.busHeld ∧
      (pinAttempt f y).gate.failCount = y.gate.failCount ∧ (pinAttempt f y).gate.faultRaised = y.gate.faultRaised ∧
      (pinAttempt f y).gate.fifo = y.gate.fifo ∧ (pinAttempt f y).gate.reads = y.gate.reads ∧
      (pinAttempt f y).gate.arrivals = y.gate.arrivals ∧ (pinAttempt f y).points = y.points ∧
      (pinAttempt f y).signs = y.signs ∧ (pinAttempt f y).notices = y.notices ∧ (pinAttempt f y).lost = y.lost ∧
      (pinAttempt f y).cnt = y.cnt := by
  unfold pinAttempt
  (repeat' split) <;> simp

@[simp] theorem resolvePins_frame (e : Env) (n b : Nat) (y : Yard) :
    (resolvePins e n b y).seeking = y.seeking ∧ (resolvePins e n b y).line.following = y.line.following ∧
      (resolvePins e n b y).line.nextOffer = y.line.nextOffer ∧
      (resolvePins e n b y).line.curOffer = y.line.curOffer ∧ (resolvePins e n b y).line.pool = y.line.pool ∧
      (resolvePins e n b y).line.txBits = y.line.txBits ∧
      (resolvePins e n b y).line.checkSlot = y.line.checkSlot ∧ (resolvePins e n b y).line.flags = y.line.flags ∧
      (resolvePins e n b y).line.cnt = y.line.cnt ∧ (resolvePins e n b y).seek.counter = y.seek.counter ∧
      (resolvePins e n b y).seek.given = y.seek.given ∧ (resolvePins e n b y).seek.offers = y.seek.offers ∧
      (resolvePins e n b y).seek.lapsed = y.seek.lapsed ∧ (resolvePins e n b y).seek.taken = y.seek.taken ∧
      (resolvePins e n b y).seek.choice = y.seek.choice ∧ (resolvePins e n b y).seek.freeCount = y.seek.freeCount ∧
      (resolvePins e n b y).saturated = y.saturated ∧ (resolvePins e n b y).lanes = y.lanes ∧
      (resolvePins e n b y).fuel = y.fuel ∧ (resolvePins e n b y).wash = y.wash ∧
      (resolvePins e n b y).gate.pollTimer = y.gate.pollTimer ∧ (resolvePins e n b y).gate.polling = y.gate.polling ∧
      (resolvePins e n b y).gate.busOut = y.gate.busOut ∧
      (resolvePins e n b y).gate.busHeld = y.gate.busHeld ∧ (resolvePins e n b y).gate.failCount = y.gate.failCount ∧
      (resolvePins e n b y).gate.faultRaised = y.gate.faultRaised ∧ (resolvePins e n b y).gate.fifo = y.gate.fifo ∧
      (resolvePins e n b y).gate.reads = y.gate.reads ∧ (resolvePins e n b y).gate.arrivals = y.gate.arrivals ∧
      (resolvePins e n b y).points = y.points ∧ (resolvePins e n b y).signs = y.signs ∧
      (resolvePins e n b y).cnt = y.cnt := by
  unfold resolvePins
  dsimp only
  split
  · simp
  · cases y.pairedDuty b <;> cases y.pinnedFleet n <;> dsimp only <;> (try split) <;> simp

@[simp] theorem fifoStep_frame (e : Env) (y : Yard) :
    (fifoStep e y).line = y.line ∧ (fifoStep e y).seek = y.seek ∧ (fifoStep e y).saturated = y.saturated ∧
      (fifoStep e y).lanes = y.lanes ∧ (fifoStep e y).fuel = y.fuel ∧ (fifoStep e y).wash = y.wash ∧
      (fifoStep e y).gate.pollTimer = y.gate.pollTimer ∧ (fifoStep e y).gate.polling = y.gate.polling ∧
      (fifoStep e y).gate.busOut = y.gate.busOut ∧
      (fifoStep e y).gate.busHeld = y.gate.busHeld ∧ (fifoStep e y).gate.failCount = y.gate.failCount ∧
      (fifoStep e y).gate.faultRaised = y.gate.faultRaised ∧ (fifoStep e y).gate.reads = y.gate.reads ∧
      (fifoStep e y).gate.arrivals = y.gate.arrivals ∧ (fifoStep e y).points = y.points ∧
      (fifoStep e y).signs = y.signs ∧ (fifoStep e y).notices = y.notices ∧ (fifoStep e y).lost = y.lost := by
  unfold fifoStep
  (repeat' split) <;> simp

@[simp] theorem fifoTimes_frame (e : Env) (n : Nat) (y : Yard) :
    (fifoTimes e n y).line = y.line ∧ (fifoTimes e n y).seek = y.seek ∧ (fifoTimes e n y).saturated = y.saturated ∧
      (fifoTimes e n y).lanes = y.lanes ∧ (fifoTimes e n y).fuel = y.fuel ∧ (fifoTimes e n y).wash = y.wash ∧
      (fifoTimes e n y).gate.pollTimer = y.gate.pollTimer ∧ (fifoTimes e n y).gate.polling = y.gate.polling ∧
      (fifoTimes e n y).gate.busOut = y.gate.busOut ∧
      (fifoTimes e n y).gate.busHeld = y.gate.busHeld ∧ (fifoTimes e n y).gate.failCount = y.gate.failCount ∧
      (fifoTimes e n y).gate.faultRaised = y.gate.faultRaised ∧ (fifoTimes e n y).gate.reads = y.gate.reads ∧
      (fifoTimes e n y).gate.arrivals = y.gate.arrivals ∧ (fifoTimes e n y).points = y.points ∧
      (fifoTimes e n y).signs = y.signs ∧ (fifoTimes e n y).notices = y.notices ∧
      (fifoTimes e n y).lost = y.lost := by
  induction n generalizing y with
  | zero => simp [fifoTimes]
  | succ n ih => simp [fifoTimes, ih]

@[simp] theorem settle_frame (e : Env) (y : Yard) :
    (settle e y).line.following = y.line.following ∧ (settle e y).line.nextOffer = y.line.nextOffer ∧
      (settle e y).line.curOffer = y.line.curOffer ∧ (settle e y).line.pool = y.line.pool ∧
      (settle e y).line.txBits = y.line.txBits ∧
      (settle e y).line.checkSlot = y.line.checkSlot ∧ (settle e y).line.flags = y.line.flags ∧
      (settle e y).line.cnt = y.line.cnt ∧ (settle e y).seek.offers = y.seek.offers ∧
      (settle e y).seek.lapsed = y.seek.lapsed ∧ (settle e y).seek.taken = y.seek.taken ∧
      (settle e y).seek.choice = y.seek.choice ∧ (settle e y).seek.freeCount = y.seek.freeCount ∧
      (settle e y).saturated = y.saturated ∧ (settle e y).lanes = y.lanes ∧ (settle e y).fuel = y.fuel ∧
      (settle e y).wash = y.wash ∧ (settle e y).gate.pollTimer = y.gate.pollTimer ∧
      (settle e y).gate.polling = y.gate.polling ∧
      (settle e y).gate.busOut = y.gate.busOut ∧ (settle e y).gate.busHeld = y.gate.busHeld ∧
      (settle e y).gate.failCount = y.gate.failCount ∧ (settle e y).gate.faultRaised = y.gate.faultRaised ∧
      (settle e y).gate.reads = y.gate.reads ∧ (settle e y).gate.arrivals = y.gate.arrivals ∧
      (settle e y).points = y.points ∧ (settle e y).signs = y.signs ∧ (settle e y).notices = y.notices ∧
      (settle e y).lost = y.lost := by
  simp [settle]

@[simp] theorem goodTag_frame (e : Env) (b : BusFields) (y : Yard) :
    (goodTag e b y).line.following = y.line.following ∧ (goodTag e b y).line.nextOffer = y.line.nextOffer ∧
      (goodTag e b y).line.curOffer = y.line.curOffer ∧ (goodTag e b y).line.pool = y.line.pool ∧
      (goodTag e b y).line.txBits = y.line.txBits ∧
      (goodTag e b y).line.checkSlot = y.line.checkSlot ∧ (goodTag e b y).line.flags = y.line.flags ∧
      (goodTag e b y).line.cnt = y.line.cnt ∧ (goodTag e b y).seek.offers = y.seek.offers ∧
      (goodTag e b y).seek.lapsed = y.seek.lapsed ∧ (goodTag e b y).seek.taken = y.seek.taken ∧
      (goodTag e b y).seek.choice = y.seek.choice ∧ (goodTag e b y).seek.freeCount = y.seek.freeCount ∧
      (goodTag e b y).saturated = y.saturated ∧ (goodTag e b y).lanes = y.lanes ∧ (goodTag e b y).fuel = y.fuel ∧
      (goodTag e b y).wash = y.wash ∧ (goodTag e b y).gate.pollTimer = y.gate.pollTimer ∧
      (goodTag e b y).gate.polling = y.gate.polling ∧
      (goodTag e b y).gate.busOut = y.gate.busOut ∧ (goodTag e b y).gate.busHeld = y.gate.busHeld ∧
      (goodTag e b y).gate.failCount = y.gate.failCount ∧ (goodTag e b y).gate.faultRaised = y.gate.faultRaised ∧
      (goodTag e b y).points = y.points ∧ (goodTag e b y).signs = y.signs := by
  unfold goodTag
  (repeat' split) <;> simp

/-! ## The fuel unit -/

@[simp] theorem setPump_frame (e : Env) (p : Nat) (f : Pump → Pump) (y : Yard) :
    (setPump e p f y).records = y.records ∧ (setPump e p f y).seeking = y.seeking ∧ (setPump e p f y).line = y.line ∧
      (setPump e p f y).seek = y.seek ∧ (setPump e p f y).saturated = y.saturated ∧
      (setPump e p f y).lanes = y.lanes ∧ (setPump e p f y).fuel.queue = y.fuel.queue ∧
      (setPump e p f y).fuel.reservs = y.fuel.reservs ∧ (setPump e p f y).fuel.diesel = y.fuel.diesel ∧
      (setPump e p f y).fuel.gas = y.fuel.gas ∧ (setPump e p f y).fuel.aging = y.fuel.aging ∧
      (setPump e p f y).wash = y.wash ∧ (setPump e p f y).gate = y.gate ∧ (setPump e p f y).points = y.points ∧
      (setPump e p f y).notices = y.notices ∧ (setPump e p f y).lost = y.lost ∧ (setPump e p f y).cnt = y.cnt := by
  unfold setPump
  dsimp only
  split <;> simp

@[simp] theorem setAccount_frame (u : FuelUnit) (f : Fuel) (a : Stock) :
    (u.setAccount f a).pumps = u.pumps ∧ (u.setAccount f a).queue = u.queue ∧ (u.setAccount f a).reservs = u.reservs
      ∧ (u.setAccount f a).aging = u.aging := by
  cases f <;> simp [FuelUnit.setAccount]

@[simp] theorem checkLow_frame (e : Env) (f : Fuel) (y : Yard) :
    (checkLow e f y).records = y.records ∧ (checkLow e f y).seeking = y.seeking ∧ (checkLow e f y).line = y.line ∧
      (checkLow e f y).seek = y.seek ∧ (checkLow e f y).saturated = y.saturated ∧ (checkLow e f y).lanes = y.lanes ∧
      (checkLow e f y).fuel.pumps = y.fuel.pumps ∧ (checkLow e f y).fuel.queue = y.fuel.queue ∧
      (checkLow e f y).fuel.reservs = y.fuel.reservs ∧ (checkLow e f y).fuel.aging = y.fuel.aging ∧
      (checkLow e f y).wash = y.wash ∧ (checkLow e f y).gate = y.gate ∧ (checkLow e f y).points = y.points ∧
      (checkLow e f y).signs = y.signs ∧ (checkLow e f y).cnt = y.cnt := by
  unfold checkLow
  dsimp only
  split <;> simp

@[simp] theorem chargeStock_frame (e : Env) (f : Fuel) (d : Nat) (y : Yard) :
    (chargeStock e f d y).records = y.records ∧ (chargeStock e f d y).seeking = y.seeking ∧
      (chargeStock e f d y).line = y.line ∧ (chargeStock e f d y).seek = y.seek ∧
      (chargeStock e f d y).saturated = y.saturated ∧ (chargeStock e f d y).lanes = y.lanes ∧
      (chargeStock e f d y).fuel.pumps = y.fuel.pumps ∧ (chargeStock e f d y).fuel.queue = y.fuel.queue ∧
      (chargeStock e f d y).fuel.reservs = y.fuel.reservs ∧ (chargeStock e f d y).fuel.aging = y.fuel.aging ∧
      (chargeStock e f d y).wash = y.wash ∧ (chargeStock e f d y).gate = y.gate ∧
      (chargeStock e f d y).points = y.points ∧ (chargeStock e f d y).signs = y.signs ∧
      (chargeStock e f d y).cnt = y.cnt := by
  unfold chargeStock
  dsimp only
  split <;> simp

@[simp] theorem apronCommit_frame (ref : SeekRef) (fl : Nat) (f : Fuel) (late : Bool) (y : Yard) :
    (apronCommit ref fl f late y).records = y.records ∧ (apronCommit ref fl f late y).seeking = y.seeking ∧
      (apronCommit ref fl f late y).line = y.line ∧ (apronCommit ref fl f late y).seek = y.seek ∧
      (apronCommit ref fl f late y).saturated = y.saturated ∧ (apronCommit ref fl f late y).lanes = y.lanes ∧
      (apronCommit ref fl f late y).fuel.pumps = y.fuel.pumps ∧
      (apronCommit ref fl f late y).fuel.queue = y.fuel.queue ∧
      (apronCommit ref fl f late y).fuel.diesel = y.fuel.diesel ∧
      (apronCommit ref fl f late y).fuel.gas = y.fuel.gas ∧ (apronCommit ref fl f late y).fuel.aging = y.fuel.aging ∧
      (apronCommit ref fl f late y).wash = y.wash ∧ (apronCommit ref fl f late y).gate = y.gate ∧
      (apronCommit ref fl f late y).points = y.points ∧ (apronCommit ref fl f late y).signs = y.signs ∧
      (apronCommit ref fl f late y).notices = y.notices ∧ (apronCommit ref fl f late y).lost = y.lost ∧
      (apronCommit ref fl f late y).cnt = y.cnt := by
  unfold apronCommit enterApron
  split <;> simp

@[simp] theorem deferHead_frame (e : Env) (en : ApronEntry) (t : Nat) (y : Yard) :
    (deferHead e en t y).line = y.line ∧ (deferHead e en t y).seek = y.seek ∧
      (deferHead e en t y).saturated = y.saturated ∧ (deferHead e en t y).lanes = y.lanes ∧
      (deferHead e en t y).fuel.pumps = y.fuel.pumps ∧ (deferHead e en t y).fuel.reservs = y.fuel.reservs ∧
      (deferHead e en t y).fuel.diesel = y.fuel.diesel ∧ (deferHead e en t y).fuel.gas = y.fuel.gas ∧
      (deferHead e en t y).fuel.aging = y.fuel.aging ∧ (deferHead e en t y).wash = y.wash ∧
      (deferHead e en t y).gate = y.gate ∧ (deferHead e en t y).points = y.points ∧
      (deferHead e en t y).signs = y.signs ∧ (deferHead e en t y).cnt = y.cnt := by
  simp [deferHead]

@[simp] theorem callHead_frame (e : Env) (p : Pump) (en : ApronEntry) (t : Nat) (y : Yard) :
    (callHead e p en t y).seeking = y.seeking ∧ (callHead e p en t y).line = y.line ∧
      (callHead e p en t y).seek = y.seek ∧ (callHead e p en t y).saturated = y.saturated ∧
      (callHead e p en t y).lanes = y.lanes ∧ (callHead e p en t y).fuel.reservs = y.fuel.reservs ∧
      (callHead e p en t y).fuel.diesel = y.fuel.diesel ∧ (callHead e p en t y).fuel.gas = y.fuel.gas ∧
      (callHead e p en t y).fuel.aging = y.fuel.aging ∧ (callHead e p en t y).wash = y.wash ∧
      (callHead e p en t y).gate = y.gate ∧ (callHead e p en t y).points = y.points ∧
      (callHead e p en t y).notices = y.notices ∧ (callHead e p en t y).lost = y.lost ∧
      (callHead e p en t y).cnt = y.cnt := by
  simp [callHead]

@[simp] theorem lookOnce_frame (e : Env) (y : Yard) :
    (lookOnce e y).line = y.line ∧ (lookOnce e y).seek = y.seek ∧ (lookOnce e y).saturated = y.saturated ∧
      (lookOnce e y).lanes = y.lanes ∧ (lookOnce e y).fuel.reservs = y.fuel.reservs ∧
      (lookOnce e y).fuel.diesel = y.fuel.diesel ∧ (lookOnce e y).fuel.gas = y.fuel.gas ∧
      (lookOnce e y).fuel.aging = y.fuel.aging ∧ (lookOnce e y).wash = y.wash ∧ (lookOnce e y).gate = y.gate ∧
      (lookOnce e y).points = y.points ∧ (lookOnce e y).cnt = y.cnt := by
  unfold lookOnce
  (repeat' split) <;> simp

@[simp] theorem lookTimes_frame (e : Env) (n : Nat) (y : Yard) :
    (lookTimes e n y).line = y.line ∧ (lookTimes e n y).seek = y.seek ∧ (lookTimes e n y).saturated = y.saturated ∧
      (lookTimes e n y).lanes = y.lanes ∧ (lookTimes e n y).fuel.reservs = y.fuel.reservs ∧
      (lookTimes e n y).fuel.diesel = y.fuel.diesel ∧ (lookTimes e n y).fuel.gas = y.fuel.gas ∧
      (lookTimes e n y).fuel.aging = y.fuel.aging ∧ (lookTimes e n y).wash = y.wash ∧
      (lookTimes e n y).gate = y.gate ∧ (lookTimes e n y).points = y.points ∧ (lookTimes e n y).cnt = y.cnt := by
  induction n generalizing y with
  | zero => simp [lookTimes]
  | succ n ih => simp [lookTimes, ih]

@[simp] theorem lookForHeads_frame (e : Env) (y : Yard) :
    (lookForHeads e y).line = y.line ∧ (lookForHeads e y).seek = y.seek ∧
      (lookForHeads e y).saturated = y.saturated ∧ (lookForHeads e y).lanes = y.lanes ∧
      (lookForHeads e y).fuel.reservs = y.fuel.reservs ∧ (lookForHeads e y).fuel.diesel = y.fuel.diesel ∧
      (lookForHeads e y).fuel.gas = y.fuel.gas ∧ (lookForHeads e y).fuel.aging = y.fuel.aging ∧
      (lookForHeads e y).wash = y.wash ∧ (lookForHeads e y).gate = y.gate ∧ (lookForHeads e y).points = y.points ∧
      (lookForHeads e y).cnt = y.cnt := by
  simp [lookForHeads]

@[simp] theorem freePump_frame (e : Env) (p : Nat) (y : Yard) :
    (freePump e p y).records = y.records ∧ (freePump e p y).seeking = y.seeking ∧ (freePump e p y).line = y.line ∧
      (freePump e p y).seek = y.seek ∧ (freePump e p y).saturated = y.saturated ∧ (freePump e p y).lanes = y.lanes ∧
      (freePump e p y).fuel.queue = y.fuel.queue ∧ (freePump e p y).fuel.reservs = y.fuel.reservs ∧
      (freePump e p y).fuel.diesel = y.fuel.diesel ∧ (freePump e p y).fuel.gas = y.fuel.gas ∧
      (freePump e p y).fuel.aging = y.fuel.aging ∧ (freePump e p y).wash = y.wash ∧ (freePump e p y).gate = y.gate ∧
      (freePump e p y).points = y.points ∧ (freePump e p y).notices = y.notices ∧ (freePump e p y).lost = y.lost ∧
      (freePump e p y).cnt = y.cnt := by
  simp [freePump]

@[simp] theorem endTurnRec_frame (q : Pump) (t : Turn) (d : Nat) (m : FuelMark) (y : Yard) :
    (endTurnRec q t d m y).line = y.line ∧ (endTurnRec q t d m y).seek = y.seek ∧
      (endTurnRec q t d m y).saturated = y.saturated ∧ (endTurnRec q t d m y).lanes = y.lanes ∧
      (endTurnRec q t d m y).fuel = y.fuel ∧ (endTurnRec q t d m y).wash = y.wash ∧
      (endTurnRec q t d m y).gate = y.gate ∧ (endTurnRec q t d m y).points = y.points ∧
      (endTurnRec q t d m y).signs = y.signs ∧ (endTurnRec q t d m y).notices = y.notices ∧
      (endTurnRec q t d m y).lost = y.lost ∧ (endTurnRec q t d m y).cnt = y.cnt := by
  unfold endTurnRec
  (repeat' split) <;> simp

@[simp] theorem endTurn_frame (e : Env) (q : Pump) (t : Turn) (d : Nat) (y : Yard) :
    (endTurn e q t d y).line = y.line ∧ (endTurn e q t d y).seek = y.seek ∧
      (endTurn e q t d y).saturated = y.saturated ∧ (endTurn e q t d y).lanes = y.lanes ∧
      (endTurn e q t d y).fuel.pumps = y.fuel.pumps ∧ (endTurn e q t d y).fuel.queue = y.fuel.queue ∧
      (endTurn e q t d y).fuel.reservs = y.fuel.reservs ∧ (endTurn e q t d y).fuel.aging = y.fuel.aging ∧
      (endTurn e q t d y).wash = y.wash ∧ (endTurn e q t d y).gate = y.gate ∧ (endTurn e q t d y).points = y.points ∧
      (endTurn e q t d y).signs = y.signs ∧ (endTurn e q t d y).cnt = y.cnt := by
  simp [endTurn]

@[simp] theorem seekingFold_frame  (l : List Nat) (y : Yard) :
    (l.foldl (fun y g => enterSeeking g y) y).line = y.line ∧
      (l.foldl (fun y g => enterSeeking g y) y).seek = y.seek ∧
      (l.foldl (fun y g => enterSeeking g y) y).saturated = y.saturated ∧
      (l.foldl (fun y g => enterSeeking g y) y).lanes = y.lanes ∧
      (l.foldl (fun y g => enterSeeking g y) y).fuel = y.fuel ∧
      (l.foldl (fun y g => enterSeeking g y) y).wash = y.wash ∧
      (l.foldl (fun y g => enterSeeking g y) y).gate = y.gate ∧
      (l.foldl (fun y g => enterSeeking g y) y).points = y.points ∧
      (l.foldl (fun y g => enterSeeking g y) y).signs = y.signs ∧
      (l.foldl (fun y g => enterSeeking g y) y).notices = y.notices ∧
      (l.foldl (fun y g => enterSeeking g y) y).lost = y.lost ∧
      (l.foldl (fun y g => enterSeeking g y) y).cnt = y.cnt := by
  induction l generalizing y with
  | nil => simp
  | cons n l ih => simp [ih]

@[simp] theorem pumpOut_frame (f : Fuel) (y : Yard) :
    (pumpOut f y).line = y.line ∧ (pumpOut f y).seek = y.seek ∧ (pumpOut f y).saturated = y.saturated ∧
      (pumpOut f y).lanes = y.lanes ∧ (pumpOut f y).fuel.pumps = y.fuel.pumps ∧
      (pumpOut f y).fuel.reservs = y.fuel.reservs ∧ (pumpOut f y).fuel.diesel = y.fuel.diesel ∧
      (pumpOut f y).fuel.gas = y.fuel.gas ∧ (pumpOut f y).fuel.aging = y.fuel.aging ∧ (pumpOut f y).wash = y.wash ∧
      (pumpOut f y).gate = y.gate ∧ (pumpOut f y).points = y.points ∧ (pumpOut f y).signs = y.signs ∧
      (pumpOut f y).notices = y.notices ∧ (pumpOut f y).lost = y.lost ∧ (pumpOut f y).cnt = y.cnt := by
  unfold pumpOut
  dsimp only
  split <;> simp

@[simp] theorem checkAdrift_frame (e : Env) (f : Nat) (loc : Loc) (r : NoticeRes) (y : Yard) :
    (checkAdrift e f loc r y).line.following = y.line.following ∧
      (checkAdrift e f loc r y).line.nextOffer = y.line.nextOffer ∧
      (checkAdrift e f loc r y).line.curOffer = y.line.curOffer ∧ (checkAdrift e f loc r y).line.pool = y.line.pool ∧
      (checkAdrift e f loc r y).line.txBits = y.line.txBits ∧
      (checkAdrift e f loc r y).line.checkSlot = y.line.checkSlot ∧
      (checkAdrift e f loc r y).line.flags = y.line.flags ∧
      (checkAdrift e f loc r y).line.cnt = y.line.cnt ∧ (checkAdrift e f loc r y).seek.counter = y.seek.counter ∧
      (checkAdrift e f loc r y).seek.given = y.seek.given ∧ (checkAdrift e f loc r y).seek.offers = y.seek.offers ∧
      (checkAdrift e f loc r y).seek.lapsed = y.seek.lapsed ∧ (checkAdrift e f loc r y).seek.taken = y.seek.taken ∧
      (checkAdrift e f loc r y).seek.choice = y.seek.choice ∧
      (checkAdrift e f loc r y).seek.freeCount = y.seek.freeCount ∧
      (checkAdrift e f loc r y).saturated = y.saturated ∧ (checkAdrift e f loc r y).lanes = y.lanes ∧
      (checkAdrift e f loc r y).fuel = y.fuel ∧ (checkAdrift e f loc r y).wash.lanes = y.wash.lanes ∧
      (checkAdrift e f loc r y).wash.plant0 = y.wash.plant0 ∧ (checkAdrift e f loc r y).wash.plant1 = y.wash.plant1 ∧
      (checkAdrift e f loc r y).gate = y.gate ∧ (checkAdrift e f loc r y).points = y.points ∧
      (checkAdrift e f loc r y).signs = y.signs ∧ (checkAdrift e f loc r y).cnt = y.cnt := by
  unfold checkAdrift
  (repeat' split) <;> simp

@[simp] theorem bayClear_frame (e : Env) (p : Nat) (y : Yard) :
    (bayClear e p y).line.following = y.line.following ∧ (bayClear e p y).line.nextOffer = y.line.nextOffer ∧
      (bayClear e p y).line.curOffer = y.line.curOffer ∧ (bayClear e p y).line.pool = y.line.pool ∧
      (bayClear e p y).line.txBits = y.line.txBits ∧
      (bayClear e p y).line.checkSlot = y.line.checkSlot ∧ (bayClear e p y).line.flags = y.line.flags ∧
      (bayClear e p y).line.cnt = y.line.cnt ∧ (bayClear e p y).seek.offers = y.seek.offers ∧
      (bayClear e p y).seek.lapsed = y.seek.lapsed ∧ (bayClear e p y).seek.taken = y.seek.taken ∧
      (bayClear e p y).seek.choice = y.seek.choice ∧ (bayClear e p y).seek.freeCount = y.seek.freeCount ∧
      (bayClear e p y).saturated = y.saturated ∧ (bayClear e p y).lanes = y.lanes ∧
      (bayClear e p y).fuel.reservs = y.fuel.reservs ∧ (bayClear e p y).fuel.aging = y.fuel.aging ∧
      (bayClear e p y).wash.lanes = y.wash.lanes ∧ (bayClear e p y).wash.plant0 = y.wash.plant0 ∧
      (bayClear e p y).wash.plant1 = y.wash.plant1 ∧ (bayClear e p y).gate.pollTimer = y.gate.pollTimer ∧
      (bayClear e p y).gate.polling = y.gate.polling ∧
      (bayClear e p y).gate.busOut = y.gate.busOut ∧ (bayClear e p y).gate.busHeld = y.gate.busHeld ∧
      (bayClear e p y).gate.failCount = y.gate.failCount ∧ (bayClear e p y).gate.faultRaised = y.gate.faultRaised ∧
      (bayClear e p y).gate.reads = y.gate.reads ∧ (bayClear e p y).gate.arrivals = y.gate.arrivals ∧
      (bayClear e p y).points = y.points := by
  unfold bayClear
  (repeat' split) <;> simp

@[simp] theorem bayArrive_frame (e : Env) (p : Nat) (y : Yard) :
    (bayArrive e p y).seeking = y.seeking ∧ (bayArrive e p y).line = y.line ∧ (bayArrive e p y).seek = y.seek ∧
      (bayArrive e p y).saturated = y.saturated ∧ (bayArrive e p y).lanes = y.lanes ∧
      (bayArrive e p y).fuel.queue = y.fuel.queue ∧ (bayArrive e p y).fuel.reservs = y.fuel.reservs ∧
      (bayArrive e p y).fuel.diesel = y.fuel.diesel ∧ (bayArrive e p y).fuel.gas = y.fuel.gas ∧
      (bayArrive e p y).fuel.aging = y.fuel.aging ∧ (bayArrive e p y).wash = y.wash ∧
      (bayArrive e p y).gate = y.gate ∧ (bayArrive e p y).points = y.points ∧ (bayArrive e p y).cnt = y.cnt := by
  unfold bayArrive
  (repeat' split) <;> simp

@[simp] theorem apronArrival_frame (e : Env) (f : Nat) (y : Yard) :
    (apronArrival e f y).line.following = y.line.following ∧ (apronArrival e f y).line.nextOffer = y.line.nextOffer ∧
      (apronArrival e f y).line.curOffer = y.line.curOffer ∧ (apronArrival e f y).line.pool = y.line.pool ∧
      (apronArrival e f y).line.txBits = y.line.txBits ∧
      (apronArrival e f y).line.checkSlot = y.line.checkSlot ∧ (apronArrival e f y).line.flags = y.line.flags ∧
      (apronArrival e f y).line.cnt = y.line.cnt ∧ (apronArrival e f y).seek.offers = y.seek.offers ∧
      (apronArrival e f y).seek.lapsed = y.seek.lapsed ∧ (apronArrival e f y).seek.taken = y.seek.taken ∧
      (apronArrival e f y).seek.choice = y.seek.choice ∧ (apronArrival e f y).seek.freeCount = y.seek.freeCount ∧
      (apronArrival e f y).saturated = y.saturated ∧ (apronArrival e f y).lanes = y.lanes ∧
      (apronArrival e f y).fuel.diesel = y.fuel.diesel ∧ (apronArrival e f y).fuel.gas = y.fuel.gas ∧
      (apronArrival e f y).fuel.aging = y.fuel.aging ∧ (apronArrival e f y).wash = y.wash ∧
      (apronArrival e f y).gate.pollTimer = y.gate.pollTimer ∧ (apronArrival e f y).gate.polling = y.gate.polling ∧
      (apronArrival e f y).gate.busOut = y.gate.busOut ∧
      (apronArrival e f y).gate.busHeld = y.gate.busHeld ∧ (apronArrival e f y).gate.failCount = y.gate.failCount ∧
      (apronArrival e f y).gate.faultRaised = y.gate.faultRaised ∧ (apronArrival e f y).gate.reads = y.gate.reads ∧
      (apronArrival e f y).gate.arrivals = y.gate.arrivals ∧ (apronArrival e f y).points = y.points := by
  unfold apronArrival
  dsimp only
  (repeat' split) <;> simp

@[simp] theorem apronIntruder_frame (e : Env) (y : Yard) :
    (apronIntruder e y).records = y.records ∧ (apronIntruder e y).seeking = y.seeking ∧
      (apronIntruder e y).line = y.line ∧ (apronIntruder e y).seek = y.seek ∧
      (apronIntruder e y).saturated = y.saturated ∧ (apronIntruder e y).lanes = y.lanes ∧
      (apronIntruder e y).fuel = y.fuel ∧ (apronIntruder e y).wash = y.wash ∧ (apronIntruder e y).gate = y.gate ∧
      (apronIntruder e y).points = y.points ∧ (apronIntruder e y).signs = y.signs ∧
      (apronIntruder e y).cnt = y.cnt := by
  simp [apronIntruder]

/-! ## The wash unit -/

@[simp] theorem setWash_frame (e : Env) (w : Nat) (f : WashLane → WashLane) (y : Yard) :
    (setWash e w f y).records = y.records ∧ (setWash e w f y).seeking = y.seeking ∧ (setWash e w f y).line = y.line ∧
      (setWash e w f y).seek = y.seek ∧ (setWash e w f y).saturated = y.saturated ∧
      (setWash e w f y).lanes = y.lanes ∧ (setWash e w f y).fuel = y.fuel ∧
      (setWash e w f y).wash.faultList = y.wash.faultList ∧ (setWash e w f y).wash.plant0 = y.wash.plant0 ∧
      (setWash e w f y).wash.plant1 = y.wash.plant1 ∧ (setWash e w f y).gate = y.gate ∧
      (setWash e w f y).points = y.points ∧ (setWash e w f y).notices = y.notices ∧ (setWash e w f y).lost = y.lost ∧
      (setWash e w f y).cnt = y.cnt := by
  unfold setWash
  dsimp only
  split <;> simp

@[simp] theorem endWash_frame (w f : Nat) (m : WashMark) (y : Yard) :
    (endWash w f m y).line = y.line ∧ (endWash w f m y).seek = y.seek ∧ (endWash w f m y).saturated = y.saturated ∧
      (endWash w f m y).lanes = y.lanes ∧ (endWash w f m y).fuel = y.fuel ∧ (endWash w f m y).wash = y.wash ∧
      (endWash w f m y).gate = y.gate ∧ (endWash w f m y).points = y.points ∧ (endWash w f m y).signs = y.signs ∧
      (endWash w f m y).notices = y.notices ∧ (endWash w f m y).lost = y.lost ∧ (endWash w f m y).cnt = y.cnt := by
  unfold endWash
  (repeat' split) <;> simp

@[simp] theorem skipHead_frame (e : Env) (w : Nat) (en : WashEntry) (y : Yard) :
    (skipHead e w en y).line = y.line ∧ (skipHead e w en y).seek = y.seek ∧
      (skipHead e w en y).saturated = y.saturated ∧ (skipHead e w en y).lanes = y.lanes ∧
      (skipHead e w en y).fuel = y.fuel ∧ (skipHead e w en y).wash.faultList = y.wash.faultList ∧
      (skipHead e w en y).wash.plant0 = y.wash.plant0 ∧ (skipHead e w en y).wash.plant1 = y.wash.plant1 ∧
      (skipHead e w en y).gate = y.gate ∧ (skipHead e w en y).cnt = y.cnt := by
  simp [skipHead]

@[simp] theorem callWashHead_frame (e : Env) (w : Nat) (en : WashEntry) (p : Prog) (y : Yard) :
    (callWashHead e w en p y).seeking = y.seeking ∧ (callWashHead e w en p y).line = y.line ∧
      (callWashHead e w en p y).seek = y.seek ∧ (callWashHead e w en p y).saturated = y.saturated ∧
      (callWashHead e w en p y).lanes = y.lanes ∧ (callWashHead e w en p y).fuel = y.fuel ∧
      (callWashHead e w en p y).wash.faultList = y.wash.faultList ∧
      (callWashHead e w en p y).wash.plant0 = y.wash.plant0 ∧ (callWashHead e w en p y).wash.plant1 = y.wash.plant1 ∧
      (callWashHead e w en p y).gate = y.gate ∧ (callWashHead e w en p y).points = y.points ∧
      (callWashHead e w en p y).notices = y.notices ∧ (callWashHead e w en p y).lost = y.lost ∧
      (callWashHead e w en p y).cnt = y.cnt := by
  simp [callWashHead]

@[simp] theorem washCallOnce_frame (e : Env) (w : Nat) (y : Yard) :
    (washCallOnce e w y).line = y.line ∧ (washCallOnce e w y).seek = y.seek ∧
      (washCallOnce e w y).saturated = y.saturated ∧ (washCallOnce e w y).lanes = y.lanes ∧
      (washCallOnce e w y).fuel = y.fuel ∧ (washCallOnce e w y).wash.faultList = y.wash.faultList ∧
      (washCallOnce e w y).wash.plant0 = y.wash.plant0 ∧ (washCallOnce e w y).wash.plant1 = y.wash.plant1 ∧
      (washCallOnce e w y).gate = y.gate ∧ (washCallOnce e w y).cnt = y.cnt := by
  unfold washCallOnce
  (repeat' split) <;> simp

@[simp] theorem washCallTimes_frame (e : Env) (w n : Nat) (y : Yard) :
    (washCallTimes e w n y).line = y.line ∧ (washCallTimes e w n y).seek = y.seek ∧
      (washCallTimes e w n y).saturated = y.saturated ∧ (washCallTimes e w n y).lanes = y.lanes ∧
      (washCallTimes e w n y).fuel = y.fuel ∧ (washCallTimes e w n y).wash.faultList = y.wash.faultList ∧
      (washCallTimes e w n y).wash.plant0 = y.wash.plant0 ∧ (washCallTimes e w n y).wash.plant1 = y.wash.plant1 ∧
      (washCallTimes e w n y).gate = y.gate ∧ (washCallTimes e w n y).cnt = y.cnt := by
  induction n generalizing y with
  | zero => simp [washCallTimes]
  | succ n ih => simp [washCallTimes, ih]

@[simp] theorem washCall_frame (e : Env) (w : Nat) (y : Yard) :
    (washCall e w y).line = y.line ∧ (washCall e w y).seek = y.seek ∧ (washCall e w y).saturated = y.saturated ∧
      (washCall e w y).lanes = y.lanes ∧ (washCall e w y).fuel = y.fuel ∧
      (washCall e w y).wash.faultList = y.wash.faultList ∧ (washCall e w y).wash.plant0 = y.wash.plant0 ∧
      (washCall e w y).wash.plant1 = y.wash.plant1 ∧ (washCall e w y).gate = y.gate ∧
      (washCall e w y).cnt = y.cnt := by
  simp [washCall]

/-- A yard whose parts other than the points and the signs are those of y. -/
theorem frame_points_signs (y y' : Yard) (h : y'.records = y.records ∧ y'.seeking = y.seeking ∧ y'.line = y.line
    ∧ y'.seek = y.seek ∧ y'.saturated = y.saturated ∧ y'.lanes = y.lanes ∧ y'.fuel = y.fuel ∧ y'.wash = y.wash
    ∧ y'.gate = y.gate ∧ y'.notices = y.notices ∧ y'.lost = y.lost ∧ y'.cnt = y.cnt) :
    y' = { y with points := y'.points, signs := y'.signs } := by
  obtain ⟨h1, h2, h3, h4, h5, h6, h7, h8, h9, h10, h11, h12⟩ := h
  cases y'
  cases y
  simp_all

/-- What a push of an expectation leaves as it was. -/
theorem pushExpect_frame {e : Env} {k : PointKind} {i f : Nat} {t : Bool} {y y' : Yard}
    (h : pushExpect e k i f t y = some y') :
    y' = { y with points := y'.points, signs := y'.signs } := by
  unfold pushExpect at h
  split at h
  · simp at h
  · split at h
    · simp at h
    · simp only [Option.some.injEq] at h
      subst h
      exact frame_points_signs _ _ (by simp)

theorem pushHandedOn_frame {e : Env} {v f : Nat} {y y' : Yard} (h : pushHandedOn e v f y = some y') :
    y' = { y with points := y'.points, signs := y'.signs } := by
  unfold pushHandedOn at h
  split at h
  · exact pushExpect_frame h
  · simp at h

@[simp] theorem handOnEntry_frame (e : Env) (w : Nat) (en : WashEntry) (y : Yard) :
    (handOnEntry e w en y).line = y.line ∧ (handOnEntry e w en y).seek = y.seek ∧
      (handOnEntry e w en y).saturated = y.saturated ∧ (handOnEntry e w en y).lanes = y.lanes ∧
      (handOnEntry e w en y).fuel = y.fuel ∧ (handOnEntry e w en y).wash.plant0 = y.wash.plant0 ∧
      (handOnEntry e w en y).wash.plant1 = y.wash.plant1 ∧ (handOnEntry e w en y).gate = y.gate ∧
      (handOnEntry e w en y).cnt = y.cnt := by
  unfold handOnEntry
  dsimp only
  split
  · next h => rw [pushHandedOn_frame h]; simp
  · simp

@[simp] theorem handOnFold_frame (e : Env) (w : Nat) (l : List WashEntry) (y : Yard) :
    (l.foldl (fun y en => handOnEntry e w en y) y).line = y.line ∧
      (l.foldl (fun y en => handOnEntry e w en y) y).seek = y.seek ∧
      (l.foldl (fun y en => handOnEntry e w en y) y).saturated = y.saturated ∧
      (l.foldl (fun y en => handOnEntry e w en y) y).lanes = y.lanes ∧
      (l.foldl (fun y en => handOnEntry e w en y) y).fuel = y.fuel ∧
      (l.foldl (fun y en => handOnEntry e w en y) y).wash.plant0 = y.wash.plant0 ∧
      (l.foldl (fun y en => handOnEntry e w en y) y).wash.plant1 = y.wash.plant1 ∧
      (l.foldl (fun y en => handOnEntry e w en y) y).gate = y.gate ∧
      (l.foldl (fun y en => handOnEntry e w en y) y).cnt = y.cnt := by
  induction l generalizing y with
  | nil => simp
  | cons n l ih => simp [ih]

@[simp] theorem handOnQueue_frame (e : Env) (w : Nat) (l : List WashEntry) (y : Yard) :
    (handOnQueue e w l y).line = y.line ∧ (handOnQueue e w l y).seek = y.seek ∧
      (handOnQueue e w l y).saturated = y.saturated ∧ (handOnQueue e w l y).lanes = y.lanes ∧
      (handOnQueue e w l y).fuel = y.fuel ∧ (handOnQueue e w l y).wash.plant0 = y.wash.plant0 ∧
      (handOnQueue e w l y).wash.plant1 = y.wash.plant1 ∧ (handOnQueue e w l y).gate = y.gate ∧
      (handOnQueue e w l y).cnt = y.cnt := by
  simp [handOnQueue]

@[simp] theorem expectFold_frame (w : Nat) (l : List WashEntry) (y : Yard) :
    (l.foldl (fun y x => placeRec x.fleet .expected (.wash w) y) y).seeking = y.seeking ∧
      (l.foldl (fun y x => placeRec x.fleet .expected (.wash w) y) y).line = y.line ∧
      (l.foldl (fun y x => placeRec x.fleet .expected (.wash w) y) y).seek = y.seek ∧
      (l.foldl (fun y x => placeRec x.fleet .expected (.wash w) y) y).saturated = y.saturated ∧
      (l.foldl (fun y x => placeRec x.fleet .expected (.wash w) y) y).lanes = y.lanes ∧
      (l.foldl (fun y x => placeRec x.fleet .expected (.wash w) y) y).fuel = y.fuel ∧
      (l.foldl (fun y x => placeRec x.fleet .expected (.wash w) y) y).wash = y.wash ∧
      (l.foldl (fun y x => placeRec x.fleet .expected (.wash w) y) y).gate = y.gate ∧
      (l.foldl (fun y x => placeRec x.fleet .expected (.wash w) y) y).points = y.points ∧
      (l.foldl (fun y x => placeRec x.fleet .expected (.wash w) y) y).signs = y.signs ∧
      (l.foldl (fun y x => placeRec x.fleet .expected (.wash w) y) y).notices = y.notices ∧
      (l.foldl (fun y x => placeRec x.fleet .expected (.wash w) y) y).lost = y.lost ∧
      (l.foldl (fun y x => placeRec x.fleet .expected (.wash w) y) y).cnt = y.cnt := by
  induction l generalizing y with
  | nil => simp
  | cons n l ih => simp [ih]

@[simp] theorem abortInside_frame (w : Nat) (l : WashLane) (y : Yard) :
    (abortInside w l y).line = y.line ∧ (abortInside w l y).seek = y.seek ∧
      (abortInside w l y).saturated = y.saturated ∧ (abortInside w l y).lanes = y.lanes ∧
      (abortInside w l y).fuel = y.fuel ∧ (abortInside w l y).wash = y.wash ∧ (abortInside w l y).gate = y.gate ∧
      (abortInside w l y).points = y.points ∧ (abortInside w l y).signs = y.signs ∧
      (abortInside w l y).notices = y.notices ∧ (abortInside w l y).lost = y.lost ∧
      (abortInside w l y).cnt = y.cnt := by
  unfold abortInside
  (repeat' split) <;> simp

@[simp] theorem washOut_frame (e : Env) (w d : Nat) (y : Yard) :
    (washOut e w d y).line.following = y.line.following ∧ (washOut e w d y).line.nextOffer = y.line.nextOffer ∧
      (washOut e w d y).line.curOffer = y.line.curOffer ∧ (washOut e w d y).line.pool = y.line.pool ∧
      (washOut e w d y).line.txBits = y.line.txBits ∧
      (washOut e w d y).line.checkSlot = y.line.checkSlot ∧ (washOut e w d y).line.flags = y.line.flags ∧
      (washOut e w d y).line.cnt = y.line.cnt ∧ (washOut e w d y).seek.offers = y.seek.offers ∧
      (washOut e w d y).seek.lapsed = y.seek.lapsed ∧ (washOut e w d y).seek.taken = y.seek.taken ∧
      (washOut e w d y).seek.choice = y.seek.choice ∧ (washOut e w d y).seek.freeCount = y.seek.freeCount ∧
      (washOut e w d y).saturated = y.saturated ∧ (washOut e w d y).lanes = y.lanes ∧
      (washOut e w d y).fuel = y.fuel ∧ (washOut e w d y).wash.plant0 = y.wash.plant0 ∧
      (washOut e w d y).wash.plant1 = y.wash.plant1 ∧ (washOut e w d y).gate.pollTimer = y.gate.pollTimer ∧
      (washOut e w d y).gate.polling = y.gate.polling ∧
      (washOut e w d y).gate.busOut = y.gate.busOut ∧ (washOut e w d y).gate.busHeld = y.gate.busHeld ∧
      (washOut e w d y).gate.failCount = y.gate.failCount ∧ (washOut e w d y).gate.faultRaised = y.gate.faultRaised ∧
      (washOut e w d y).gate.reads = y.gate.reads ∧ (washOut e w d y).gate.arrivals = y.gate.arrivals := by
  unfold washOut
  (repeat' split) <;> simp

/-! ## Custody and reservations -/

@[simp] theorem releaseCommitment_frame (loc : Loc) (f : Nat) (y : Yard) :
    (releaseCommitment loc f y).records = y.records ∧ (releaseCommitment loc f y).seeking = y.seeking ∧
      (releaseCommitment loc f y).line = y.line ∧ (releaseCommitment loc f y).seek = y.seek ∧
      (releaseCommitment loc f y).saturated = y.saturated ∧ (releaseCommitment loc f y).fuel.pumps = y.fuel.pumps ∧
      (releaseCommitment loc f y).fuel.queue = y.fuel.queue ∧
      (releaseCommitment loc f y).fuel.diesel = y.fuel.diesel ∧ (releaseCommitment loc f y).fuel.gas = y.fuel.gas ∧
      (releaseCommitment loc f y).fuel.aging = y.fuel.aging ∧
      (releaseCommitment loc f y).wash.faultList = y.wash.faultList ∧
      (releaseCommitment loc f y).wash.plant0 = y.wash.plant0 ∧
      (releaseCommitment loc f y).wash.plant1 = y.wash.plant1 ∧ (releaseCommitment loc f y).gate = y.gate ∧
      (releaseCommitment loc f y).points = y.points ∧ (releaseCommitment loc f y).signs = y.signs ∧
      (releaseCommitment loc f y).notices = y.notices ∧ (releaseCommitment loc f y).lost = y.lost ∧
      (releaseCommitment loc f y).cnt = y.cnt := by
  unfold releaseCommitment
  (repeat' split) <;> simp

@[simp] theorem endCall_frame (e : Env) (loc : Loc) (f : Nat) (y : Yard) :
    (endCall e loc f y).line = y.line ∧ (endCall e loc f y).seek = y.seek ∧
      (endCall e loc f y).saturated = y.saturated ∧ (endCall e loc f y).lanes = y.lanes ∧
      (endCall e loc f y).fuel.reservs = y.fuel.reservs ∧ (endCall e loc f y).fuel.diesel = y.fuel.diesel ∧
      (endCall e loc f y).fuel.gas = y.fuel.gas ∧ (endCall e loc f y).fuel.aging = y.fuel.aging ∧
      (endCall e loc f y).wash.plant0 = y.wash.plant0 ∧ (endCall e loc f y).wash.plant1 = y.wash.plant1 ∧
      (endCall e loc f y).gate = y.gate ∧ (endCall e loc f y).cnt = y.cnt := by
  unfold endCall
  (repeat' split) <;> simp

@[simp] theorem endEntries_frame (e : Env) (r : Record) (y : Yard) :
    (endEntries e r y).line.following = y.line.following ∧ (endEntries e r y).line.nextOffer = y.line.nextOffer ∧
      (endEntries e r y).line.curOffer = y.line.curOffer ∧ (endEntries e r y).line.pool = y.line.pool ∧
      (endEntries e r y).line.txBits = y.line.txBits ∧
      (endEntries e r y).line.checkSlot = y.line.checkSlot ∧ (endEntries e r y).line.flags = y.line.flags ∧
      (endEntries e r y).line.cnt = y.line.cnt ∧ (endEntries e r y).seek.counter = y.seek.counter ∧
      (endEntries e r y).seek.given = y.seek.given ∧ (endEntries e r y).seek.lapsed = y.seek.lapsed ∧
      (endEntries e r y).seek.taken = y.seek.taken ∧ (endEntries e r y).seek.freeCount = y.seek.freeCount ∧
      (endEntries e r y).saturated = y.saturated ∧ (endEntries e r y).fuel.diesel = y.fuel.diesel ∧
      (endEntries e r y).fuel.gas = y.fuel.gas ∧ (endEntries e r y).fuel.aging = y.fuel.aging ∧
      (endEntries e r y).wash.plant0 = y.wash.plant0 ∧ (endEntries e r y).wash.plant1 = y.wash.plant1 ∧
      (endEntries e r y).gate.pollTimer = y.gate.pollTimer ∧ (endEntries e r y).gate.polling = y.gate.polling ∧
      (endEntries e r y).gate.busOut = y.gate.busOut ∧
      (endEntries e r y).gate.busHeld = y.gate.busHeld ∧ (endEntries e r y).gate.failCount = y.gate.failCount ∧
      (endEntries e r y).gate.faultRaised = y.gate.faultRaised ∧ (endEntries e r y).gate.fifo = y.gate.fifo ∧
      (endEntries e r y).gate.reads = y.gate.reads ∧ (endEntries e r y).gate.arrivals = y.gate.arrivals ∧
      (endEntries e r y).cnt = y.cnt := by
  unfold endEntries
  dsimp only
  (repeat' split) <;> simp

@[simp] theorem dropRecord_frame (e : Env) (f : Nat) (y : Yard) :
    (dropRecord e f y).line.following = y.line.following ∧ (dropRecord e f y).line.nextOffer = y.line.nextOffer ∧
      (dropRecord e f y).line.curOffer = y.line.curOffer ∧ (dropRecord e f y).line.pool = y.line.pool ∧
      (dropRecord e f y).line.txBits = y.line.txBits ∧
      (dropRecord e f y).line.checkSlot = y.line.checkSlot ∧ (dropRecord e f y).line.flags = y.line.flags ∧
      (dropRecord e f y).line.cnt = y.line.cnt ∧ (dropRecord e f y).seek.counter = y.seek.counter ∧
      (dropRecord e f y).seek.given = y.seek.given ∧ (dropRecord e f y).seek.lapsed = y.seek.lapsed ∧
      (dropRecord e f y).seek.freeCount = y.seek.freeCount ∧ (dropRecord e f y).saturated = y.saturated ∧
      (dropRecord e f y).fuel.diesel = y.fuel.diesel ∧ (dropRecord e f y).fuel.gas = y.fuel.gas ∧
      (dropRecord e f y).fuel.aging = y.fuel.aging ∧ (dropRecord e f y).wash.plant0 = y.wash.plant0 ∧
      (dropRecord e f y).wash.plant1 = y.wash.plant1 ∧ (dropRecord e f y).gate.pollTimer = y.gate.pollTimer ∧
      (dropRecord e f y).gate.polling = y.gate.polling ∧
      (dropRecord e f y).gate.busOut = y.gate.busOut ∧ (dropRecord e f y).gate.busHeld = y.gate.busHeld ∧
      (dropRecord e f y).gate.failCount = y.gate.failCount ∧
      (dropRecord e f y).gate.faultRaised = y.gate.faultRaised ∧ (dropRecord e f y).gate.fifo = y.gate.fifo ∧
      (dropRecord e f y).gate.reads = y.gate.reads ∧ (dropRecord e f y).gate.arrivals = y.gate.arrivals ∧
      (dropRecord e f y).cnt = y.cnt := by
  unfold dropRecord
  split <;> simp

@[simp] theorem custodyCheck_frame (e : Env) (f q : Nat) (ref : SeekRef) (y : Yard) :
    ((custodyCheck e f q ref y).2).line.following = y.line.following ∧
      ((custodyCheck e f q ref y).2).line.nextOffer = y.line.nextOffer ∧
      ((custodyCheck e f q ref y).2).line.curOffer = y.line.curOffer ∧
      ((custodyCheck e f q ref y).2).line.pool = y.line.pool ∧
      ((custodyCheck e f q ref y).2).line.txBits = y.line.txBits ∧
      ((custodyCheck e f q ref y).2).line.checkSlot = y.line.checkSlot ∧
      ((custodyCheck e f q ref y).2).line.flags = y.line.flags ∧
      ((custodyCheck e f q ref y).2).line.cnt = y.line.cnt ∧
      ((custodyCheck e f q ref y).2).seek.counter = y.seek.counter ∧
      ((custodyCheck e f q ref y).2).seek.given = y.seek.given ∧
      ((custodyCheck e f q ref y).2).seek.lapsed = y.seek.lapsed ∧
      ((custodyCheck e f q ref y).2).seek.freeCount = y.seek.freeCount ∧
      ((custodyCheck e f q ref y).2).saturated = y.saturated ∧
      ((custodyCheck e f q ref y).2).fuel.diesel = y.fuel.diesel ∧
      ((custodyCheck e f q ref y).2).fuel.gas = y.fuel.gas ∧
      ((custodyCheck e f q ref y).2).fuel.aging = y.fuel.aging ∧
      ((custodyCheck e f q ref y).2).wash.plant0 = y.wash.plant0 ∧
      ((custodyCheck e f q ref y).2).wash.plant1 = y.wash.plant1 ∧
      ((custodyCheck e f q ref y).2).gate.pollTimer = y.gate.pollTimer ∧
      ((custodyCheck e f q ref y).2).gate.polling = y.gate.polling ∧
      ((custodyCheck e f q ref y).2).gate.busOut = y.gate.busOut ∧
      ((custodyCheck e f q ref y).2).gate.busHeld = y.gate.busHeld ∧
      ((custodyCheck e f q ref y).2).gate.failCount = y.gate.failCount ∧
      ((custodyCheck e f q ref y).2).gate.faultRaised = y.gate.faultRaised ∧
      ((custodyCheck e f q ref y).2).gate.fifo = y.gate.fifo ∧
      ((custodyCheck e f q ref y).2).gate.reads = y.gate.reads ∧
      ((custodyCheck e f q ref y).2).gate.arrivals = y.gate.arrivals ∧
      ((custodyCheck e f q ref y).2).cnt = y.cnt := by
  unfold custodyCheck
  (repeat' split) <;> simp

@[simp] theorem repin_frame (f : Nat) (p : Option Pin) (y : Yard) :
    (repin f p y).seeking = y.seeking ∧ (repin f p y).line = y.line ∧ (repin f p y).seek = y.seek ∧
      (repin f p y).saturated = y.saturated ∧ (repin f p y).fuel = y.fuel ∧ (repin f p y).wash = y.wash ∧
      (repin f p y).gate = y.gate ∧ (repin f p y).points = y.points ∧ (repin f p y).signs = y.signs ∧
      (repin f p y).notices = y.notices ∧ (repin f p y).lost = y.lost ∧ (repin f p y).cnt = y.cnt := by
  unfold repin
  (repeat' split) <;> simp

@[simp] theorem releaseRes_frame (r : Resource) (ref : SeekRef) (f : Nat) (y : Yard) :
    (releaseRes r ref f y).records = y.records ∧ (releaseRes r ref f y).seeking = y.seeking ∧
      (releaseRes r ref f y).line = y.line ∧ (releaseRes r ref f y).seek = y.seek ∧
      (releaseRes r ref f y).saturated = y.saturated ∧ (releaseRes r ref f y).fuel.pumps = y.fuel.pumps ∧
      (releaseRes r ref f y).fuel.queue = y.fuel.queue ∧ (releaseRes r ref f y).fuel.diesel = y.fuel.diesel ∧
      (releaseRes r ref f y).fuel.gas = y.fuel.gas ∧ (releaseRes r ref f y).fuel.aging = y.fuel.aging ∧
      (releaseRes r ref f y).wash.faultList = y.wash.faultList ∧ (releaseRes r ref f y).wash.plant0 = y.wash.plant0 ∧
      (releaseRes r ref f y).wash.plant1 = y.wash.plant1 ∧ (releaseRes r ref f y).gate = y.gate ∧
      (releaseRes r ref f y).points = y.points ∧ (releaseRes r ref f y).signs = y.signs ∧
      (releaseRes r ref f y).notices = y.notices ∧ (releaseRes r ref f y).lost = y.lost ∧
      (releaseRes r ref f y).cnt = y.cnt := by
  unfold releaseRes
  (repeat' split) <;> simp

@[simp] theorem commitRes_frame (e : Env) (r : Resource) (ref : SeekRef) (b : Carried) (late : Bool) (y : Yard) :
    (commitRes e r ref b late y).line = y.line ∧ (commitRes e r ref b late y).seek = y.seek ∧
      (commitRes e r ref b late y).saturated = y.saturated ∧ (commitRes e r ref b late y).fuel.pumps = y.fuel.pumps ∧
      (commitRes e r ref b late y).fuel.queue = y.fuel.queue ∧
      (commitRes e r ref b late y).fuel.diesel = y.fuel.diesel ∧ (commitRes e r ref b late y).fuel.gas = y.fuel.gas ∧
      (commitRes e r ref b late y).fuel.aging = y.fuel.aging ∧
      (commitRes e r ref b late y).wash.faultList = y.wash.faultList ∧
      (commitRes e r ref b late y).wash.plant0 = y.wash.plant0 ∧
      (commitRes e r ref b late y).wash.plant1 = y.wash.plant1 ∧ (commitRes e r ref b late y).gate = y.gate ∧
      (commitRes e r ref b late y).cnt = y.cnt := by
  unfold commitRes
  (repeat' split) <;> simp

@[simp] theorem ownerTimeout_frame (e : Env) (k : PointKind) (i f : Nat) (y : Yard) :
    (ownerTimeout e k i f y).seeking = y.seeking ∧ (ownerTimeout e k i f y).line.following = y.line.following ∧
      (ownerTimeout e k i f y).line.nextOffer = y.line.nextOffer ∧
      (ownerTimeout e k i f y).line.curOffer = y.line.curOffer ∧ (ownerTimeout e k i f y).line.pool = y.line.pool ∧
      (ownerTimeout e k i f y).line.txBits = y.line.txBits ∧
      (ownerTimeout e k i f y).line.checkSlot = y.line.checkSlot ∧
      (ownerTimeout e k i f y).line.flags = y.line.flags ∧
      (ownerTimeout e k i f y).line.cnt = y.line.cnt ∧ (ownerTimeout e k i f y).seek.counter = y.seek.counter ∧
      (ownerTimeout e k i f y).seek.given = y.seek.given ∧ (ownerTimeout e k i f y).seek.offers = y.seek.offers ∧
      (ownerTimeout e k i f y).seek.lapsed = y.seek.lapsed ∧ (ownerTimeout e k i f y).seek.taken = y.seek.taken ∧
      (ownerTimeout e k i f y).seek.choice = y.seek.choice ∧
      (ownerTimeout e k i f y).seek.freeCount = y.seek.freeCount ∧ (ownerTimeout e k i f y).saturated = y.saturated ∧
      (ownerTimeout e k i f y).fuel.pumps = y.fuel.pumps ∧ (ownerTimeout e k i f y).fuel.queue = y.fuel.queue ∧
      (ownerTimeout e k i f y).fuel.diesel = y.fuel.diesel ∧ (ownerTimeout e k i f y).fuel.gas = y.fuel.gas ∧
      (ownerTimeout e k i f y).fuel.aging = y.fuel.aging ∧ (ownerTimeout e k i f y).wash = y.wash ∧
      (ownerTimeout e k i f y).gate.pollTimer = y.gate.pollTimer ∧
      (ownerTimeout e k i f y).gate.polling = y.gate.polling ∧
      (ownerTimeout e k i f y).gate.busOut = y.gate.busOut ∧
      (ownerTimeout e k i f y).gate.busHeld = y.gate.busHeld ∧
      (ownerTimeout e k i f y).gate.failCount = y.gate.failCount ∧
      (ownerTimeout e k i f y).gate.faultRaised = y.gate.faultRaised ∧
      (ownerTimeout e k i f y).gate.fifo = y.gate.fifo ∧ (ownerTimeout e k i f y).gate.reads = y.gate.reads ∧
      (ownerTimeout e k i f y).gate.arrivals = y.gate.arrivals ∧ (ownerTimeout e k i f y).points = y.points ∧
      (ownerTimeout e k i f y).signs = y.signs ∧ (ownerTimeout e k i f y).cnt = y.cnt := by
  unfold ownerTimeout
  (repeat' split) <;> simp

/-! ## The line interface -/

@[simp] theorem offersLost_frame (e : Env) (y : Yard) :
    (offersLost e y).records = y.records ∧ (offersLost e y).seeking = y.seeking ∧
      (offersLost e y).line.following = y.line.following ∧ (offersLost e y).line.nextOffer = y.line.nextOffer ∧
      (offersLost e y).line.curOffer = y.line.curOffer ∧ (offersLost e y).line.pool = y.line.pool ∧
      (offersLost e y).line.txBits = y.line.txBits ∧
      (offersLost e y).line.checkSlot = y.line.checkSlot ∧ (offersLost e y).line.flags = y.line.flags ∧
      (offersLost e y).line.cnt = y.line.cnt ∧ (offersLost e y).seek.counter = y.seek.counter ∧
      (offersLost e y).seek.table = y.seek.table ∧ (offersLost e y).seek.given = y.seek.given ∧
      (offersLost e y).seek.offers = y.seek.offers ∧ (offersLost e y).seek.lapsed = y.seek.lapsed ∧
      (offersLost e y).seek.taken = y.seek.taken ∧ (offersLost e y).seek.freeCount = y.seek.freeCount ∧
      (offersLost e y).saturated = y.saturated ∧ (offersLost e y).lanes = y.lanes ∧ (offersLost e y).fuel = y.fuel ∧
      (offersLost e y).wash = y.wash ∧ (offersLost e y).gate = y.gate ∧ (offersLost e y).points = y.points ∧
      (offersLost e y).signs = y.signs ∧ (offersLost e y).notices = y.notices ∧ (offersLost e y).lost = y.lost ∧
      (offersLost e y).cnt = y.cnt := by
  simp [offersLost]

@[simp] theorem endOpening_frame (e : Env) (n : Option SeekRef) (p : Bool) (y : Yard) :
    (endOpening e n p y).seeking = y.seeking ∧ (endOpening e n p y).line.following = y.line.following ∧
      (endOpening e n p y).line.pool = y.line.pool ∧ (endOpening e n p y).line.txBits = y.line.txBits ∧
      (endOpening e n p y).line.checkSlot = false ∧
      (endOpening e n p y).line.cnt = y.line.cnt ∧ (endOpening e n p y).seek.counter = y.seek.counter ∧
      (endOpening e n p y).seek.given = y.seek.given ∧ (endOpening e n p y).seek.offers = y.seek.offers ∧
      (endOpening e n p y).seek.lapsed = y.seek.lapsed ∧ (endOpening e n p y).seek.taken = y.seek.taken ∧
      (endOpening e n p y).seek.freeCount = y.seek.freeCount ∧ (endOpening e n p y).saturated = y.saturated ∧
      (endOpening e n p y).lanes = y.lanes ∧ (endOpening e n p y).fuel = y.fuel ∧
      (endOpening e n p y).wash.lanes = y.wash.lanes ∧ (endOpening e n p y).wash.plant0 = y.wash.plant0 ∧
      (endOpening e n p y).wash.plant1 = y.wash.plant1 ∧ (endOpening e n p y).gate.pollTimer = y.gate.pollTimer ∧
      (endOpening e n p y).gate.polling = y.gate.polling ∧
      (endOpening e n p y).gate.busOut = y.gate.busOut ∧ (endOpening e n p y).gate.busHeld = y.gate.busHeld ∧
      (endOpening e n p y).gate.failCount = y.gate.failCount ∧
      (endOpening e n p y).gate.faultRaised = y.gate.faultRaised ∧ (endOpening e n p y).gate.fifo = y.gate.fifo ∧
      (endOpening e n p y).gate.reads = y.gate.reads ∧ (endOpening e n p y).gate.arrivals = y.gate.arrivals ∧
      (endOpening e n p y).points = y.points ∧ (endOpening e n p y).signs = y.signs ∧
      (endOpening e n p y).cnt = y.cnt := by
  unfold endOpening
  dsimp only
  (repeat' split) <;> simp

@[simp] theorem dropSending_frame (e : Env) (y : Yard) :
    (dropSending e y).records = y.records ∧ (dropSending e y).seeking = y.seeking ∧
      (dropSending e y).line.following = y.line.following ∧ (dropSending e y).line.nextOffer = y.line.nextOffer ∧
      (dropSending e y).line.curOffer = y.line.curOffer ∧ (dropSending e y).line.pool = y.line.pool ∧
      (dropSending e y).line.flags = y.line.flags ∧ (dropSending e y).line.cnt = y.line.cnt ∧
      (dropSending e y).seek = y.seek ∧ (dropSending e y).saturated = y.saturated ∧
      (dropSending e y).lanes = y.lanes ∧ (dropSending e y).fuel = y.fuel ∧ (dropSending e y).wash = y.wash ∧
      (dropSending e y).gate = y.gate ∧ (dropSending e y).points = y.points ∧ (dropSending e y).signs = y.signs ∧
      (dropSending e y).notices = y.notices ∧ (dropSending e y).lost = y.lost ∧ (dropSending e y).cnt = y.cnt := by
  simp [dropSending]

@[simp] theorem handoverSent_frame (e : Env) (r : TxReq) (y : Yard) :
    (handoverSent e r y).records = y.records ∧ (handoverSent e r y).seeking = y.seeking ∧
      (handoverSent e r y).line = y.line ∧ (handoverSent e r y).seek.counter = y.seek.counter ∧
      (handoverSent e r y).seek.given = y.seek.given ∧ (handoverSent e r y).seek.lapsed = y.seek.lapsed ∧
      (handoverSent e r y).seek.taken = y.seek.taken ∧ (handoverSent e r y).seek.choice = y.seek.choice ∧
      (handoverSent e r y).seek.freeCount = y.seek.freeCount ∧ (handoverSent e r y).saturated = y.saturated ∧
      (handoverSent e r y).lanes = y.lanes ∧ (handoverSent e r y).fuel = y.fuel ∧
      (handoverSent e r y).wash = y.wash ∧ (handoverSent e r y).gate = y.gate ∧
      (handoverSent e r y).points = y.points ∧ (handoverSent e r y).signs = y.signs ∧
      (handoverSent e r y).notices = y.notices ∧ (handoverSent e r y).lost = y.lost ∧
      (handoverSent e r y).cnt = y.cnt := by
  unfold handoverSent
  (repeat' split) <;> simp

@[simp] theorem poolFrame_frame (e : Env) (r : RawFrame) (y : Yard) :
    (poolFrame e r y).records = y.records ∧ (poolFrame e r y).seeking = y.seeking ∧
      (poolFrame e r y).line.following = y.line.following ∧ (poolFrame e r y).line.nextOffer = y.line.nextOffer ∧
      (poolFrame e r y).line.curOffer = y.line.curOffer ∧ (poolFrame e r y).line.queue = y.line.queue ∧
      (poolFrame e r y).line.waiting = y.line.waiting ∧ (poolFrame e r y).line.txBits = y.line.txBits ∧
      (poolFrame e r y).line.checkSlot = y.line.checkSlot ∧
      (poolFrame e r y).seek = y.seek ∧ (poolFrame e r y).saturated = y.saturated ∧
      (poolFrame e r y).lanes = y.lanes ∧ (poolFrame e r y).fuel = y.fuel ∧ (poolFrame e r y).wash = y.wash ∧
      (poolFrame e r y).gate = y.gate ∧ (poolFrame e r y).points = y.points ∧ (poolFrame e r y).signs = y.signs ∧
      (poolFrame e r y).cnt = y.cnt := by
  unfold poolFrame
  (repeat' split) <;> simp

@[simp] theorem otherCarried_frame (e : Env) (r : RawFrame) (y : Yard) :
    (otherCarried e r y).seeking = y.seeking ∧ (otherCarried e r y).line.following = y.line.following ∧
      (otherCarried e r y).line.txBits = y.line.txBits ∧
      (otherCarried e r y).line.checkSlot = false ∧ (otherCarried e r y).seek.counter = y.seek.counter ∧
      (otherCarried e r y).seek.given = y.seek.given ∧ (otherCarried e r y).seek.offers = y.seek.offers ∧
      (otherCarried e r y).seek.lapsed = y.seek.lapsed ∧ (otherCarried e r y).seek.taken = y.seek.taken ∧
      (otherCarried e r y).seek.freeCount = y.seek.freeCount ∧ (otherCarried e r y).saturated = y.saturated ∧
      (otherCarried e r y).lanes = y.lanes ∧ (otherCarried e r y).fuel = y.fuel ∧
      (otherCarried e r y).wash.lanes = y.wash.lanes ∧ (otherCarried e r y).wash.plant0 = y.wash.plant0 ∧
      (otherCarried e r y).wash.plant1 = y.wash.plant1 ∧ (otherCarried e r y).gate.pollTimer = y.gate.pollTimer ∧
      (otherCarried e r y).gate.polling = y.gate.polling ∧
      (otherCarried e r y).gate.busOut = y.gate.busOut ∧ (otherCarried e r y).gate.busHeld = y.gate.busHeld ∧
      (otherCarried e r y).gate.failCount = y.gate.failCount ∧
      (otherCarried e r y).gate.faultRaised = y.gate.faultRaised ∧ (otherCarried e r y).gate.fifo = y.gate.fifo ∧
      (otherCarried e r y).gate.reads = y.gate.reads ∧ (otherCarried e r y).gate.arrivals = y.gate.arrivals ∧
      (otherCarried e r y).points = y.points ∧ (otherCarried e r y).signs = y.signs ∧
      (otherCarried e r y).cnt = y.cnt := by
  unfold otherCarried
  dsimp only
  split <;> simp

end Sys2Proof.Machine
end

