-- ==== Sys2Proof/Laws/Lists.lean ====
section
/-! SUPPORT. What the list operations of Ops.lean do, said once: lengths, what stays, and the canonical form of the
tables kept rising by a key. -/

namespace Sys2Proof.Machine

variable {α β : Type}

/-! ## updFirst -/

@[simp] theorem updFirst_length (p : α → Bool) (f : α → α) (l : List α) : (updFirst p f l).length = l.length := by
  induction l with
  | nil => rfl
  | cons x xs ih => unfold updFirst; split <;> simp [ih]

/-- A projection that f keeps is the same along the whole list. -/
theorem updFirst_map (p : α → Bool) (f : α → α) (g : α → β) (h : ∀ x, g (f x) = g x) (l : List α) :
    (updFirst p f l).map g = l.map g := by
  induction l with
  | nil => rfl
  | cons x xs ih => unfold updFirst; split <;> simp [ih, h]

/-- With p kept by f, the first item that satisfies p is the changed one. -/
theorem find?_updFirst_self (p : α → Bool) (f : α → α) (h : ∀ x, p x = true → p (f x) = true) (l : List α) :
    (updFirst p f l).find? p = (l.find? p).map f := by
  induction l with
  | nil => rfl
  | cons x xs ih =>
    unfold updFirst
    by_cases hx : p x = true
    · simp [hx, h x hx]
    · simp only [Bool.not_eq_true] at hx
      simp [hx, ih]

/-- A search that neither f nor p touches finds what it found. -/
theorem find?_updFirst_other (p q : α → Bool) (f : α → α) (h : ∀ x, p x = true → q x = false ∧ q (f x) = false)
    (l : List α) : (updFirst p f l).find? q = l.find? q := by
  induction l with
  | nil => rfl
  | cons x xs ih =>
    unfold updFirst
    by_cases hx : p x = true
    · simp [hx, (h x hx).1, (h x hx).2]
    · simp only [Bool.not_eq_true] at hx
      simp [hx, ih, List.find?_cons]

theorem mem_updFirst {p : α → Bool} {f : α → α} {l : List α} {y : α} (h : y ∈ updFirst p f l) :
    y ∈ l ∨ ∃ x ∈ l, p x = true ∧ y = f x := by
  induction l with
  | nil => cases h
  | cons x xs ih =>
    unfold updFirst at h
    split at h
    · rename_i hx
      rcases List.mem_cons.1 h with rfl | h
      · exact .inr ⟨x, .head _, hx, rfl⟩
      · exact .inl (.tail _ h)
    · rcases List.mem_cons.1 h with rfl | h
      · exact .inl (.head _)
      · rcases ih h with h | ⟨z, hz, hp, rfl⟩
        · exact .inl (.tail _ h)
        · exact .inr ⟨z, .tail _ hz, hp, rfl⟩

/-- Where the first item that satisfies p stands, there alone the list changes. -/
theorem updFirst_append {p : α → Bool} (f : α → α) {a b : List α} {d : α} (ha : ∀ z ∈ a, p z = false) (hd : p d = true) :
    updFirst p f (a ++ d :: b) = a ++ f d :: b := by
  induction a with
  | nil => simp [updFirst, hd]
  | cons x xs ih => simp [updFirst, ha x (.head _), ih fun z hz => ha z (.tail _ hz)]

/-! ## dropFirst -/

/-- The first item that satisfies p leaves, and the others close up. -/
theorem dropFirst_append {p : α → Bool} {a b : List α} {d : α} (ha : ∀ z ∈ a, p z = false) (hd : p d = true) :
    dropFirst p (a ++ d :: b) = a ++ b := by
  induction a with
  | nil => simp [dropFirst, hd]
  | cons x xs ih => simp [dropFirst, ha x (.head _), ih fun z hz => ha z (.tail _ hz)]

theorem dropFirst_sublist (p : α → Bool) (l : List α) : (dropFirst p l).Sublist l := by
  induction l with
  | nil => exact .slnil
  | cons x xs ih =>
    unfold dropFirst
    split
    · exact .cons _ (List.Sublist.refl _)
    · exact .cons_cons _ ih

theorem dropFirst_length_le (p : α → Bool) (l : List α) : (dropFirst p l).length ≤ l.length :=
  (dropFirst_sublist p l).length_le

/-! ## pushOldest -/

theorem pushOldest_length_le {cap : Nat} (hc : 1 ≤ cap) (x : α) (l : List α) (h : l.length ≤ cap) :
    (pushOldest cap x l).length ≤ cap := by
  unfold pushOldest
  split <;> simp <;> omega

/-! ## insertBy: the tables with no order of their own -/

theorem mem_insertBy {key : α → Nat} {x y : α} {l : List α} (h : y ∈ insertBy key x l) : y = x ∨ y ∈ l := by
  induction l with
  | nil => simpa [insertBy] using h
  | cons z zs ih =>
    unfold insertBy at h
    split at h
    · simpa using h
    · split at h
      · rcases List.mem_cons.1 h with h | h
        · exact .inl h
        · exact .inr (.tail _ h)
      · rcases List.mem_cons.1 h with h | h
        · exact .inr (h ▸ .head _)
        · exact (ih h).imp id (.tail _)

/-- An insertion keeps a list strictly rising by its key. -/
theorem insertBy_pairwise (key : α → Nat) (x : α) (l : List α) (h : (l.map key).Pairwise (· < ·)) :
    ((insertBy key x l).map key).Pairwise (· < ·) := by
  induction l with
  | nil => simp [insertBy]
  | cons y ys ih =>
    have hy : (∀ z ∈ ys, key y < key z) ∧ (ys.map key).Pairwise (· < ·) := by simpa using h
    unfold insertBy
    split
    · rename_i hlt
      simp only [List.map_cons, List.pairwise_cons, List.mem_cons, List.mem_map]
      refine ⟨?_, by simpa using hy.1, hy.2⟩
      rintro k (rfl | ⟨z, hz, rfl⟩)
      · exact hlt
      · exact Nat.lt_trans hlt (hy.1 z hz)
    · split
      · rename_i he
        simp only [List.map_cons, List.pairwise_cons, List.mem_map]
        refine ⟨?_, hy.2⟩
        rintro k ⟨z, hz, rfl⟩
        exact he ▸ hy.1 z hz
      · rename_i hlt hne
        simp only [List.map_cons, List.pairwise_cons, List.mem_map]
        refine ⟨?_, ih hy.2⟩
        rintro k ⟨z, hz, rfl⟩
        rcases mem_insertBy hz with rfl | hz
        · omega
        · exact hy.1 z hz

theorem insertBy_length_le (key : α → Nat) (x : α) (l : List α) : (insertBy key x l).length ≤ l.length + 1 := by
  induction l with
  | nil => simp [insertBy]
  | cons y ys ih =>
    unfold insertBy
    split
    · simp
    · split
      · simp
      · simp
        omega

/-- The inserted item is found under its key. -/
theorem find?_insertBy_self (key : α → Nat) (x : α) (l : List α) :
    (insertBy key x l).find? (fun y => key y == key x) = some x := by
  induction l with
  | nil => simp [insertBy]
  | cons y ys ih =>
    unfold insertBy
    split
    · simp
    · split
      · simp
      · rename_i hlt hne
        have : (key y == key x) = false := by simp; omega
        simp [this, ih]

/-- An insertion leaves what stands under every other key. -/
theorem find?_insertBy_other (key : α → Nat) (x : α) (k : Nat) (hk : k ≠ key x) (l : List α) :
    (insertBy key x l).find? (fun y => key y == k) = l.find? (fun y => key y == k) := by
  have hx : (key x == k) = false := by simp; omega
  induction l with
  | nil => simp [insertBy, hx]
  | cons y ys ih =>
    unfold insertBy
    split
    · simp [hx]
    · split
      · rename_i he
        have : (key y == k) = false := by simp; omega
        simp [hx, this]
      · simp [List.find?_cons, ih]

end Sys2Proof.Machine
end

