-- ==== Sys2Proof/Laws/Operations.lean ====
section
/-! SUPPORT. What the shared operations answer: a record after a write, the free seek number, a won offer's reservation,
the head of the apron's queue and when the looking for heads ends, and how a transaction with the tag reader is
followed. -/

namespace Sys2Proof.Machine

/-! ## Custody records -/

/-- A write to the record of a fleet that keeps the fleet is what a search then finds. -/
theorem rec?_onRec_self {f : Nat} {g : Record → Record} {y : Yard} {r : Record} (hg : ∀ x, (g x).bus.fleet = x.bus.fleet)
    (h : y.rec? f = some r) : (onRec f g y).rec? f = some (g r) := by
  simp only [Yard.rec?, onRec] at *
  rw [find?_updFirst_self _ _ (by simp [hg]), h, Option.map_some]

/-- Every other fleet's record stays. -/
theorem rec?_onRec_other {f k : Nat} {g : Record → Record} (y : Yard) (hk : k ≠ f)
    (hg : ∀ x, (g x).bus.fleet = x.bus.fleet) : (onRec f g y).rec? k = y.rec? k := by
  simp only [Yard.rec?, onRec]
  rw [find?_updFirst_other]
  intro x hx
  simp only [beq_iff_eq] at hx
  simp [hg, hx, Ne.symm hk]

/-! ## Seek numbers (R49) -/

/-- With j numbers from k on held by entries and the next one free, that next one is answered. -/
theorem firstFree_eq {t : List SeekEntry} (j : Nat) : ∀ {fuel k : Nat}, j ≤ fuel →
    (∀ i, i < j → ∃ x ∈ t, x.number = (k + i) % 256) → (∀ x ∈ t, x.number ≠ (k + j) % 256) →
    firstFree t fuel k = (k + j) % 256 := by
  induction j with
  | zero =>
    intro fuel k _ _ h
    cases fuel with
    | zero => rfl
    | succ n =>
      unfold firstFree
      rw [if_neg]
      · simp
      · simpa using h
  | succ j ih =>
    intro fuel k hf h1 h2
    cases fuel with
    | zero => omega
    | succ n =>
      obtain ⟨x, hx, e⟩ := h1 0 (by omega)
      have held : (t.any fun y => y.number == k % 256) = true := List.any_eq_true.2 ⟨x, hx, by simpa using e⟩
      unfold firstFree
      rw [if_pos held, ih (k := k + 1) (by omega)]
      · congr 1; omega
      · intro i hi
        obtain ⟨x, hx, e⟩ := h1 (i + 1) (by omega)
        exact ⟨x, hx, by rw [e]; congr 1; omega⟩
      · rwa [show k + 1 + j = k + (j + 1) by omega]

/-- Among as many consecutive numbers as a table of up to 255 entries has, and one more, one is free. -/
theorem exists_free_number {t : List SeekEntry} (ht : t.length ≤ 255) (k : Nat) :
    ∃ j, j ≤ t.length ∧ ∀ x ∈ t, x.number ≠ (k + j) % 256 := by
  by_contra hc
  push Not at hc
  have inj : (Finset.range (t.length + 1)).card ≤ (t.map (·.number)).toFinset.card := by
    apply Finset.card_le_card_of_injOn (fun j => (k + j) % 256)
    · intro j hj
      obtain ⟨x, hx, e⟩ := hc j (by simp at hj; omega)
      simp only [Finset.mem_coe, List.mem_toFinset, List.mem_map]
      exact ⟨x, hx, e⟩
    · intro a ha b hb h
      simp at ha hb h
      omega
  have few : (t.map (·.number)).toFinset.card ≤ t.length := by simpa using List.toFinset_card_le (t.map (·.number))
  simp at inj
  omega

/-- The number answered is a number of the counter that no entry holds. -/
theorem firstFree_free {t : List SeekEntry} (ht : t.length ≤ 255) (k : Nat) :
    firstFree t t.length k < 256 ∧ ∀ x ∈ t, x.number ≠ firstFree t t.length k := by
  classical
  have ex := exists_free_number ht k
  have hj := Nat.find_spec ex
  rw [firstFree_eq (Nat.find ex) hj.1 _ hj.2]
  · exact ⟨Nat.mod_lt _ (by omega), hj.2⟩
  · intro i hi
    have := Nat.find_min ex hi
    push Not at this
    exact this (by have := hj.1; omega)

/-! ## Reservations (R95, R96, R116, R117, R142, R143) -/

theorem lane_lists_iff {l : Lane} {f : Nat} : l.lists f = true ↔ ∃ q ∈ l.reservs, q.fleet = f := by
  simp [Lane.lists]

theorem lane_committed_iff {l : Lane} {f : Nat} :
    l.committed f = true ↔ ∃ q ∈ l.reservs, q.committed = true ∧ q.fleet = f := by
  simp [Lane.committed]

theorem apronLists_iff {y : Yard} {f : Nat} : y.apronLists f = true ↔ ∃ q ∈ y.fuel.reservs, q.fleet = f := by
  simp [Yard.apronLists]

theorem apronCommitted_iff {y : Yard} {f : Nat} :
    y.apronCommitted f = true ↔ ∃ q ∈ y.fuel.reservs, q.committed = true ∧ q.fleet = f := by
  simp [Yard.apronCommitted]

theorem lane_room_iff {l : Lane} : l.room = true ↔ l.positions.length + l.reservs.length < l.cfg.depth := by
  rw [Lane.room, decide_eq_true_iff, Lane.occupancy]

theorem apronRoom_iff {e : Env} {y : Yard} :
    apronRoom e y = true ↔ y.fuel.queue.length + y.fuel.reservs.length < e.layout.islandCfg.capacity := by
  rw [apronRoom, decide_eq_true_iff, Yard.apronOccupancy]

/-- A list that an entry joins in place of the earlier entries of its key holds each key once, as it did before. -/
theorem nodup_filter_concat {α : Type} {k : α → Nat} {xs : List α} {x : α} (h : (xs.map k).Nodup) :
    ((xs.filter (k · != k x) ++ [x]).map k).Nodup := by
  rw [List.map_append, List.nodup_append]
  refine ⟨h.sublist (List.filter_sublist.map k), by simp, ?_⟩
  intro a ha b hb
  obtain ⟨z, hz, rfl⟩ := List.mem_map.mp ha
  simp at hz hb
  exact hb ▸ hz.2

/-- An entry that joins a lane's list leaves each fleet in it at most once (R95). -/
theorem lane_enter_nodup {l : Lane} {r : LaneRes} (h : (l.reservs.map (·.fleet)).Nodup) :
    ((l.enter r).reservs.map (·.fleet)).Nodup := nodup_filter_concat (k := LaneRes.fleet) h

/-- An entry that joins the apron's list leaves each fleet in it at most once (R116). -/
theorem enterApron_nodup {y : Yard} {r : ApronRes} (h : (y.fuel.reservs.map (·.fleet)).Nodup) :
    ((enterApron r y).fuel.reservs.map (·.fleet)).Nodup := nodup_filter_concat (k := ApronRes.fleet) h

/-- An entry that joins a lane's list takes at most one place more. -/
theorem lane_enter_length {l : Lane} {r : LaneRes} : (l.enter r).reservs.length ≤ l.reservs.length + 1 := by
  simpa [Lane.enter] using List.length_filter_le _ _

/-- An entry that joins the apron's list takes at most one place more. -/
theorem enterApron_length {y : Yard} {r : ApronRes} :
    (enterApron r y).fuel.reservs.length ≤ y.fuel.reservs.length + 1 := by
  simpa [enterApron] using List.length_filter_le _ _

/-- A won BERTH offer reserves when its lane has room, by an entry at the list's end: HELD, or COMMITTED where the fleet
is COMMITTED there already. -/
theorem laneReserve_eq_some {n : Nat} {ref : SeekRef} {f : Nat} {release : Option Nat} {y t : Yard} :
    laneReserve n ref f release y = some t ↔ ∃ l, y.lane? n = some l ∧ l.room = true
      ∧ t = onLane n (fun l => l.enter ⟨ref, f, release, l.committed f⟩) y := by
  cases h : y.lane? n <;> simp [laneReserve, h, eq_comm (b := t)]

/-- A won FUEL offer reserves when the apron has room, by an entry at the list's end: HELD, or COMMITTED where the fleet
is COMMITTED there already. -/
theorem apronReserve_eq_some {e : Env} {ref : SeekRef} {f : Nat} {fuel : Fuel} {y t : Yard} :
    apronReserve e ref f fuel y = some t ↔ apronRoom e y = true
      ∧ t = enterApron ⟨ref, f, fuel, y.apronCommitted f⟩ y := by
  simp [apronReserve, eq_comm (b := t)]

/-- A won WASH offer reserves when its lane has room, by one entry at the list's end. -/
theorem washReserve_eq_some {w : Nat} {ref : SeekRef} {f : Nat} {y t : Yard} :
    washReserve w ref f y = some t ↔ ∃ l, y.washLane? w = some l ∧ l.room = true
      ∧ t = onWash w (fun l => { l with reservs := l.reservs ++ [⟨ref, f⟩] }) y := by
  cases h : y.washLane? w <;> simp [washReserve, h, eq_comm (b := t)]

/-! ## The head of the apron's queue (R121, R122) -/

/-- One comparison of the search for the lowest level, the earlier of two equal ones kept. -/
def lowerOf (best : Option ApronEntry) (x : ApronEntry) : Option ApronEntry :=
  match best with
  | none => some x
  | some b => if x.level < b.level then some x else some b

theorem foldl_lowerOf (l : List ApronEntry) (b : ApronEntry) :
    ∃ m, l.foldl lowerOf (some b) = some m ∧ m.level ≤ b.level ∧ (∀ z ∈ l, m.level ≤ z.level) ∧ (m = b ∨ m ∈ l) := by
  induction l generalizing b with
  | nil => exact ⟨b, rfl, Nat.le_refl _, by simp, .inl rfl⟩
  | cons x xs ih =>
    by_cases h : x.level < b.level
    · obtain ⟨m, e, h1, h2, h3⟩ := ih x
      exact ⟨m, by simpa [lowerOf, h] using e, by omega, by simpa using ⟨h1, h2⟩,
        .inr (by rcases h3 with rfl | h3 <;> simp [*])⟩
    · obtain ⟨m, e, h1, h2, h3⟩ := ih b
      exact ⟨m, by simpa [lowerOf, h] using e, h1, by simpa using ⟨by omega, h2⟩,
        by rcases h3 with rfl | h3 <;> simp [*]⟩

theorem apronHead_eq (f : Fuel) (q : List ApronEntry) : apronHead f q = (q.filter (·.fuel == f)).foldl lowerOf none := rfl

/-- A type has no head when the queue holds no entry of it. -/
theorem apronHead_eq_none {f : Fuel} {q : List ApronEntry} : apronHead f q = none ↔ ∀ z ∈ q, z.fuel ≠ f := by
  rw [apronHead_eq]
  cases h : q.filter (·.fuel == f) with
  | nil => simpa using h
  | cons x xs =>
    obtain ⟨m, e, -⟩ := foldl_lowerOf xs x
    have hx : x ∈ q.filter (·.fuel == f) := by simp [h]
    simp only [List.mem_filter, beq_iff_eq] at hx
    simp only [List.foldl_cons, lowerOf, e, reduceCtorEq, false_iff, not_forall]
    exact ⟨x, hx.1, by simp [hx.2]⟩

/-- A head is an entry of its type, and none of its type has a lower level. -/
theorem apronHead_some {f : Fuel} {q : List ApronEntry} {x : ApronEntry} (h : apronHead f q = some x) :
    x ∈ q ∧ x.fuel = f ∧ ∀ z ∈ q, z.fuel = f → x.level ≤ z.level := by
  rw [apronHead_eq] at h
  cases hq : q.filter (·.fuel == f) with
  | nil => simp [hq] at h
  | cons b bs =>
    rw [hq] at h
    obtain ⟨m, e, h1, h2, h3⟩ := foldl_lowerOf bs b
    simp only [List.foldl_cons, lowerOf, e, Option.some.injEq] at h
    subst h
    have hm : m ∈ q.filter (·.fuel == f) := by rw [hq]; rcases h3 with rfl | h3 <;> simp [*]
    simp only [List.mem_filter, beq_iff_eq] at hm
    refine ⟨hm.1, hm.2, fun z hz hf => ?_⟩
    have hz : z ∈ q.filter (·.fuel == f) := by simp [hz, hf]
    rw [hq] at hz
    rcases List.mem_cons.1 hz with rfl | hz
    · exact h1
    · exact h2 z hz

/-! ## The tag reader's transaction (R160) -/

/-- The master's own bits read back as sent are passed over. -/
theorem followTransaction_sent (l : List Bool) (is : List BusItem) (sda got : List Bool) :
    followTransaction (l.map .send ++ is) (l ++ sda) got = followTransaction is sda got := by
  induction l with
  | nil => rfl
  | cons b bs ih => cases b <;> simpa [followTransaction] using ih

/-- A high bit of the master's read low is a lost arbitration. -/
theorem followTransaction_lost {l : List Bool} (is : List BusItem) (rest got : List Bool) {i : Nat}
    (h : l[i]? = some true) :
    followTransaction (l.map .send ++ is) (l.take i ++ false :: rest) got = some .arbitrationLost := by
  induction l generalizing i with
  | nil => simp at h
  | cons b bs ih =>
    cases i with
    | zero =>
      simp only [List.getElem?_cons_zero, Option.some.injEq] at h
      simp [h, followTransaction]
    | succ i =>
      simp only [List.getElem?_cons_succ] at h
      cases b <;> simpa [followTransaction] using ih h

/-- The reader's bits join those received. -/
theorem followTransaction_received (l : List Bool) (is : List BusItem) (sda got : List Bool) :
    followTransaction (List.replicate l.length .readerBit ++ is) (l ++ sda) got
      = followTransaction is sda (got ++ l) := by
  induction l generalizing got with
  | nil => simp
  | cons b bs ih => simp [List.replicate_succ, followTransaction, ih]

/-- The master's own bits read back as sent go out one after the other. -/
theorem drivenItems_sent (l : List Bool) (is : List BusItem) (sda : List Bool) :
    drivenItems (l.map .send ++ is) (l ++ sda) = l.map .send ++ drivenItems is sda := by
  induction l with
  | nil => rfl
  | cons b bs ih => cases b <;> simpa [drivenItems] using ih

/-- After a high bit of the master's read low nothing more goes out. -/
theorem drivenItems_lost {l : List Bool} (is : List BusItem) (rest : List Bool) {i : Nat} (h : l[i]? = some true) :
    drivenItems (l.map .send ++ is) (l.take i ++ false :: rest) = (l.take (i + 1)).map .send := by
  induction l generalizing i with
  | nil => simp at h
  | cons b bs ih =>
    cases i with
    | zero =>
      simp only [List.getElem?_cons_zero, Option.some.injEq] at h
      simp [h, drivenItems]
    | succ i =>
      simp only [List.getElem?_cons_succ] at h
      cases b <;> simpa [drivenItems] using ih h

/-- The reader's bits are clocked in one after the other. -/
theorem drivenItems_received (l : List Bool) (is : List BusItem) (sda : List Bool) :
    drivenItems (List.replicate l.length .readerBit ++ is) (l ++ sda)
      = List.replicate l.length .readerBit ++ drivenItems is sda := by
  induction l with
  | nil => rfl
  | cons b bs ih => simpa [List.replicate_succ, drivenItems] using ih

end Sys2Proof.Machine
end

