-- ==== Sys2Proof/Laws/PerInstr.lean ====
section
/-! SUPPORT. Statements about every command as syntax. RecordFits: the record that carries a host command (R207) has a
code of 1 to 26 and at most 249 field bytes, so that it fits the receive buffer (R208). -/

namespace Sys2Proof.Laws.RecordFits

open Sys2Proof.Machine

/-- The record of a command, if it has one, is one that the receiver takes. -/
def Statement (i : Instr) : Prop :=
  ∀ (code : Nat) (fields : List Byte), i.hostFields = some (code, fields) → 1 ≤ code ∧ code ≤ 26 ∧ fields.length ≤ 249

theorem of_none {i : Instr} (h : i.hostFields = none) : Statement i := by
  intro c fs hf
  rw [h] at hf
  cases hf

theorem of_some {i : Instr} {c : Nat} {fs : List Byte} (h : i.hostFields = some (c, fs)) (h1 : 1 ≤ c) (h2 : c ≤ 26)
    (h3 : fs.length ≤ 249) : Statement i := by
  intro c' fs' hf
  rw [h] at hf
  cases hf
  exact ⟨h1, h2, h3⟩

theorem of_map {i : Instr} {c : Nat} {o : Option (List Byte)} (h : i.hostFields = o.map (c, ·)) (h1 : 1 ≤ c)
    (h2 : c ≤ 26) (h3 : ∀ fs, o = some fs → fs.length ≤ 249) : Statement i := by
  cases o with
  | none => exact of_none h
  | some fs => exact of_some h h1 h2 (h3 fs rfl)

@[simp] theorem length_b1 (n : Nat) : (b1 n).length = 1 := rfl
@[simp] theorem length_b2 (n : Nat) : (b2 n).length = 2 := rfl
@[simp] theorem length_b4 (n : Nat) : (b4 n).length = 4 := rfl

theorem length_encOpt (f : α → List Byte) (k : Nat) (hk : ∀ a, (f a).length = k) (x : Option α) :
    (encOpt f x).length ≤ k + 1 := by
  cases x with
  | none => simp [encOpt]
  | some a => simp [encOpt, hk]; omega

theorem opt1 (x : Option Nat) : (encOpt b1 x).length ≤ 2 := length_encOpt b1 1 length_b1 x
theorem opt2 (x : Option Nat) : (encOpt b2 x).length ≤ 3 := length_encOpt b2 2 length_b2 x
theorem opt4 (x : Option Nat) : (encOpt b4 x).length ≤ 5 := length_encOpt b4 4 length_b4 x

theorem setStation (f : StationFields) : Statement (.setStation f) := by
  refine of_map rfl (by decide) (by decide) fun fs h => ?_
  simp only [stationBytes, Option.bind_eq_bind, Option.bind_eq_some_iff, Option.some.injEq] at h
  obtain ⟨_, -, _, -, _, -, rfl⟩ := h
  have h0 := opt1 f.area2
  have h1 := opt1 f.seekFuel
  have h2 := opt1 f.seekWash
  have h3 := opt1 f.seekBerth
  have h4 := opt1 f.seekExit
  simp only [List.length_append, length_b1]
  omega
theorem addLane (f : LaneFields) : Statement (.addLane f) := by
  refine of_map rfl (by decide) (by decide) fun fs h => ?_
  simp only [laneBytes, Option.bind_eq_bind, Option.bind_eq_some_iff, Option.some.injEq] at h
  obtain ⟨_, -, _, -, _, -, _, -, rfl⟩ := h
  have h0 := opt1 f.bias
  simp only [List.length_append, length_b1]
  omega
theorem addPump (f : PumpFields) : Statement (.addPump f) := by
  refine of_map rfl (by decide) (by decide) fun fs h => ?_
  simp only [pumpBytes, Option.bind_eq_bind, Option.bind_eq_some_iff, Option.some.injEq] at h
  obtain ⟨_, -, _, -, _, -, _, -, rfl⟩ := h
  have h0 := opt2 f.maxTurn
  simp only [List.length_append, length_b1, length_b2]
  omega
theorem setIsland (f : IslandFields) : Statement (.setIsland f) := by
  refine of_map rfl (by decide) (by decide) fun fs h => ?_
  simp only [islandBytes, Option.bind_eq_bind, Option.bind_eq_some_iff, Option.some.injEq] at h
  obtain ⟨_, -, _, -, rfl⟩ := h
  have h0 := opt1 f.bias
  have h1 := opt4 f.reserveDiesel
  have h2 := opt4 f.reserveGas
  have h3 := opt1 f.horizon
  have h4 := opt2 f.minFill
  have h5 := opt1 f.levelStep
  have h6 := opt1 f.aging
  have h7 := opt1 f.callTimeout
  have h8 := opt1 f.maxSkips
  have h9 := opt2 f.noFlow
  simp only [List.length_append, length_b1]
  omega
theorem addWash (f : WashFields) : Statement (.addWash f) := by
  refine of_map rfl (by decide) (by decide) fun fs h => ?_
  simp only [washBytes, Option.bind_eq_bind, Option.bind_eq_some_iff, Option.some.injEq] at h
  obtain ⟨_, -, _, -, _, -, rfl⟩ := h
  have h0 := opt1 f.bias
  have h1 := length_encOpt (fun m : BitVec 3 => b1 m.toNat) 1 (fun _ => rfl) f.enabled
  have h2 := opt1 f.nomRinse
  have h3 := opt1 f.nomStandard
  have h4 := opt1 f.nomFull
  have h5 := opt1 f.alpha
  have h6 := opt1 f.margin
  have h7 := opt1 f.startTimeout
  have h8 := opt1 f.callTimeout
  have h9 := opt1 f.maxSkips
  simp only [List.length_append, length_b1]
  omega
theorem setGate (f : GateFields) : Statement (.setGate f) := by
  refine of_map rfl (by decide) (by decide) fun fs h => ?_
  simp only [gateBytes, Option.bind_eq_bind, Option.bind_eq_some_iff, Option.some.injEq] at h
  obtain ⟨_, -, rfl⟩ := h
  have h0 := opt2 f.poll
  have h1 := opt1 f.window
  have h2 := opt1 f.refuel
  have h3 := opt1 f.defaultMin
  have h4 := opt1 f.callLead
  have h5 := opt1 f.grace
  simp only [List.length_append, length_b1]
  omega
theorem mapPoint (f : PointFields) : Statement (.mapPoint f) := by
  refine of_map rfl (by decide) (by decide) fun fs h => ?_
  simp only [pointBytes, Option.bind_eq_bind, Option.bind_eq_some_iff, Option.some.injEq] at h
  obtain ⟨_, -, _, -, _, -, _, -, rfl⟩ := h
  have h0 := opt2 f.dwell
  have h1 := length_encOpt encYesNo 1 (fun _ => rfl) f.repeats
  simp only [List.length_append, length_b1]
  omega
theorem setParameter (p : Param) (value : Nat) : Statement (.setParameter p value) := by
  refine of_some rfl (by decide) (by decide) ?_
  cases p <;> exact Nat.le_of_ble_eq_true rfl
theorem lock : Statement .lock :=
  of_some rfl (by decide) (by decide) (Nat.le_of_ble_eq_true rfl)
theorem setClock (minute : Nat) (seconds : Nat) : Statement (.setClock minute seconds) :=
  of_some rfl (by decide) (by decide) (Nat.le_of_ble_eq_true rfl)
theorem placeParked (lane : Nat) (bus : BusFields) : Statement (.placeParked lane bus) :=
  of_some rfl (by decide) (by decide) (Nat.le_of_ble_eq_true rfl)
theorem setStock (fuel : Fuel) (value : Nat) : Statement (.setStock fuel value) :=
  of_some rfl (by decide) (by decide) (Nat.le_of_ble_eq_true rfl)
theorem loadDuty (f : DutyFields) : Statement (.loadDuty f) := by
  refine of_some rfl (by decide) (by decide) ?_
  have h0 := opt1 f.minLevel
  have h1 := opt2 f.fleet
  simp only [dutyBytes, List.length_append, length_b1, length_b2]
  omega
theorem start : Statement .start :=
  of_some rfl (by decide) (by decide) (Nat.le_of_ble_eq_true rfl)
theorem dropDuty (duty : Nat) : Statement (.dropDuty duty) :=
  of_some rfl (by decide) (by decide) (Nat.le_of_ble_eq_true rfl)
theorem delivery (fuel : Fuel) (amount : Nat) : Statement (.delivery fuel amount) :=
  of_some rfl (by decide) (by decide) (Nat.le_of_ble_eq_true rfl)
theorem closeLane (lane : Nat) : Statement (.closeLane lane) :=
  of_some rfl (by decide) (by decide) (Nat.le_of_ble_eq_true rfl)
theorem openLane (lane : Nat) : Statement (.openLane lane) :=
  of_some rfl (by decide) (by decide) (Nat.le_of_ble_eq_true rfl)
theorem reopenPump (pump : Nat) : Statement (.reopenPump pump) :=
  of_some rfl (by decide) (by decide) (Nat.le_of_ble_eq_true rfl)
theorem reopenWash (wash : Nat) : Statement (.reopenWash wash) :=
  of_some rfl (by decide) (by decide) (Nat.le_of_ble_eq_true rfl)
theorem admitBus (bus : BusFields) : Statement (.admitBus bus) :=
  of_some rfl (by decide) (by decide) (Nat.le_of_ble_eq_true rfl)
theorem resolveAtPoint (fleet : Nat) (kind : PointKind) (index : Nat) : Statement (.resolveAtPoint fleet kind index) :=
  of_some rfl (by decide) (by decide) (Nat.le_of_ble_eq_true rfl)
theorem resolveReseek (fleet : Nat) : Statement (.resolveReseek fleet) :=
  of_some rfl (by decide) (by decide) (Nat.le_of_ble_eq_true rfl)
theorem resolveLeftYard (fleet : Nat) : Statement (.resolveLeftYard fleet) :=
  of_some rfl (by decide) (by decide) (Nat.le_of_ble_eq_true rfl)
theorem readRecord (fleet : Nat) : Statement (.readRecord fleet) :=
  of_some rfl (by decide) (by decide) (Nat.le_of_ble_eq_true rfl)
theorem readLane (lane : Nat) : Statement (.readLane lane) :=
  of_some rfl (by decide) (by decide) (Nat.le_of_ble_eq_true rfl)
theorem readApron : Statement .readApron :=
  of_some rfl (by decide) (by decide) (Nat.le_of_ble_eq_true rfl)
theorem readWashQueue (wash : Nat) : Statement (.readWashQueue wash) :=
  of_some rfl (by decide) (by decide) (Nat.le_of_ble_eq_true rfl)
theorem readDuty (duty : Nat) : Statement (.readDuty duty) :=
  of_some rfl (by decide) (by decide) (Nat.le_of_ble_eq_true rfl)
theorem readDuties : Statement .readDuties :=
  of_some rfl (by decide) (by decide) (Nat.le_of_ble_eq_true rfl)
theorem readSeekTable : Statement .readSeekTable :=
  of_some rfl (by decide) (by decide) (Nat.le_of_ble_eq_true rfl)
theorem readCounters : Statement .readCounters :=
  of_some rfl (by decide) (by decide) (Nat.le_of_ble_eq_true rfl)
theorem readLineSummary : Statement .readLineSummary :=
  of_some rfl (by decide) (by decide) (Nat.le_of_ble_eq_true rfl)
theorem readStatus : Statement .readStatus :=
  of_some rfl (by decide) (by decide) (Nat.le_of_ble_eq_true rfl)
theorem clearFlags (f : ClearFields) : Statement (.clearFlags f) :=
  of_some rfl (by decide) (by decide) (Nat.le_of_ble_eq_true rfl)
theorem takeNotice : Statement .takeNotice :=
  of_some rfl (by decide) (by decide) (Nat.le_of_ble_eq_true rfl)
theorem reset : Statement .reset :=
  of_some rfl (by decide) (by decide) (Nat.le_of_ble_eq_true rfl)
theorem unknownCommandCode (code : Byte) : Statement (.unknownCommandCode code) := of_none rfl
theorem resetAfterAnswer : Statement .resetAfterAnswer := of_none rfl
theorem hostByteReceived (byte : Byte) (framingFault : Bool) : Statement (.hostByteReceived byte framingFault) := of_none rfl
theorem hostInterbyteTimeout : Statement .hostInterbyteTimeout := of_none rfl
theorem hostAnswerSent : Statement .hostAnswerSent := of_none rfl
theorem resetPinAsserted : Statement .resetPinAsserted := of_none rfl
theorem resetPinReleased : Statement .resetPinReleased := of_none rfl
theorem powerUp : Statement .powerUp := of_none rfl
theorem opening (others : Option ArbKey) : Statement (.opening others) := of_none rfl
theorem frameCarried (bits : List Bool) : Statement (.frameCarried bits) := of_none rfl
theorem frameDamaged (cause : Damage) : Statement (.frameDamaged cause) := of_none rfl
theorem sendDamaged : Statement .sendDamaged := of_none rfl
theorem lineFollowBegin : Statement .lineFollowBegin := of_none rfl
theorem seekReceived : Statement .seekReceived := of_none rfl
theorem offerReceived : Statement .offerReceived := of_none rfl
theorem takenReceived : Statement .takenReceived := of_none rfl
theorem holdReceived : Statement .holdReceived := of_none rfl
theorem refuseReceived : Statement .refuseReceived := of_none rfl
theorem handoverReceived : Statement .handoverReceived := of_none rfl
theorem claimReceived : Statement .claimReceived := of_none rfl
theorem cancelReceived : Statement .cancelReceived := of_none rfl
theorem repinReceived : Statement .repinReceived := of_none rfl
theorem timeReceived : Statement .timeReceived := of_none rfl
theorem minuteRollover : Statement .minuteRollover := of_none rfl
theorem retryTimerExpiry (number : Nat) : Statement (.retryTimerExpiry number) := of_none rfl
theorem offerHoldExpiry (offer : OfferId) : Statement (.offerHoldExpiry offer) := of_none rfl
theorem awaitingHoldExpiry (number : Nat) : Statement (.awaitingHoldExpiry number) := of_none rfl
theorem answerTimerExpiry (handover : HandoverId) : Statement (.answerTimerExpiry handover) := of_none rfl
theorem holdIntervalEnd (handover : HandoverId) : Statement (.holdIntervalEnd handover) := of_none rfl
theorem rowScan (columns : BitVec 8) : Statement (.rowScan columns) := of_none rfl
theorem dwellTimerExpiry (row : Nat) (col : Nat) : Statement (.dwellTimerExpiry row col) := of_none rfl
theorem travelTimeout (fleet : Nat) : Statement (.travelTimeout fleet) := of_none rfl
theorem pumpCallTimeout (pump : Nat) : Statement (.pumpCallTimeout pump) := of_none rfl
theorem nozzleLift (pump : Nat) : Statement (.nozzleLift pump) := of_none rfl
theorem nozzleHang (pump : Nat) : Statement (.nozzleHang pump) := of_none rfl
theorem meterPulse (pump : Nat) : Statement (.meterPulse pump) := of_none rfl
theorem noFlowTimeout (pump : Nat) : Statement (.noFlowTimeout pump) := of_none rfl
theorem agingTimerExpiry : Statement .agingTimerExpiry := of_none rfl
theorem washCallTimeout (wash : Nat) : Statement (.washCallTimeout wash) := of_none rfl
theorem busy (wash : Nat) : Statement (.busy wash) := of_none rfl
theorem startTimeout (wash : Nat) : Statement (.startTimeout wash) := of_none rfl
theorem done (wash : Nat) : Statement (.done wash) := of_none rfl
theorem fault (wash : Nat) : Statement (.fault wash) := of_none rfl
theorem pollTimerExpiry (lineLow : Bool) : Statement (.pollTimerExpiry lineLow) := of_none rfl
theorem pollTransactionEnd (sda : List Bool) : Statement (.pollTransactionEnd sda) := of_none rfl
theorem tagWindowExpiry (arrivals : Bool) : Statement (.tagWindowExpiry arrivals) := of_none rfl
theorem signRecordSent : Statement .signRecordSent := of_none rfl
theorem plantInputReleased (wash : Nat) (input : PlantInput) : Statement (.plantInputReleased wash input) := of_none rfl
theorem i2cStartStopSeen (start : Bool) : Statement (.i2cStartStopSeen start) := of_none rfl
theorem secondsCount : Statement .secondsCount := of_none rfl

end Sys2Proof.Laws.RecordFits
end

