-- ==== Sys2Proof/Tests/Slice0.lean ====
section
/-! SUPPORT. Tests: the ill-formed terms that WellFormed refuses, worked examples of the spec in single steps, and for
every statement with hypotheses concrete states and operands that meet them. -/

namespace Sys2Proof.Tests

open Sys2Proof Sys2Proof.Machine

set_option Elab.async false

/-! ## WellFormed refuses what fits no field -/

def st0 : StationFields := ⟨none, none, none, none, none, none, none, none⟩
def la0 : LaneFields := ⟨none, none, none, none, none⟩
def pu0 : PumpFields := ⟨none, none, none, none, none⟩
def is0 : IslandFields := ⟨none, none, none, none, none, none, none, none, none, none, none, none⟩
def wa0 : WashFields := ⟨none, none, none, none, none, none, none, none, none, none, none, none, none⟩
def ga0 : GateFields := ⟨none, none, none, none, none, none, none⟩
def po0 : PointFields := ⟨none, none, none, none, none, none⟩
def b0 : BusFields := ⟨2240, 0, .diesel, 300, 90, .standard⟩
def du0 : DutyFields := ⟨418, 1010, 3, .diesel, none, none⟩

theorem test_wf_station : ∀ f ∈ [{ st0 with number := some 256 }, { st0 with area1 := some 256 },
    { st0 with area2 := some 256 }, { st0 with seekFuel := some 256 }, { st0 with seekWash := some 256 },
    { st0 with seekBerth := some 256 }, { st0 with seekExit := some 256 }], (Instr.setStation f).wf = false := by decide

theorem test_wf_lane : ∀ f ∈ [{ la0 with number := some 256 }, { la0 with depth := some 256 },
    { la0 with area := some 256 }, { la0 with bias := some 256 }], (Instr.addLane f).wf = false := by decide

theorem test_wf_pump : ∀ f ∈ [{ pu0 with index := some 256 }, { pu0 with pulses := some 65536 },
    { pu0 with rate := some 65536 }, { pu0 with maxTurn := some 65536 }], (Instr.addPump f).wf = false := by decide

theorem test_wf_island : ∀ f ∈ [{ is0 with capacity := some 256 }, { is0 with area := some 256 },
    { is0 with bias := some 256 }, { is0 with reserveDiesel := some 4294967296 },
    { is0 with reserveGas := some 4294967296 }, { is0 with horizon := some 256 }, { is0 with minFill := some 65536 },
    { is0 with levelStep := some 256 }, { is0 with aging := some 256 }, { is0 with callTimeout := some 256 },
    { is0 with maxSkips := some 256 }, { is0 with noFlow := some 65536 }], (Instr.setIsland f).wf = false := by decide

theorem test_wf_wash : ∀ f ∈ [{ wa0 with index := some 256 }, { wa0 with area := some 256 }, { wa0 with bias := some 256 },
    { wa0 with nomRinse := some 256 }, { wa0 with nomStandard := some 256 }, { wa0 with nomFull := some 256 },
    { wa0 with alpha := some 256 }, { wa0 with margin := some 256 }, { wa0 with startTimeout := some 256 },
    { wa0 with callTimeout := some 256 }, { wa0 with maxSkips := some 256 }, { wa0 with depth := some 256 }],
    (Instr.addWash f).wf = false := by decide

theorem test_wf_gate : ∀ f ∈ [{ ga0 with reader := some 256 }, { ga0 with poll := some 65536 },
    { ga0 with window := some 256 }, { ga0 with refuel := some 256 }, { ga0 with defaultMin := some 256 },
    { ga0 with callLead := some 256 }, { ga0 with grace := some 256 }], (Instr.setGate f).wf = false := by decide

theorem test_wf_point : ∀ f ∈ [{ po0 with row := some 256 }, { po0 with col := some 256 }, { po0 with index := some 256 },
    { po0 with dwell := some 65536 }], (Instr.mapPoint f).wf = false := by decide

theorem test_wf_commands : ∀ i ∈ [Instr.setParameter .retry 65536, .setParameter .wB 256, .setClock 65536 0,
    .setClock 0 256, .placeParked 256 b0, .placeParked 0 { b0 with fleet := 65536 }, .setStock .gas 4294967296,
    .loadDuty { du0 with number := 65536 }, .loadDuty { du0 with release := 65536 },
    .loadDuty { du0 with minLevel := some 256 }, .loadDuty { du0 with fleet := some 65536 }, .dropDuty 65536,
    .delivery .diesel 4294967296, .closeLane 256, .openLane 256, .reopenPump 256, .reopenWash 256,
    .admitBus { b0 with cls := 256 }, .admitBus { b0 with capacity := 65536 }, .admitBus { b0 with level := 256 },
    .resolveAtPoint 65536 .laneIn 0, .resolveAtPoint 1 .laneIn 256, .resolveReseek 65536, .resolveLeftYard 65536,
    .readRecord 65536, .readLane 256, .readWashQueue 256, .readDuty 65536, .unknownCommandCode 26],
    i.wf = false := by decide

theorem test_wf_events : ∀ i ∈ [Instr.frameCarried (List.replicate 412 true), .frameDamaged (.complete (List.replicate 412 true) true),
    .pollTransactionEnd (List.replicate 82 true), .retryTimerExpiry 256, .offerHoldExpiry ⟨⟨32, 0⟩, 1⟩,
    .offerHoldExpiry ⟨⟨0, 256⟩, 1⟩, .offerHoldExpiry ⟨⟨0, 0⟩, 4096⟩, .awaitingHoldExpiry 256, .answerTimerExpiry (.push 256),
    .answerTimerExpiry (.exit ⟨1, 0⟩ 4096), .holdIntervalEnd (.exit ⟨32, 0⟩ 1), .dwellTimerExpiry 8 0, .dwellTimerExpiry 0 8, .travelTimeout 4096,
    .pumpCallTimeout 4, .nozzleLift 4, .nozzleHang 4, .meterPulse 4, .noFlowTimeout 4, .washCallTimeout 2, .busy 2,
    .startTimeout 2, .done 2, .fault 2, .plantInputReleased 2 .busy], i.wf = false := by decide +kernel

/-- No row of the opcode table gives bits, so no word spells a command. -/
theorem test_no_word_spells_a_command : decodeTableWord 8 0xC3 = none := rfl

/-! ## A station with one resource of each kind -/

def isl : IslandCfg := ⟨6, 3, 0, 100000, 0, 90, 2000, 90, 20, 3, 2, 60⟩
def wcfg : WashCfg := ⟨0, 3, 0, 7#3, 4, 9, 14, 8, 10, 10, 3, 2, 4⟩
def gcfg : GateCfg := ⟨80, 250, 15, 90, 60, 15, 10⟩

def lay : Layout where
  station := some ⟨21, 3, none, .r62, 0, 0, 0, 0⟩
  lanes := [⟨5, 4, 0xFF#8, 3, 0⟩]
  pumps := [⟨1, .diesel, 100, 5000, 40000⟩]
  island := some isl
  washes := [wcfg]
  gate := some gcfg
  points := [⟨0, 0, .laneIn, 5, 30, false⟩, ⟨0, 1, .laneOut, 5, 30, false⟩, ⟨0, 2, .apronIn, 0, 30, false⟩,
    ⟨0, 3, .bay, 1, 30, false⟩, ⟨0, 4, .washIn, 0, 30, false⟩, ⟨0, 5, .washOut, 0, 30, true⟩,
    ⟨0, 6, .gateIn, 0, 30, false⟩, ⟨0, 7, .gateOut, 0, 30, false⟩]

/-- The station at minute 600 in the RUNNING phase, following the line. -/
def base : State where
  phase := .running
  layout := lay
  store := lay
  clock := { minute := 600, valid := true }
  yard := { takeUp lay {} with line := { following := true } }

def locked : State := { base with phase := .locked }
def config : State := { phase := .config, store := lay }

/-- The station with another yard. -/
def at_ (f : Yard → Yard) : State := { base with yard := f base.yard }

def bus (f : Nat) : Carried :=
  ⟨f, 0, .diesel, 300, 90, .full, .standard, .unmarked, some ⟨418, 1010⟩, [.berth], 500⟩

def held (f : Nat) (st : RecState) (loc : Loc) : State := at_ fun y => { y with records := [⟨bus f, st, loc⟩] }

def pooled (f : Frame) : State := at_ fun y => { y with line := { y.line with pool := [f] } }

def frm (source : Nat) (ref : SeekRef) (b : Body) : Frame := ⟨source, .station 21, ref, b⟩

def nextIs (o : Host.Outcome State Fault Refusal) (p : State → Bool) : Bool :=
  match o with
  | .next t => p t
  | _ => false

/-! ## Worked examples -/

def bs (r : Nat) : BusSummary := ⟨2240, 0, .diesel, 300, 90, .noWash, some r⟩

def berthLane (n d : Nat) (rs : List Nat) : Lane :=
  { cfg := ⟨n, d, 0xFF#8, 3, 0⟩, reservs := rs.map fun r => ⟨⟨1, 2⟩, r, some r, true⟩ }

def env0 : Env := base.env

/-- 4.2, choosing a lane: raw costs 85, 4 and 74. -/
theorem test_placement_costs :
    (berthCandidates env0 { lanes := [berthLane 3 6 [995, 1020, 1005], berthLane 5 4 [980, 1000], berthLane 7 8 []] }
      (bs 1010)).map (·.raw) = [85, 4, 74] := by decide +kernel

/-- 4.2, a clamped placement: raw costs 7038 and 4322. -/
theorem test_placement_clamped :
    (berthCandidates env0 { lanes := [berthLane 1 8 [1100, 1120, 1439, 1140], berthLane 4 4 [1200, 1300]] }
      (bs 980)).map (·.raw) = [7038, 4322] := by decide +kernel

def pump (i : Nat) (f : Fuel) (rate : Nat) (st : PumpState) (t : Turn) : Pump :=
  { cfg := ⟨i, f, 100, rate, 40000⟩, state := st, turn := some t }

def fuelYard (stock : Nat) : Yard where
  fuel :=
    { pumps := [pump 0 .diesel 5000 .fuelling ⟨1, 0, 0, 20000, 200000, 0, 0⟩,
        pump 1 .diesel 4000 .calling ⟨2, 0, 0, 16000, 40000, 0, 0⟩, pump 2 .gas 4000 .fuelling ⟨3, 0, 0, 16000, 0, 0, 0⟩]
      queue := [⟨4, .diesel, 0, 0, 18000⟩, ⟨5, .diesel, 1, 0, 12000⟩, ⟨6, .diesel, 3, 0, 20000⟩, ⟨7, .gas, 0, 0, 9000⟩]
      reservs := [⟨⟨1, 1⟩, 8, .diesel, false⟩]
      diesel := { stock := stock } }

def fuelBus (r : Nat) : BusSummary := ⟨2240, 0, .diesel, 250, 30, .noWash, some r⟩

/-- 4.3: the island offers 36; with a stock of 101000 it does not offer, but does for a bus close to its release. -/
theorem test_fuel_costs :
    let e : Env := { env0 with minute := 930 }
    (fuelCandidates e (fuelYard 300000) (fuelBus 1030)).map (·.raw) = [36]
    ∧ fuelCandidates e (fuelYard 101000) (fuelBus 1030) = []
    ∧ (fuelCandidates e (fuelYard 101000) (fuelBus 1010)).length = 1 := by decide +kernel

def washLanes : Yard where
  wash.lanes :=
    [{ cfg := wcfg, estRinse := 64, estStandard := 152, estFull := 224, state := .washing, current := some 1
       called := some ⟨1, .standard, 0⟩, queue := [⟨2, .full, 0⟩], washMs := 300000 },
     { cfg := { wcfg with index := 1 }, estRinse := 64, estStandard := 144, estFull := 240
       queue := [⟨3, .standard, 0⟩, ⟨4, .standard, 0⟩, ⟨5, .standard, 0⟩] }]

/-- 4.4: 76 and 108; with slack 25 neither lane is eligible. -/
theorem test_wash_costs :
    let e : Env := { env0 with minute := 960 }
    let b (r : Nat) : BusSummary := ⟨2240, 0, .diesel, 250, 30, .full, some r⟩
    (washCandidates e washLanes (b 1010)).map (·.raw) = [76, 108] ∧ washCandidates e washLanes (b 985) = [] := by
  decide +kernel

def front (n f : Nat) (st : PosState) (cl : Bool) : Lane :=
  { cfg := ⟨n, 6, 0xFF#8, 3, 0⟩, closed := cl, positions := [⟨f, st⟩] }

def parked (f c l : Nat) (fm : FuelMark) (w : Prog) (wm : WashMark) (p : Option Pin) (n : Nat) : Record :=
  ⟨⟨f, c, .diesel, 300, l, fm, w, wm, p, [], 0⟩, .parked, .lane n⟩

/-- 4.5: raw costs 1654, 1887 and 320 for the fronts of lanes 2, 4 and 6. -/
theorem test_exit_costs :
    (exitCandidates
      { records := [parked 877 0 90 .full .standard .unmarked none 6, parked 902 0 90 .full .noWash .unmarked none 9,
          parked 903 0 90 .full .noWash .unmarked none 11,
          parked 1740 1 80 .partly .noWash .unmarked (some ⟨398, 985⟩) 4,
          parked 2051 0 95 .full .full .done (some ⟨430, 1090⟩) 2]
        lanes := [front 2 2051 .parked false, front 4 1740 .parked false, front 6 877 .parked false,
          front 9 902 .calledOut false, front 11 903 .parked true] }
      ⟨412, 1000, 3, .diesel, 60, some 1533⟩).map (·.raw) = [1654, 1887, 320] := by decide +kernel

/-- 7.4: 660 seconds are 176 sixteenths, and the estimate moves from 144 to 152, then 158, then 162. -/
theorem test_wash_estimate :
    measured 660 = 176 ∧ newEstimate 144 8 176 = 152 ∧ newEstimate 152 8 176 = 158 ∧ newEstimate 158 8 176 = 162 := by
  decide

/-- 5.2 of the scope: at minute 1010 a release of 1090 has slack 80 and one of 1000 is past. -/
theorem test_slack : slackTo 1010 1090 = 80 ∧ slackTo 1010 1000 = 0 ∧ laterThan 1 1439 = true ∧ laterThan 1439 1 = false := by
  decide

/-! ## Worked examples, one step each -/

def store4 (a5 : Nat) (pts : List PointCfg) : State where
  store := { station := some ⟨26, 3, none, .r62, 0, 0, 0, 0⟩
             lanes := [⟨4, 10, 1#8, 3, 0⟩, ⟨5, 8, 1#8, a5, 0⟩]
             points := [⟨0, 0, .laneIn, 4, 30, false⟩, ⟨0, 1, .laneOut, 4, 30, false⟩, ⟨0, 2, .laneIn, 5, 30, false⟩]
               ++ pts }

/-- 10.7's LOCK example: check 4, then check 8, then DONE. -/
theorem test_lock_example :
    nextIs (exec .lock (store4 3 [])) (fun t => t.host.answer == some ⟨9, .conflict, [4]⟩ && t.phase == .config)
    ∧ nextIs (exec .lock (store4 2 [⟨6, 2, .laneOut, 5, 30, false⟩])) (fun t => t.host.answer == some ⟨9, .conflict, [8]⟩)
    ∧ nextIs (exec .lock (store4 3 [⟨6, 2, .laneOut, 5, 30, false⟩])) (fun t => t.phase == .locked) := by
  decide +kernel

/-- Lane 5 of the example of 5.9 with the buses 1402 and 1655 parked. -/
def night (rs : List LaneRes) (y : Yard) : Yard :=
  { y with
    records := [⟨{ bus 1402 with pin := some ⟨405, 980⟩ }, .parked, .lane 5⟩,
      ⟨{ bus 1655 with pin := some ⟨409, 1000⟩ }, .parked, .lane 5⟩]
    lanes := [{ cfg := ⟨5, 4, 0xFF#8, 3, 0⟩, positions := [⟨1402, .parked⟩, ⟨1655, .parked⟩], reservs := rs }] }

def seek57 : Frame := ⟨12, .berthGroup, ⟨12, 57⟩, .seek 0 [] (.push .berth (bs 1010))⟩

/-- 3.5 and 4.2: the SEEK 12/57 for bus 2240 is answered with lane 5 at cost 4. -/
theorem test_seek_is_offered :
    nextIs (exec .seekReceived (at_ fun y => night [] { y with line := { y.line with pool := [seek57] } })) (fun t =>
      t.yard.line.queue.map (·.frame) == [⟨21, .station 12, ⟨12, 57⟩, .offer 4 .berth 3 none⟩]) := by decide +kernel

def handover57 : Frame := frm 12 ⟨12, 57⟩ (.handover (bus 2240))

def won57 (y : Yard) : Yard :=
  { night [⟨⟨12, 57⟩, 2240, some 1010, false⟩] y with
    line := { y.line with pool := [handover57] }
    seek := { y.seek with offers := [⟨⟨12, 57⟩, .berth, 2240, .lane 5, 4, .held, some 2000, 0⟩] } }

/-- 5.9, step 2: the HANDOVER is taken, the reservation is COMMITTED, and TAKEN is queued. -/
theorem test_handover_is_taken :
    nextIs (exec .handoverReceived (at_ won57)) (fun t =>
      t.yard.line.queue.map (·.frame) == [⟨21, .station 12, ⟨12, 57⟩, .answer .taken 2240⟩]
      && (t.yard.lane? 5).map (·.reservs) == some [⟨⟨12, 57⟩, 2240, some 1010, true⟩]
      && (t.yard.rec? 2240).map (fun r => (r.state, r.loc)) == some (.expected, .lane 5)) := by decide +kernel

/-- The scanner with one contact of row 0 about to change. -/
def about (col : Nat) (occ : Bool) (s : State) : State :=
  { s with scan := { row := 0, contacts := (List.replicate 64 {}).set col ⟨occ, 3⟩ } }

def coming (y : Yard) : Yard :=
  let y := night [⟨⟨12, 57⟩, 2240, some 1010, true⟩] y
  { y with
    records := insertBy (·.bus.fleet) ⟨bus 2240, .expected, .lane 5⟩ y.records
    points := y.points.map fun p => if p.cfg.kind = .laneIn then { p with queue := [⟨2240, some 480⟩] } else p }

/-- 5.9, step 6: the fourth occupied reading at LANE_IN parks bus 2240 at the rear. -/
theorem test_arrival_parks :
    nextIs (exec (.rowScan 0xFE) (about 0 false (at_ coming))) (fun t =>
      (t.yard.lane? 5).map (·.positions) == some [⟨1402, .parked⟩, ⟨1655, .parked⟩, ⟨2240, .parked⟩]
      && (t.yard.rec? 2240).map (fun r => (r.state, r.bus.itinerary)) == some (.parked, [])) := by decide +kernel

/-- 5.9, step 10: a CLEAR at LANE_OUT with no call-out: ADRIFT and UNPLANNED_EXIT. -/
theorem test_unplanned_exit :
    nextIs (exec (.rowScan 0xFF) (about 1 true (at_ (night [])))) (fun t =>
      (t.yard.rec? 1402).map (fun r => (r.state, r.loc)) == some (.adrift, .nowhere)
      && t.yard.notices == [⟨.unplannedExit, 600, some 1402, some (.lane 5), []⟩]) := by decide +kernel

/-- Bus 2615 of the example of 6.10 at pump 1. -/
def turn (st : PumpState) (pulses : Nat) (y : Yard) : Yard :=
  { y with
    records := [⟨⟨2615, 0, .diesel, 300, 40, .unmarked, .full, .unmarked, some ⟨418, 1030⟩, [.fuel, .wash, .berth], 500⟩,
      .inService, .pump 1⟩]
    fuel := { y.fuel with
      pumps := [{ cfg := ⟨1, .diesel, 100, 5000, 40000⟩, state := st, enable := true, timer := some 60000
                  turn := some ⟨2615, 5, 0, 18000, 0, pulses, pulses⟩ }]
      diesel := ⟨500000, 600000, 100000, false, false⟩ } }

/-- 6.10, step 6: pulse 18000 reaches the target and the enable goes off. -/
theorem test_pulse_reaches_target :
    nextIs (exec (.meterPulse 1) (at_ (turn .fuelling 17999))) (fun t =>
      (t.yard.pump? 1).map (fun p => (p.enable, p.turn.map (·.dispensed))) == some (false, some 18000))
    ∧ nextIs (exec (.meterPulse 1) (at_ (turn .fuelling 17998))) (fun t =>
      (t.yard.pump? 1).map (·.enable) == some true) := by decide +kernel

/-- 6.10, step 8: the hang charges 18043 and the bus, at 100 % and marked FULL, seeks its wash. -/
theorem test_hang_ends_turn :
    nextIs (exec (.nozzleHang 1) (at_ (turn .fuelling 18043))) (fun t =>
      t.yard.fuel.diesel == ⟨481957, 600000, 118043, false, false⟩
      && (t.yard.rec? 2615).map (fun r => (r.bus.level, r.bus.fuelMark, r.bus.itinerary, r.state, r.loc))
        == some (100, .full, [.wash, .berth], .seeking, .pump 1)) := by decide +kernel

def apron (pump0 : PumpState) (f : Nat) (y : Yard) : Yard :=
  { y with
    records := [⟨bus 1301, .queued, .apron⟩, ⟨bus 1322, .called, .apron⟩, ⟨bus 1340, .queued, .apron⟩,
      ⟨bus 1365, .queued, .apron⟩]
    fuel := { y.fuel with
      pumps := [{ cfg := ⟨1, .diesel, 100, 5000, 40000⟩, state := pump0, turn := some ⟨f, 1, 0, 3000, 0, 0, 0⟩
                  timer := some 5 }]
      queue := [⟨1301, .diesel, 3, 0, 18000⟩, ⟨1340, .diesel, 1, 0, 18000⟩, ⟨1365, .gas, 0, 0, 18000⟩]
      diesel := { stock := 900000 } } }

/-- 6.10, levels, step 2: the skipped bus goes to the tail with one skip, and 1340 is called next. -/
theorem test_pump_skip :
    nextIs (exec (.pumpCallTimeout 1) (at_ (apron .calling 1322))) (fun t =>
      t.yard.fuel.queue.map (fun x => (x.fleet, x.level, x.skips)) == [(1301, 3, 0), (1365, 0, 0), (1322, 1, 1)]
      && (t.yard.pump? 1).map (fun p => (p.state, p.turn.map (·.fleet))) == some (.calling, some 1340)
      && t.yard.notices == [⟨.pumpSkip, 600, some 1322, some (.pump 1), [1]⟩]) := by decide +kernel

/-- The two wash lanes of the example of 7.8. -/
def hall : State :=
  let w (i d : Nat) (m : BitVec 3) : WashCfg := { wcfg with index := i, depth := d, enabled := m }
  let p (c : Nat) (k : PointKind) (i : Nat) : Point := { cfg := ⟨1, c, k, i, 30, false⟩ }
  at_ fun y => { y with
    records := [⟨{ bus 2615 with itinerary := [.wash, .berth] }, .inService, .wash 0⟩,
      ⟨{ bus 2702 with wash := .full, pin := some ⟨4, 1000⟩, itinerary := [.wash, .berth] }, .expected, .wash 0⟩,
      ⟨{ bus 2719 with pin := none, itinerary := [.wash, .berth] }, .expected, .wash 0⟩]
    wash := { y.wash with lanes :=
      [{ (w 0 4 7).newLane with state := .washing, current := some 2615, called := some ⟨2615, .standard, 0⟩
                                queue := [⟨2702, .full, 0⟩, ⟨2719, .standard, 0⟩] },
       { (w 1 2 3).newLane with reservs := [⟨⟨3, 3⟩, 99⟩] }] }
    points := [{ p 0 .washIn 0 with queue := [⟨2702, none⟩, ⟨2719, none⟩] }, p 1 .washOut 0, p 2 .washIn 1,
      p 3 .washOut 1] }

/-- 7.8, steps 1 to 4: the fault, the queue handed on, and lane 1's call at STANDARD. -/
theorem test_wash_fault :
    nextIs (exec (.fault 0) hall) (fun t =>
      t.yard.wash.lanes.map (fun l => (l.state, l.current, l.called.map (·.fleet), l.queue.length, l.reservs.length))
        == [(.out, some 2615, none, 0, 0), (.calling, none, some 2702, 0, 1)]
      && (t.yard.rec? 2615).map (fun r => (r.bus.washMark, r.bus.itinerary, r.state)) == some (.aborted, [.berth], .seeking)
      && (t.yard.rec? 2702).map (fun r => (r.bus.wash, r.state, r.loc)) == some (.standard, .called, .wash 1)
      && (t.yard.rec? 2719).map (fun r => (r.state, r.loc)) == some (.seeking, .wash 0)
      && t.yard.wash.faultList == [2719]) := by decide +kernel

/-- The gate of 8.12 while it awaits bus 2240 for duty 412. -/
def morning (y : Yard) : Yard :=
  { y with
    line := { y.line with pool := [frm 23 ⟨21, 140⟩ (.handover { bus 2240 with itinerary := [.exit] })] }
    gate := { y.gate with
      duties := [⟨412, 1000, 3, .diesel, 60, .calling false false⟩, ⟨418, 1010, 3, .diesel, 60, .pinned⟩,
        ⟨430, 1090, 3, .diesel, 60, .pinned⟩]
      pins := [⟨412, 1533⟩, ⟨418, 2240⟩, ⟨430, 2051⟩] }
    seek := { y.seek with table := [{ number := 140, subject := .duty 412, state := .awaiting, offered := some 2240
                                      winner := some ⟨23, 1734, 3⟩, timer := some 2000 }] } }

/-- 8.12, step 4: 2240 is OUTBOUND for 412, and 1533 is pinned to 418. -/
theorem test_substitution :
    nextIs (exec .handoverReceived (at_ morning)) (fun t =>
      t.yard.gate.pins == [⟨418, 1533⟩, ⟨430, 2051⟩]
      && (t.yard.duty? 412).map (·.state) == some (.outbound 2240)
      && (t.yard.rec? 2240).map (fun r => (r.state, r.loc, r.bus.pin)) == some (.outbound, .gate, some ⟨412, 1000⟩)
      && t.yard.line.queue.map (·.frame.body) == [.answer .taken 2240, .repin 1533 (some ⟨418, 1010⟩)]) := by
  decide +kernel

/-- 2.10: TIME(601) at minute 600 is adopted, with seconds 0 and 601 as the seen minute. -/
theorem test_time_is_adopted :
    nextIs (exec .timeReceived (pooled ⟨3, .all, ⟨3, 0⟩, .time 601⟩)) (fun t =>
      t.clock == ⟨601, 0, true, some 601, 0⟩ && t.yard.line.cnt.timeAdopted == 1) := by decide +kernel

/-- 2.10: the rollover to 601 queues TIME(601), and none once 601 was seen. -/
theorem test_rollover :
    nextIs (exec .minuteRollover base) (fun t =>
      t.yard.line.queue.map (·.frame.body) == [.time 601] && t.clock.minute == 601)
    ∧ nextIs (exec .minuteRollover { base with clock := { base.clock with seen := some 601 } }) (fun t =>
      t.yard.line.queue == []) := by decide +kernel

/-- The tag of bus 1187: diesel, 35 %, STANDARD wash, capacity 200, class 0 (8.2, 1.7). -/
def tag1187 : Vector Byte 8 := #v[0x4A, 0x31, 0x60, 0xC8, 0x23, 0, 0, 0xC6]

/-- SDA in a transaction with the reader 80 (1010000, read) that acknowledges and sends eight bytes, as R160 orders it:
seven acknowledged by the poller, the eighth not. -/
def sdaOf (t : Vector Byte 8) : List Bool :=
  [true, false, true, false, false, false, false, true, false]
    ++ (t.toList.take 7).flatMap (fun b => natBits 8 b.toNat ++ [false]) ++ natBits 8 t[7].toNat ++ [true]

/-- R160: the record, no acknowledge, and a first address bit read low. -/
theorem test_poll_outcomes :
    pollOutcome 80 (sdaOf tag1187) = some (.tag tag1187)
    ∧ pollOutcome 80 [true, false, true, false, false, false, false, true, true] = some .noTag
    ∧ pollOutcome 80 [false] = some .arbitrationLost := by decide +kernel

/-- R160: with no acknowledge a stop and no data clock; a lost arbitration puts nothing more on the bus; a record has its
64 data clocks and a stop. -/
theorem test_poll_bus :
    (busDriven 80 [true, false, true, false, false, false, false, true, true]).drop 9 = [.readerAck, .stop]
    ∧ busDriven 80 [false] = [.start, .send true]
    ∧ (busDriven 80 (sdaOf tag1187)).count .readerBit = 64
    ∧ (busDriven 80 (sdaOf tag1187)).getLast? = some .stop := by decide +kernel

/-- 1.7, step 1: the tag becomes a record at the gate that seeks FUEL. -/
theorem test_tag_becomes_record :
    decodeTag tag1187 = .good ⟨1187, 0, .diesel, 200, 35, .standard⟩
    ∧ nextIs (exec (.pollTransactionEnd (sdaOf tag1187))
        (at_ fun y => { y with gate := { y.gate with polling := true } })) (fun t =>
      (t.yard.rec? 1187).map (fun r => (r.state, r.loc, r.bus.itinerary))
        == some (.seeking, .gate, [.fuel, .wash, .berth])
      && t.yard.seek.table.map (·.subject) == [.bus 1187 .fuel]) := by decide +kernel

/-- 9.4's example, 652:00: RESOLVE AT POINT LANE_IN parks the stray bus. -/
theorem test_resolve_parks :
    nextIs (exec (.resolveAtPoint 2710 .laneIn 5) (held 2710 .stray .nowhere)) (fun t =>
      t.host.answer == some ⟨22, .done, []⟩
      && (t.yard.rec? 2710).map (fun r => (r.state, r.loc, r.bus.itinerary)) == some (.parked, .lane 5, [])) := by
  decide +kernel

/-! ## Witnesses: states and operands that meet the hypotheses of the statements, clause by clause -/

def edge : State :=
  { base with
    clock := ⟨1439, 59, true, some 1439, 0⟩
    scan := ⟨7, List.replicate 64 ⟨true, 16⟩⟩ }

def recs (n : Nat) (y : Yard) : Yard :=
  { y with records := (List.range n).map fun i => ⟨bus (i + 1), .parked, .lane 5⟩ }

def aDuty (n : Nat) (st : DutyState) : Duty := ⟨n, 1010, 3, .diesel, 60, st⟩

def duties (n : Nat) (y : Yard) : Yard :=
  { y with gate := { y.gate with duties := (List.range n).map fun i => aDuty (i + 1) .unpinned } }

def oneDuty (st : DutyState) (ps : List Pair) : State :=
  at_ fun y => { y with gate := { y.gate with duties := [aDuty 9999 st], pins := ps } }

def ref1 : SeekRef := ⟨12, 57⟩

def slot (r : TxReq) (b : Body) (sends : Nat) (sending : Bool) : TxSlot :=
  ⟨r, ⟨21, .all, ⟨21, 7⟩, b⟩, sends, sending, false⟩

def crowded : State := at_ fun y => { recs 96 (duties 256 y) with
  seeking := [1, 2, 3]
  line := { y.line with
    queue := List.replicate 8 (slot (.time 601) (.time 601) 0 false)
    pool := List.replicate 4 (frm 12 ref1 (.time 1439)) }
  seek := { y.seek with
    table := (List.range 8).map fun i => { number := i, subject := .bus 1 .berth, excl := [0, 1, 30, 31] }
    offers := List.replicate 8 ⟨ref1, .berth, 2240, .lane 5, 4, .held, none, 0⟩
    lapsed := List.replicate 8 ⟨ref1, .berth, .lane 5, 2240⟩
    taken := List.replicate 8 ⟨ref1, 2240⟩ }
  points := y.points.map fun p => { p with queue := (List.range 8).map fun i => ⟨i + 1, none⟩ }
  lanes := [{ cfg := ⟨5, 4, 0xFF#8, 3, 0⟩, reservs := [⟨ref1, 1, none, true⟩, ⟨ref1, 2, none, false⟩] }]
  notices := List.replicate 32 ⟨.intruder, 0, none, none, []⟩ }

/-- A station whose lane, apron and wash lane are full, each with a HELD offer behind one of its places. -/
def placed : State := at_ fun y => { y with
  lanes := [{ cfg := ⟨5, 4, 0xFF#8, 3, 0⟩, positions := [⟨1, .parked⟩, ⟨2, .parked⟩]
              reservs := [⟨ref1, 3, none, true⟩, ⟨ref1, 4, none, false⟩] }]
  fuel := { y.fuel with
    queue := (List.range 4).map fun i => ⟨i + 10, .diesel, 0, 0, 2000⟩
    reservs := [⟨ref1, 5, .diesel, true⟩, ⟨ref1, 6, .diesel, false⟩] }
  wash := { y.wash with lanes := [{ wcfg.newLane with
    queue := [⟨7, .full, 0⟩, ⟨8, .rinse, 0⟩, ⟨9, .rinse, 0⟩], reservs := [⟨ref1, 4⟩] }] }
  points := y.points.map fun p => match p.cfg.kind with
    | .laneIn => { p with queue := [⟨3, none⟩] }
    | .apronIn => { p with queue := [⟨5, none⟩] }
    | .washIn => { p with queue := [⟨7, none⟩, ⟨8, none⟩, ⟨9, none⟩] }
    | _ => p
  seek := { y.seek with offers := [⟨ref1, .berth, 4, .lane 5, 4, .held, none, 0⟩,
    ⟨ref1, .fuel, 6, .apron .diesel, 4, .held, none, 0⟩, ⟨ref1, .wash, 4, .wash 0, 4, .held, none, 0⟩] } }

theorem witness_IdleStepLetsTimePass :
    (let s := at_ fun y => { y with fuel := { y.fuel with aging := some 0 } }
     s.pending = [] ∧ s.due = some .agingTimerExpiry)
    ∧ (let s : State := { pinLow := true }; s.pending = [] ∧ s.inReset = true)
    ∧ (base.pending = [] ∧ base.inReset = false ∧ base.due = none) := by decide +kernel

def resetting : State := { base with host := { resetPending := true, answer := some ⟨26, .done, []⟩ } }

theorem witness_ResetBringsTheStateTheSpecSays :
    ({ base with pinLow := true } : State).pinLow = true
    ∧ (resetting.inReset = false ∧ resetting.host.resetPending = true ∧ resetting.host.answer.isSome = true) := by
  decide +kernel

theorem witness_InputsOutsideTheirTimeChangeNothing :
    (({ supplyLow := true } : State).inReset = true ∧ Instr.lock ≠ .resetPinAsserted ∧ Instr.lock ≠ .resetPinReleased
      ∧ Instr.lock ≠ .powerUp)
    ∧ (runningOnly .seekReceived = true ∧ locked.phase ≠ .running) := by decide +kernel

theorem witness_StepKeepsRegistersInRange : edge.registersInRange ∧ ∃ t, step edge = .next t :=
  ⟨⟨⟨by decide, by decide, fun m h => by cases h; decide⟩, ⟨by decide, by decide +kernel, by decide +kernel⟩,
    fun _ h => by cases h⟩, _, rfl⟩

theorem witness_StepKeepsTheLayoutHeld : base.layoutHeld ∧ ∃ t, step base = .next t :=
  ⟨by unfold State.layoutHeld; decide +kernel, _, rfl⟩

theorem witness_StepKeepsTheCustodyTable : crowded.yard.custodyKept ∧ ∃ t, step crowded = .next t :=
  ⟨by unfold Yard.custodyKept; decide +kernel, _, rfl⟩

theorem placed_placesKept : placed.placesKept := by
  have hs : placed.yard.seek.offers.filter (·.state == .held) = [⟨ref1, .berth, 4, .lane 5, 4, .held, none, 0⟩,
    ⟨ref1, .fuel, 6, .apron .diesel, 4, .held, none, 0⟩, ⟨ref1, .wash, 4, .wash 0, 4, .held, none, 0⟩] := by decide +kernel
  unfold State.placesKept
  simp only [hs]
  refine ⟨by decide +kernel, by decide +kernel, by decide +kernel, ?_, by decide +kernel, ?_, by decide +kernel, ?_, ?_, ?_⟩
  · intro n l hl
    have hk : ∀ l ∈ placed.yard.lanes, l.cfg.number = 5 ∧ l.reservs = [⟨ref1, 3, none, true⟩, ⟨ref1, 4, none, false⟩] := by
      decide +kernel
    obtain ⟨h1, h2⟩ := hk l (List.mem_of_find?_eq_some hl)
    obtain rfl : 5 = n := by simpa [h1] using List.find?_some hl
    rw [h2]
    decide +kernel
  · intro w ref f
    by_cases h : w = 0 ∧ ref = ref1 ∧ f = 4
    · obtain ⟨rfl, rfl, rfl⟩ := h
      decide +kernel
    · rw [List.filter_eq_nil_iff.mpr]
      · cases hl : placed.yard.washLane? w with
        | none => rfl
        | some l =>
          have hk : ∀ l ∈ placed.yard.wash.lanes, l.cfg.index = 0 ∧ l.reservs = [⟨ref1, 4⟩] := by decide +kernel
          obtain ⟨h1, h2⟩ := hk l (List.mem_of_find?_eq_some hl)
          obtain rfl : 0 = w := by simpa [h1] using List.find?_some hl
          have h3 : (ref1 == ref && 4 == f) = false := by
            simp only [Bool.and_eq_false_imp, beq_iff_eq, beq_eq_false_iff_ne]
            exact fun a b => h ⟨rfl, a.symm, b.symm⟩
          simp [h2, List.filter, h3]
      · intro o ho
        simp only [List.mem_cons, List.not_mem_nil, or_false] at ho
        rcases ho with rfl | rfl | rfl <;> simp
        rintro rfl rfl rfl
        exact h ⟨rfl, rfl, rfl⟩
  · intro n p hp x hx
    have hk : ∀ p ∈ placed.yard.points, p.cfg.kind = .laneIn → p.cfg.index = 5 ∧ p.queue = [⟨3, none⟩] := by decide +kernel
    have hi := List.find?_some hp
    obtain ⟨h1, h2⟩ := hk p (List.mem_of_find?_eq_some hp) (by simp_all [Point.is])
    obtain rfl : n = 5 := by simp_all [Point.is]
    rw [h2, List.mem_singleton] at hx
    subst hx
    exact ⟨_, rfl, ⟨ref1, 3, none, true⟩, by decide +kernel⟩
  · intro n p hp x hx
    have hk : ∀ p ∈ placed.yard.points, p.cfg.kind = .apronIn → p.cfg.index = 0 ∧ p.queue = [⟨5, none⟩] := by decide +kernel
    have hi := List.find?_some hp
    obtain ⟨h1, h2⟩ := hk p (List.mem_of_find?_eq_some hp) (by simp_all [Point.is])
    rw [h2, List.mem_singleton] at hx
    subst hx
    exact ⟨by simp_all [Point.is], ⟨ref1, 5, .diesel, true⟩, by decide +kernel⟩
  · intro h
    cases h

theorem witness_StepKeepsTheListBounds :
    (crowded.yard.withinBounds ∧ ∃ t, step crowded = .next t)
    ∧ (placed.yard.withinBounds ∧ placed.placesKept ∧ ∃ t, step placed = .next t) :=
  ⟨⟨by unfold Yard.withinBounds; decide +kernel, _, rfl⟩,
    by unfold Yard.withinBounds; decide +kernel, placed_placesKept, _, rfl⟩

theorem witness_LayoutIsFixedUntilReset : base.phase ≠ .config ∧ ∃ t, exec .takeNotice base = .next t :=
  ⟨by decide +kernel, _, rfl⟩

theorem witness_HostRecordIsReadBackAsItsCommand :
    (Instr.setParameter .retry 300).wf = true ∧ (Instr.setParameter .retry 300).hostFields = some (8, [8, 1, 44]) := by
  decide +kernel

theorem witness_BytesOfARecordCarryItOut :
    State.reset.inReset = false ∧ State.reset.host.inProgress = none ∧ State.reset.host.waiting = []
    ∧ State.reset.host.answer = none ∧ (List.replicate 249 (0 : Byte)).length ≤ 249 := by decide +kernel

theorem witness_EveryCommandIsAnsweredAndRefusalsChangeNothing :
    Instr.lock.hostFields = some (9, []) ∧ State.reset.ready := by
  unfold State.ready; decide +kernel

/-- The codes a phase takes, as the statement lists them. -/
def takes (code : Nat) : Phase → Prop
  | .config => code ≤ 10 ∨ 23 ≤ code
  | .locked => (10 ≤ code ∧ code ≤ 14) ∨ 23 ≤ code
  | .running => code = 12 ∨ code = 13 ∨ 15 ≤ code

theorem witness_UnknownAndOutOfPhaseCommandsAreRefused :
    (((Instr.placeParked 0 b0).hostFields.map (·.1) = some 11 ∧ config.ready ∧ ¬ takes 11 config.phase)
      ∧ (Instr.lock.hostFields = some (9, []) ∧ locked.ready ∧ ¬ takes 9 locked.phase)
      ∧ ((Instr.dropDuty 1).hostFields.map (·.1) = some 15 ∧ locked.ready ∧ ¬ takes 15 locked.phase)
      ∧ (Instr.start.hostFields = some (14, []) ∧ base.ready ∧ ¬ takes 14 base.phase))
    ∧ ((0 : Byte).toNat = 0 ∧ 26 < (27 : Byte).toNat ∧ base.ready) := by
  simp only [State.ready, takes, config, locked, base]; decide +kernel

def answering (rest : List (List Byte)) : State :=
  { base with host := { answer := some ⟨9, .done, []⟩, waiting := rest } }

theorem witness_HostLinkEvents :
    (base.inReset = false ∧ base.host.inProgress = none ∧ ((true = true) ∨ (0xC3#8 : Byte) ≠ 0xC3#8))
    ∧ (let s : State := { base with host := { waiting := [List.replicate 255 0] } }
       s.inReset = false ∧ s.host.inProgress = none ∧ s.host.used < 256)
    ∧ ({ base with host := { inProgress := some [0xC3] } } : State).host.inProgress.isSome = true
    ∧ ((answering []).inReset = false ∧ (answering []).host.answer.isSome = true
      ∧ (answering []).host.resetPending = false ∧ (answering []).host.waiting = [])
    ∧ (answering [hostRecord 25 []]).host.waiting = hostRecord 25 [] :: []
    ∧ (Instr.lock.wf = true ∧ Instr.lock.hostFields = some (9, [])
      ∧ (answering [List.replicate 251 0]).host.used + (hostRecord 9 []).length ≤ 256
      ∧ 256 < (answering [List.replicate 252 0]).host.used + (hostRecord 9 []).length) := by decide +kernel

theorem witness_LaneItemsPumpsPointsAndParametersFillTheStore : State.reset.ready ∧ State.reset.phase = .config := by
  unfold State.ready; decide +kernel

theorem witness_StationIslandWashAndGateFillTheStore : config.ready ∧ config.phase = .config := by
  unfold State.ready; decide +kernel

theorem witness_LockFixesTheLayout :
    config.ready ∧ config.phase = .config ∧ ∀ k, 1 ≤ k → k ≤ 10 → config.store.check k = true :=
  ⟨⟨rfl, rfl, rfl⟩, rfl, fun k h1 h2 => by interval_cases k <;> decide +kernel⟩

def failing (l : Layout) : State := { phase := .config, store := l }

theorem witness_LockNamesTheFirstFailedOfTenChecks :
    (let s := failing {}; s.ready ∧ s.phase = .config ∧ s.store.check 1 = false)
    ∧ (let s := failing { lay with washes := [{ wcfg with area := 2 }] }
       s.ready ∧ s.store.check 8 = false ∧ ∀ j ∈ [1, 2, 3, 4, 5, 6, 7], s.store.check j = true)
    ∧ (let s := failing { lay with lanes := [⟨5, 12, 0#8, 3, 0⟩] }
       s.ready ∧ s.store.check 9 = false ∧ ∀ j ∈ [1, 2, 3, 4, 5, 6, 7, 8], s.store.check j = true)
    ∧ (let s := failing { lay with lanes := [⟨5, 97, 1#8, 3, 0⟩] }
       s.ready ∧ s.store.check 10 = false ∧ ∀ j ∈ [1, 2, 3, 4, 5, 6, 7, 8, 9], s.store.check j = true) := by
  simp only [State.ready]; decide +kernel

theorem witness_StartSetsTheBlocksGoing :
    (let s := { locked with clock := {} }; s.ready ∧ s.phase = .locked ∧ s.clock.valid = false)
    ∧ (locked.ready ∧ locked.phase = .locked ∧ locked.clock.valid = true)
    ∧ ({ locked with layout := { lay with gate := none } } : State).layout.gate = none
    ∧ (let s : State := { oneDuty .pinned [⟨9999, 2240⟩] with phase := .locked }
       s.ready ∧ s.clock.valid = true ∧ s.layout.gate.isSome = true ∧ s.yard.pinnedFleet 9999 = some 2240
        ∧ s.yard.rec? 2240 = none)
    ∧ ((oneDuty .unpinned []).yard.duty? 9999 = some (aDuty 9999 .unpinned)
      ∧ slackTo 994 1010 = gcfg.callLead + 1 ∧ slackTo 995 1010 = gcfg.callLead)
    ∧ (oneDuty (.outbound 7) []).yard.duty? 9999 = some (aDuty 9999 (.outbound 7)) := by
  simp only [State.ready]; decide +kernel

theorem witness_SetClockFollowsItsThreeCases :
    let s (m : Nat) (v : Bool) : State := { locked with clock := { minute := m, valid := v } }
    ((s 0 false).ready ∧ (s 0 false).phase = .locked ∧ 1439 ≤ 1439 ∧ 59 ≤ 59 ∧ (s 0 false).clock.valid = false)
    ∧ ((s 1439 true).ready ∧ (s 1439 true).clock.valid = true ∧ 1439 = (s 1439 true).clock.minute)
    ∧ (1439 ≠ (s 720 true).clock.minute ∧ laterThan 1439 (s 720 true).clock.minute = true)
    ∧ (1439 ≠ (s 719 true).clock.minute ∧ laterThan 1439 (s 719 true).clock.minute = false)
    ∧ ((1439 < 1440 ∨ 59 < 0) ∧ (1439 < 0 ∨ 59 < 60)) := by
  simp only [State.ready]; decide +kernel

def lane5 (n : Nat) : Lane :=
  { cfg := ⟨5, 4, 0xFF#8, 3, 0⟩, positions := (List.range n).map fun i => ⟨i + 1, .parked⟩ }

def yardLocked (f : Yard → Yard) : State := { locked with yard := f locked.yard }

def lane5Of (n : Nat) (y : Yard) : Yard := { y with lanes := [lane5 n] }

theorem witness_PlaceParkedParksTheBus :
    (let s := yardLocked fun y => lane5Of 3 (recs 95 y)
     s.ready ∧ s.phase = .locked ∧ b0.ok = true ∧ s.yard.lane? 5 = some (lane5 3)
      ∧ (lane5 3).positions.length + (lane5 3).reservs.length < (lane5 3).cfg.depth ∧ s.yard.rec? b0.fleet = none
      ∧ s.yard.records.length < 96)
    ∧ locked.yard.lane? 4 = none
    ∧ ((yardLocked (lane5Of 4)).yard.lane? 5 = some (lane5 4)
      ∧ (lane5 4).cfg.depth ≤ (lane5 4).positions.length + (lane5 4).reservs.length)
    ∧ ((yardLocked (recs 1)).yard.rec? 1).isSome = true
    ∧ (let s := yardLocked fun y => lane5Of 3 (recs 96 y)
       s.yard.lane? 5 = some (lane5 3) ∧ s.yard.rec? b0.fleet = none ∧ 96 ≤ s.yard.records.length) := by
  simp only [State.ready]; decide +kernel

theorem witness_StockAccountsAreSetAndDelivered :
    (base.ready ∧ base.yard.fuel.pumps ≠ [] ∧ Fuel.diesel ≠ .noFuel ∧ 4294967295 ≤ 4294967295 ∧ base.phase = .running
      ∧ base.layout.islandCfg.reserve .diesel ≤ 100000)
    ∧ (99999 < base.layout.islandCfg.reserve .diesel ∧ base.yard.notices.length < 32)
    ∧ (1 ≤ 4294967295 ∧ (base.yard.fuel.account .diesel).stock + 4294967295 ≤ 4294967295
      ∧ (base.yard.fuel.account .diesel).setTotal + 4294967295 ≤ 4294967295)
    ∧ (let s := at_ fun y => { y with fuel := { y.fuel with diesel := ⟨1, 1, 0, false, false⟩ } }
       s.ready ∧ 4294967295 < (s.yard.fuel.account .diesel).stock + 4294967295) := by
  simp only [State.ready]; decide +kernel

/-- The fields of a LOAD DUTY in range, as the statement says it. -/
def dutyInRange (f : DutyFields) (now : Nat) : Prop :=
  1 ≤ f.number ∧ f.number ≤ 9999 ∧ f.release ≤ 1439 ∧ f.mask ≠ 0#8 ∧ (∀ v ∈ f.minLevel, v ≤ 100)
    ∧ (∀ x ∈ f.fleet, 1 ≤ x ∧ x ≤ 4095) ∧ slackTo now f.release ≠ 0

def du1 (n r : Nat) (fleet : Option Nat) : DutyFields := ⟨n, r, 0xFF#8, .diesel, some 100, fleet⟩

theorem witness_LoadDutyEntersTheDuty :
    (base.ready ∧ base.phase = .running ∧ ({ base with layout := {} } : State).layout.gate = none
      ∧ ¬ dutyInRange (du1 0 1010 none) 600 ∧ ¬ dutyInRange (du1 1 600 none) 600)
    ∧ (base.layout.gate = some gcfg ∧ dutyInRange (du1 9999 1319 (some 4095)) base.clock.minute
      ∧ dutyInRange (du1 1 601 none) base.clock.minute)
    ∧ ((at_ (duties 1)).yard.duty? 1).isSome = true
    ∧ (base.yard.duty? 9999 = none ∧ (held 4095 .outbound .gate).yard.heldAt 4095 .outbound .gate = true)
    ∧ ((at_ (duties 256)).yard.duty? 9999 = none ∧ 256 ≤ (at_ (duties 256)).yard.gate.duties.length)
    ∧ ((at_ (duties 255)).yard.duty? 9999 = none ∧ (at_ (duties 255)).yard.pairedDuty 4095 = none
      ∧ (at_ (duties 255)).yard.heldAt 4095 .outbound .gate = false
      ∧ (at_ (duties 255)).yard.gate.duties.length < 256 ∧ locked.ready ∧ locked.phase = .locked) := by
  simp only [State.ready, dutyInRange]; decide +kernel

theorem witness_DropDutyFollowsTheDutysState :
    (base.ready ∧ base.phase = .running ∧ base.layout.gate.isSome = true ∧ 1 ≤ 9999 ∧ 9999 ≤ 9999
      ∧ base.yard.duty? 1 = none)
    ∧ ((oneDuty (.calling false false) []).yard.duty? 9999 = some (aDuty 9999 (.calling false false))
      ∧ (oneDuty (.outbound 7) []).yard.duty? 9999 = some (aDuty 9999 (.outbound 7)))
    ∧ ((oneDuty .unpinned []).yard.duty? 9999 = some (aDuty 9999 .unpinned)
      ∧ (oneDuty .unpinned []).yard.pinnedFleet 9999 = none)
    ∧ ((oneDuty .pinned [⟨9999, 2240⟩]).yard.duty? 9999 = some (aDuty 9999 .pinned)
      ∧ (oneDuty .pinned [⟨9999, 2240⟩]).yard.pinnedFleet 9999 = some 2240) := by
  simp only [State.ready]; decide +kernel

def pump1 (st : PumpState) (u : Option Turn) (t : Option Nat) : Pump :=
  { cfg := ⟨1, .diesel, 100, 5000, 40000⟩, state := st, turn := u, timer := t }

def withPump (q : Pump) : State := at_ fun y => { y with fuel := { y.fuel with pumps := [q] } }

def wash0 (st : WashState) (cur : Option Nat) (called : Option WashEntry) (q : List WashEntry) : WashLane :=
  { cfg := wcfg, estRinse := 64, estStandard := 144, estFull := 224, state := st, current := cur, called := called
    queue := q }

def withWash (l : WashLane) (v : PlantView) : State :=
  at_ fun y => { y with wash := { y.wash with lanes := [l], plant0 := v } }

theorem witness_LanesPumpsAndWashLanesAreOpenedAndClosed :
    (base.ready ∧ base.phase = .running ∧ base.yard.lane? 5 = some { cfg := ⟨5, 4, 0xFF#8, 3, 0⟩ }
      ∧ base.yard.lane? 4 = none)
    ∧ (withPump (pump1 .out none none)).yard.pump? 1 = some (pump1 .out none none)
    ∧ (withPump (pump1 .free none none)).yard.pump? 1 = some (pump1 .free none none)
    ∧ (base.yard.pump? 0 = none ∧ base.yard.washLane? 1 = none)
    ∧ ((withWash (wash0 .out none none []) {}).yard.washLane? 0 = some (wash0 .out none none [])
      ∧ (withWash (wash0 .out none none []) {}).yard.faultSeen 0 = false)
    ∧ (withWash (wash0 .draining (some 7) none []) {}).yard.washLane? 0 = some (wash0 .draining (some 7) none [])
    ∧ (withWash (wash0 .out (some 7) none []) {}).yard.washLane? 0 = some (wash0 .out (some 7) none [])
    ∧ (withWash (wash0 .out none none []) ⟨false, false, true⟩).yard.faultSeen 0 = true
    ∧ (withWash (wash0 .free none none []) {}).yard.washLane? 0 = some (wash0 .free none none []) := by
  simp only [State.ready]; decide +kernel

def fifo (n : Nat) : State :=
  at_ fun y => { y with gate := { y.gate with fifo := List.replicate n ⟨{ b0 with fleet := 9 }, false⟩ } }

theorem witness_AdmitEntersTheArrivalFifo :
    (base.ready ∧ base.phase = .running ∧ ({ base with layout := {} } : State).layout.gate = none)
    ∧ (base.layout.gate.isSome = true ∧ b0.ok = true ∧ ({ b0 with fleet := 0 } : BusFields).ok = false)
    ∧ ((held 2240 .arrived .gate).yard.rec? 2240).isSome = true
    ∧ (∃ x ∈ (fifo 1).yard.gate.fifo, x.bus.fleet = 9)
    ∧ ((fifo 8).yard.rec? 2240 = none ∧ (∀ x ∈ (fifo 8).yard.gate.fifo, x.bus.fleet ≠ 2240)
      ∧ 8 ≤ (fifo 8).yard.gate.fifo.length)
    ∧ ((fifo 7).yard.rec? 2240 = none ∧ (∀ x ∈ (fifo 7).yard.gate.fifo, x.bus.fleet ≠ 2240)
      ∧ (fifo 7).yard.gate.fifo.length < 8) := by
  simp only [State.ready]; decide +kernel

def stray (it : List Service) (l : Nat) : State :=
  at_ fun y => lane5Of l { y with records := [⟨{ bus 4095 with itinerary := it }, .stray, .nowhere⟩] }

theorem witness_ResolveSettlesOrRefuses :
    ((stray [] 3).ready ∧ (stray [] 3).phase = .running ∧ 1 ≤ 4095 ∧ 4095 ≤ 4095
      ∧ (stray [] 3).yard.rec? 4095 = some ⟨{ bus 4095 with itinerary := [] }, .stray, .nowhere⟩
      ∧ ((stray [] 3).yard.point? .gateOut 0).isSome = true ∧ ((stray [] 3).yard.point? .gateIn 0).isSome = true
      ∧ ((stray [] 3).yard.point? .laneIn 5).isSome = true ∧ (stray [] 3).yard.lane? 5 = some (lane5 3)
      ∧ (lane5 3).positions.length + (lane5 3).reservs.length < (lane5 3).cfg.depth
      ∧ (stray [] 3).yard.hasLeaving 4095 = false)
    ∧ (((stray [.fuel] 0).yard.point? .apronIn 0).isSome = true ∧ (stray [.fuel] 0).yard.served .diesel = true
      ∧ (stray [.fuel] 0).yard.apronOccupancy < (stray [.fuel] 0).layout.islandCfg.capacity)
    ∧ (let s := stray [.wash] 0
       (s.yard.point? .washIn 0).isSome = true ∧ (s.yard.washLane? 0).isSome = true
       ∧ wcfg.joinProg (bus 4095).wash ≠ .noWash ∧ (pushExpect s.env .washIn 0 4095 false s.yard).isSome = true)
    ∧ (base.ready ∧ base.yard.rec? 1 = none
      ∧ (held 1 .parked (.lane 5)).yard.rec? 1 = some ⟨bus 1, .parked, .lane 5⟩)
    ∧ ((stray [] 3).yard.point? .laneIn 4 = none ∧ ((stray [] 3).yard.point? .bay 1).isSome = true)
    ∧ ((stray [] 4).yard.lane? 5 = some (lane5 4)
      ∧ (lane5 4).cfg.depth ≤ (lane5 4).positions.length + (lane5 4).reservs.length)
    ∧ ({ (stray [] 0).yard with lanes := [front 5 4095 (.leaving none) false] } : Yard).hasLeaving 4095 = true
    ∧ (stray [] 0).yard.served .gas = false
    ∧ ({ stray [.fuel] 0 with layout := {} } : State).layout.islandCfg.capacity ≤ (stray [.fuel] 0).yard.apronOccupancy
    ∧ (let l := wash0 .free none none ((List.range 4).map fun i => ⟨i, .rinse, 0⟩)
       (withWash l {}).yard.washLane? 0 = some l ∧ l.cfg.depth ≤ l.queue.length + l.reservs.length ∧ l.state ≠ .out) := by
  simp only [State.ready]; decide +kernel

theorem witness_ReadsAnswerAndChangeNothing :
    (base.ready ∧ (held 4095 .parked (.lane 5)).yard.rec? 4095 = some ⟨bus 4095, .parked, .lane 5⟩
      ∧ base.yard.rec? 1 = none)
    ∧ (base.yard.lane? 5 = some { cfg := ⟨5, 4, 0xFF#8, 3, 0⟩ } ∧ base.yard.lane? 4 = none)
    ∧ base.yard.fuel.pumps ≠ []
    ∧ ((base.yard.washLane? 0).isSome = true ∧ base.yard.washLane? 1 = none)
    ∧ (base.layout.gate.isSome = true ∧ (oneDuty .unpinned []).yard.duty? 9999 = some (aDuty 9999 .unpinned)
      ∧ base.yard.duty? 1 = none) := by
  simp only [State.ready]; decide +kernel

theorem witness_FlagsNoticesAndResetCommand :
    (base.ready ∧ base.yard.notices = [])
    ∧ (crowded.ready
      ∧ crowded.yard.notices = ⟨.intruder, 0, none, none, []⟩ :: List.replicate 31 ⟨.intruder, 0, none, none, []⟩)
    ∧ (({ crowded.yard with notices := crowded.yard.notices.drop 1 } : Yard).notices.length < 32
      ∧ 32 ≤ crowded.yard.notices.length)
    ∧ (base.yard.line.flags.get .txFail = false ∧ ({ txFail := true } : LineFlags).get .txFail = true) := by
  simp only [State.ready]; decide +kernel

def entry (st : SeekState) (sub : Subject) : SeekEntry :=
  { number := 7, subject := sub, state := st, winner := some ⟨23, 4, 3⟩, offered := some 2240, timer := some 5 }

def inTable (en : SeekEntry) (y : Yard) : Yard := { y with seek := { y.seek with table := [en] } }

def lineOf (f : LineIf → LineIf) : State := at_ fun y => { y with line := f y.line }

def own (r : TxReq) (b : Body) (sends : Nat) : State :=
  lineOf fun l => { l with queue := [slot r b sends true] }

theorem witness_AnOpeningPutsForwardTheLowestKey :
    (let x := slot (.claim 4 ⟨4, 1⟩ 9) (.claim 9) 0 false
     let z := slot (.time 601) (.time 601) 0 false
     let s := lineOf fun l => { l with queue := [z] ++ x :: [z] }
     s.works ∧ s.yard.line.following = true ∧ s.yard.line.sendingSlot = none ∧ s.yard.line.queue = [z] ++ x :: [z]
      ∧ x.eligible s.yard.line.nextOffer = true ∧ x.frame.key < z.frame.key
      ∧ x.frame.key ≤ x.frame.key ∧ (0 : ArbKey) < x.frame.key)
    ∧ (let x := slot (.offer ⟨12, 57⟩ 4 .berth 3 none) (.offer 4 .berth 3 none) 0 false
       let s := lineOf fun l => { l with queue := [x] }
       s.works ∧ s.yard.line.sendingSlot = none
        ∧ ∀ x ∈ s.yard.line.queue, x.eligible s.yard.line.nextOffer = false)
    ∧ (let en := entry .opened (.bus 2240 .berth)
       let y := (at_ fun y => inTable en { y with line := { y.line with curOffer := some ⟨21, 7⟩ } }).yard
       (y.line.curOffer <|> y.line.nextOffer) = some ⟨base.env.layout.own, 7⟩ ∧ y.seekEntry? 7 = some en
        ∧ en.state = .opened ∧ ∀ n, (base.yard.line.curOffer <|> base.yard.line.nextOffer) ≠ some ⟨21, n⟩)
    ∧ (let en := entry .opened (.bus 2240 .wash)
       let y : Yard := inTable en { (held 2240 .seeking (.wash 0)).yard with wash.faultList := [2240] }
       y.seekEntry? 7 = some en ∧ 2240 ∈ y.wash.faultList ∧ y.rec? 2240 = some ⟨bus 2240, .seeking, .wash 0⟩
        ∧ 2240 ∉ base.yard.wash.faultList)
    ∧ ((inTable (entry .opened (.duty 9999)) base.yard).seekEntry? 7 = some (entry .opened (.duty 9999))
      ∧ (oneDuty (.calling false true) []).yard.duty? 9999 = some (aDuty 9999 (.calling false true))
      ∧ (oneDuty (.calling false false) []).yard.duty? 9999 = some (aDuty 9999 (.calling false false))) :=
  ⟨by simp only [State.works]; decide +kernel, by simp only [State.works]; decide +kernel,
    ⟨rfl, rfl, rfl, fun _ h => by cases h⟩, by decide +kernel, by decide +kernel⟩

def rawTime : RawFrame := (Frame.mk 12 .all ⟨12, 0⟩ (.time 601)).raw

/-- 2.9 with R225: the bits of a TIME frame are read back; with one bit changed the frame is damaged. -/
theorem test_frame_bits :
    receiveFrame rawTime.stuffed = some rawTime
    ∧ receiveFrame (rawTime.stuffed.set 40 (!rawTime.stuffed[40]!)) = none := by decide +kernel

/-- A SEEK with each field at the end of its range. -/
def widest : Frame :=
  ⟨31, .fuelGroup, ⟨31, 255⟩, .seek 3 [0, 31, 5, 6] (.push .fuel ⟨4095, 7, .gas, 600, 100, .full, some 1439⟩)⟩

theorem widest_wellFormed : widest.wellFormed := by
  refine ⟨by decide, fun _ h => ?_, by decide, by decide, by decide, by decide, by decide, by decide, by decide, ?_⟩
  · cases h
  · unfold widest Summary.inRange; decide

theorem witness_ACarriedFrameIsPooledLostOrMalformed :
    (widest.wellFormed ∧ widest.source ≠ 21 ∧ widest.raw.parse 21 = some widest)
    ∧ (base.layout.passes widest.raw = true ∧ base.layout.passes { widest.raw with dest := 35 } = false
      ∧ ({ widest with body := .seek 2 [] (.push .fuel ⟨1, 0, .gas, 50, 0, .full, none⟩) } : Frame).raw.seekArea = 2
      ∧ base.layout.passes ({ widest with body := .seek 2 [] (.push .fuel ⟨1, 0, .gas, 50, 0, .full, none⟩) } : Frame).raw
        = false)
    ∧ (List.replicate 24 (0 : Byte)).length ≤ 24 ∧ (base.works ∧ base.yard.line.following = true ∧ base.yard.line.sendingSlot = none)
    ∧ base.layout.passes (Frame.mk 12 (.station 20) ⟨12, 0⟩ (.cancel 9)).raw = false
    ∧ receiveFrame (Frame.mk 12 (.station 20) ⟨12, 0⟩ (.cancel 9)).raw.stuffed
        = some (Frame.mk 12 (.station 20) ⟨12, 0⟩ (.cancel 9)).raw
    ∧ receiveFrame { rawTime with rank := 7 }.stuffed = some { rawTime with rank := 7 }
    ∧ (base.layout.passes { rawTime with rank := 7 } = true
      ∧ { rawTime with rank := 7 }.parse base.layout.own = none)
    ∧ (base.layout.passes rawTime = true ∧ rawTime.parse base.layout.own = some ⟨12, .all, ⟨12, 0⟩, .time 601⟩
      ∧ (lineOf fun l => { l with pool := List.replicate 3 seek57 }).yard.line.pool.length < 4
      ∧ 4 ≤ crowded.yard.line.pool.length) := by
  refine ⟨⟨widest_wellFormed, by decide +kernel⟩, by decide +kernel, ?_⟩
  simp only [State.works]; decide +kernel

def exitEntry (st : OfferState) (t : Option Nat) : OfferEntry := ⟨ref1, .exit, 2240, .lane 5, 4, st, t, 2⟩

def inOffers (o : OfferEntry) (y : Yard) : Yard := { y with seek := { y.seek with offers := [o] } }

def berthChoice : Choice := ⟨ref1, .berth, 2240, .lane 5, 4, some 1010⟩

def choosing (c : Choice) (n : Nat) : State :=
  at_ fun y => lane5Of n { y with
    records := [⟨bus 1, .parked, .lane 5⟩]
    line := { y.line with
      queue := [slot (.offer ref1 4 c.service 3 none) (.offer 4 c.service 3 none) 0 true], curOffer := some ref1 }
    seek := { y.seek with choice := some c } }

theorem witness_OwnFrameCarriedIsReportedAndReserves :
    (let x := slot (.seek 7) (.time 1) 0 true
     let s := own (.seek 7) (.time 1) 0
     s.works ∧ s.yard.line.following = true ∧ s.yard.line.sendingSlot = some x ∧ x.withdrawn = false
      ∧ x.req.isOffer = false ∧ s.yard.line.offerRef = none ∧ receiveFrame x.frame.raw.stuffed = some x.frame.raw)
    ∧ ((at_ (inTable (entry .queued (.bus 2240 .berth)))).yard.seekEntry? 7 = some (entry .queued (.bus 2240 .berth))
      ∧ (at_ (inTable (entry (.handing .sending) (.bus 2240 .berth)))).yard.seekEntry? 7
          = some (entry (.handing .sending) (.bus 2240 .berth))
      ∧ (at_ (inOffers (exitEntry .sending none))).yard.exitOffer? ref1 2240 = some (exitEntry .sending none))
    ∧ (let s := choosing berthChoice 3
       s.works ∧ s.yard.line.sendingSlot.map (·.req.isOffer) = some true ∧ s.yard.seek.choice = some berthChoice
        ∧ (∀ r ∈ s.yard.line.offerRef, r.station ≠ s.layout.own) ∧ s.yard.lane? 5 = some (lane5 3)
        ∧ berthChoice.service ≠ .exit
        ∧ (lane5 3).positions.length + (lane5 3).reservs.length < (lane5 3).cfg.depth)
    ∧ (let c : Choice := { berthChoice with service := .exit, fleet := 1 }
       let s := choosing c 1
       s.works ∧ s.yard.seek.choice = some c ∧ (lane5 1).positions = ⟨1, .parked⟩ :: []
        ∧ s.yard.rec? 1 = some ⟨bus 1, .parked, .lane 5⟩)
    ∧ (let c : Choice := { berthChoice with service := .fuel, resource := .apron .diesel }
       let s := choosing c 0
       s.works ∧ s.yard.seek.choice = some c ∧ c.service ≠ .exit
        ∧ s.yard.fuel.queue.length + s.yard.fuel.reservs.length < s.layout.islandCfg.capacity)
    ∧ (let c : Choice := { berthChoice with service := .wash, resource := .wash 0 }
       let s := choosing c 0
       s.yard.seek.choice = some c ∧ ((s.yard.washLane? 0).map fun l => l.queue.length + l.reservs.length) = some 0
        ∧ 0 < wcfg.depth)
    ∧ (let listed (k : Bool) : Lane := { lane5 0 with reservs := [⟨ref1, 2240, none, k⟩] }
       (listed true).positions.length + (listed true).reservs.length < (listed true).cfg.depth
        ∧ (listed true).reservs.any (fun q => q.committed && q.fleet == berthChoice.fleet) = true
        ∧ (listed false).reservs.any (fun q => q.committed && q.fleet == berthChoice.fleet) = false)
    ∧ ((crowded.yard.line.queue.drop 1).length < 8 ∧ base.yard.line.waiting = [] ∧ 8 ≤ crowded.yard.line.queue.length
      ∧ (lineOf fun l => { l with waiting := [.time 601] }).yard.line.waiting = .time 601 :: [])
    ∧ (let en := entry (.handing .sending) (.bus 2240 .berth)
       let y := inTable en (held 2240 .handing .gate).yard
       y.seekEntry? 7 = some en ∧ y.rec? 2240 = some ⟨bus 2240, .handing, .gate⟩ ∧ en.winner = some ⟨23, 4, 3⟩)
    ∧ (let en := entry .queued (.duty 9999)
       let y := inTable en (oneDuty (.calling false false) [⟨9999, 2240⟩]).yard
       y.seekEntry? 7 = some en ∧ y.duty? 9999 = some (aDuty 9999 (.calling false false))
        ∧ y.gate.pins.find? (·.fleet == 2240) = some ⟨9999, 2240⟩ ∧ y.gate.pins.find? (·.fleet == 1) = none) := by
  simp only [State.works]; decide +kernel

theorem witness_FollowingBeginsAndDamagedFramesAreCounted :
    (base.works ∧ base.yard.line.following = true ∧ base.yard.line.sendingSlot = none)
    ∧ (receiveFrame (List.replicate 5 false) = none ∧ receiveFrame rawTime.stuffed = some rawTime)
    ∧ (let x := slot (.time 601) (.time 601) 1 true
       (own (.time 601) (.time 601) 1).works ∧ (own (.time 601) (.time 601) 1).yard.line.queue = [] ++ x :: []
        ∧ x.sending = true ∧ x.withdrawn = false ∧ x.req.isOffer = false ∧ x.sends < 2
        ∧ (own (.time 601) (.time 601) 1).yard.line.offerRef = none)
    ∧ ((own (.time 601) (.time 601) 2).yard.line.sendingSlot = some (slot (.time 601) (.time 601) 2 true)
      ∧ 2 ≤ (slot (.time 601) (.time 601) 2 true).sends
      ∧ ({ slot (.time 601) (.time 601) 2 true with withdrawn := true } : TxSlot).withdrawn = true)
    ∧ (choosing berthChoice 3).yard.line.sendingSlot.map (·.req.isOffer) = some true := by
  simp only [State.works]; decide +kernel

theorem witness_ASeekIsAnsweredWithTheCheapestOffer :
    (let s := at_ fun y => night [] { y with line := { y.line with
       pool := [seek57], queue := List.replicate 7 (slot (.time 601) (.time 601) 0 false) } }
     let c : Candidate := ⟨4, .lane 5, 3, none⟩
     s.works ∧ s.yard.line.pool.find? (·.body.isSeek) = some seek57 ∧ s.yard.rec? (bs 1010).fleet = none
      ∧ s.layout.own ∉ ([] : List Nat) ∧ s.yard.seek.offers.length < 8 ∧ s.yard.line.queue.length < 8
      ∧ candidates s.env s.yard (.push .berth (bs 1010)) = [] ++ c :: [])
    ∧ (21 ∈ [21] ∧ 8 ≤ crowded.yard.seek.offers.length
      ∧ candidates base.env (lane5Of 4 base.yard) (.push .berth (bs 1010)) = [])
    ∧ 8 ≤ crowded.yard.line.queue.length
    ∧ ((held 2240 .parked (.lane 5)).yard.rec? (bs 1010).fleet = some ⟨bus 2240, .parked, .lane 5⟩
      ∧ (held 2240 .stray .nowhere).yard.rec? (bs 1010).fleet = some ⟨bus 2240, .stray, .nowhere⟩) := by
  simp only [State.works]; decide +kernel

theorem witness_CandidatesAndTheirCosts :
    (let pumps := (fuelYard 300000).fuel.pumps.filter fun p => p.cfg.fuel == .diesel && p.state != .out
     40000 ∈ pumps.map (·.cfg.maxTurn) ∧ (∀ p ∈ pumps, p.cfg.maxTurn ≤ 40000)
      ∧ 4000 ∈ pumps.map (·.cfg.rate) ∧ ∀ p ∈ pumps, 4000 ≤ p.cfg.rate)
    ∧ ((fuelYard 300000).fuel.pumps.filter fun p => p.cfg.fuel == .noFuel && p.state != .out) = [] := by decide +kernel

def offering (f : Option Nat) (en : SeekEntry) : State := at_ fun y =>
  inTable en { y with line := { y.line with pool := [frm 23 ⟨21, 7⟩ (.offer 4 .berth 3 f)] } }

theorem witness_AnOfferIsTakenOrCancelled :
    (let en := entry .opened (.bus 2240 .berth)
     let s := offering none en
     s.works ∧ s.yard.line.head = some (frm 23 ⟨21, 7⟩ (.offer 4 .berth 3 none)) ∧ s.layout.own = 21
      ∧ s.yard.seekEntry? 7 = some en ∧ en.state = .opened ∧ en.subject = .bus 2240 .berth)
    ∧ (let en := entry .opened (.duty 412)
       (offering (some 4095) en).yard.seekEntry? 7 = some en ∧ en.subject = .duty 412
        ∧ (offering (some 4095) en).yard.rec? 4095 = none)
    ∧ (let s := offering none (entry .queued (.bus 2240 .berth))
       s.yard.seekEntry? 7 = some (entry .queued (.bus 2240 .berth))
        ∧ (entry .queued (.bus 2240 .berth)).state ≠ .opened)
    ∧ (let s := { offering (some 4095) (entry .opened (.duty 412)) with
         yard.records := [⟨bus 4095, .parked, .lane 5⟩] }
       s.works ∧ s.yard.seekEntry? 7 = some (entry .opened (.duty 412))
        ∧ s.yard.rec? 4095 = some ⟨bus 4095, .parked, .lane 5⟩)
    ∧ (let s := { offering (some 4095) (entry .queued (.duty 412)) with
         yard.records := [⟨bus 4095, .outbound, .gate⟩] }
       s.works ∧ s.yard.seekEntry? 7 = some (entry .queued (.duty 412))
        ∧ s.yard.rec? 4095 = some ⟨bus 4095, .outbound, .gate⟩)
    ∧ ([(7, 2240)] : List (Nat × Nat)).find? (·.1 == 7) = some (7, 2240) := by
  simp only [State.works]; decide +kernel

def answered (a : Answer) (ref : SeekRef) (q : Nat) (f : Yard → Yard) : State :=
  at_ fun y => f { y with
    line := { y.line with pool := [frm q ref (.answer a 2240)] }
    records := [⟨bus 2240, .handing, .gate⟩] }

theorem witness_TakenEndsTheHandover :
    (let l : Lane := { lane5 0 with positions := [⟨7, .leaving none⟩] ++ ⟨7, .calledOut⟩ :: [⟨8, .parked⟩] }
     ({ base.yard with lanes := [l] } : Yard).lane? 5 = some l
      ∧ ((⟨7, .calledOut⟩ : Position).state = .parked ∨ (⟨7, .calledOut⟩ : Position).state = .calledOut)
      ∧ (∀ z ∈ l.positions, z.fleet ≠ 9)
      ∧ (([⟨7, .leaving none⟩] : List Position).all fun z => z.state == .leaving none) = true)
    ∧ (let en := entry (.handing .awaiting) (.bus 2240 .berth)
     let s := answered .taken ⟨21, 7⟩ 23 (inTable en)
     s.works ∧ s.yard.line.head = some (frm 23 ⟨21, 7⟩ (.answer .taken 2240)) ∧ s.layout.own = 21
      ∧ s.yard.seekEntry? 7 = some en ∧ en.subject = .bus 2240 .berth ∧ en.winner = some ⟨23, 4, 3⟩
      ∧ s.yard.rec? 2240 = some ⟨bus 2240, .handing, .gate⟩)
    ∧ (let o := exitEntry .sending (some 5)
       let s := answered .taken ref1 12 (inOffers o)
       s.works ∧ ref1.station ≠ s.layout.own ∧ s.yard.exitOffer? ref1 2240 = some o
        ∧ ref1.station = 12 ∧ o.resource = .lane 5) := by
  simp only [State.works]; decide +kernel

theorem witness_HoldPausesAndRefuseExcludes :
    let en (n : Nat) : SeekEntry := { entry (.handing .awaiting) (.bus 2240 .berth) with attempts := n }
    let s (a : Answer) (n : Nat) := answered a ⟨21, 7⟩ 23 (inTable (en n))
    ((s .hold 2).works ∧ (s .hold 2).yard.seekEntry? 7 = some (en 2) ∧ (en 2).attempts < base.layout.params.attempts)
    ∧ ((s .hold 3).yard.seekEntry? 7 = some (en 3) ∧ base.layout.params.attempts ≤ (en 3).attempts)
    ∧ (s .refuse 3).yard.line.head = some (frm 23 ⟨21, 7⟩ (.answer .refuse 2240))
    ∧ (let o (n : Nat) : OfferEntry := { exitEntry .sending none with attempts := n }
       let x (a : Answer) (n : Nat) := answered a ref1 12 (inOffers (o n))
       (x .hold 2).works ∧ (x .hold 2).yard.line.head = some (frm 12 ref1 (.answer .hold 2240))
        ∧ ref1.station ≠ (x .hold 2).layout.own ∧ (x .hold 2).yard.exitOffer? ref1 2240 = some (o 2)
        ∧ (o 2).attempts < base.layout.params.attempts ∧ (x .hold 3).yard.exitOffer? ref1 2240 = some (o 3)
        ∧ base.layout.params.attempts ≤ (o 3).attempts ∧ ref1.station = 12 ∧ (o 3).resource = .lane 5
        ∧ (x .refuse 3).yard.line.head = some (frm 12 ref1 (.answer .refuse 2240))) := by
  simp only [State.works]; decide +kernel

theorem witness_AStaleAnswerIsCountedAndIgnored :
    let s := answered .hold ref1 12 id
    s.works ∧ s.yard.line.head = some (frm 12 ref1 (.answer .hold 2240))
    ∧ ¬ (∃ en sv w ph, ref1.station = s.layout.own ∧ s.yard.seekEntry? ref1.number = some en ∧ en.subject = .bus 2240 sv
      ∧ en.winner = some w ∧ w.station = 12 ∧ en.state = .handing ph)
    ∧ ¬ (∃ o, s.yard.exitOffer? ref1 2240 = some o ∧ ref1.station = 12) :=
  ⟨⟨rfl, rfl⟩, rfl, fun ⟨_, _, _, _, h, _⟩ => absurd h (by decide +kernel), fun ⟨_, h, _⟩ => by cases h⟩

/-- R79, R95, R96: lane 5 has one place left and holds one for the bus, from the round 12/56. The offer of the round 12/57
is won and takes that place at the list's end; both rounds keep their offer entries. -/
theorem test_won_again_shares_the_place :
    (let ref : SeekRef := ⟨12, 56⟩
     let c : Choice := { berthChoice with ref := ⟨12, 57⟩ }
     let held : OfferEntry := ⟨ref, .berth, 2240, .lane 5, 4, .held, some 900, 0⟩
     let y := night [⟨ref, 2240, none, false⟩] { base.yard with seek := { base.yard.seek with offers := [held], choice := some c } }
     let t := offerWon base.env y
     (t.lane? 5).map (·.reservs) == some [⟨⟨12, 57⟩, 2240, some 1010, false⟩]
       && t.seek.offers.map (·.ref) == [ref, ⟨12, 57⟩]) = true := by decide +kernel

def heldEntry : OfferEntry := ⟨⟨12, 57⟩, .berth, 2240, .lane 5, 4, .held, some 2000, 0⟩

/-- The expectation queue of LANE_IN with eight buses in it. -/
def queueFull (y : Yard) : Yard :=
  { y with points := y.points.map fun p => { p with queue := (List.range 8).map fun i => ⟨i + 1, none⟩ } }

theorem witness_AHandoverForALiveOfferIsAnswered :
    (let s := at_ won57
     s.works ∧ s.yard.line.head = some handover57 ∧ s.yard.heldOffer? ⟨12, 57⟩ 2240 = some heldEntry
      ∧ commitTest s.env (.lane 5) (bus 2240) false (dropHead s.yard) = true
      ∧ s.yard.rec? 2240 = none ∧ s.yard.records.length < 96
      ∧ (pushExpect s.env .laneIn 5 2240 true (addRec ⟨bus 2240, .expected, .lane 5⟩ (dropHead s.yard))).isSome = true)
    ∧ (let y := dropHead (won57 (queueFull base.yard))
       commitTest base.env (.lane 5) (bus 2240) false y = true
        ∧ pushExpect base.env .laneIn 5 2240 true (addRec ⟨bus 2240, .expected, .lane 5⟩ y) = none)
    ∧ commitTest base.env (.lane 5) (bus 2240) false
        (onLane 5 (fun l => { l with closed := true }) (won57 base.yard)) = false
    ∧ (let filled (n : Nat) : Yard := { base.yard with points := base.yard.points.map fun p =>
         if p.cfg.kind = .laneIn then { p with queue := (List.range n).map fun i => ⟨i + 1, none⟩ } else p }
       ((filled 8).point? .laneIn 5).map (·.queue.length) = some 8 ∧ ((filled 7).point? .laneIn 5).map (·.queue.length) = some 7
        ∧ (∀ q ∈ (filled 7).points, ∀ x ∈ q.queue, x.fleet ≠ 2240) ∧ (filled 7).point? .laneIn 4 = none
        ∧ ∃ q ∈ (filled 7).points, ∃ x ∈ q.queue, x.fleet = 7)
    ∧ (let place (f : Nat) (k : Bool) : LaneRes := ⟨ref1, f, none, k⟩
       let y := night [place 7 true, place 2240 false] base.yard
       y.lane? 5 = some { (y.lane? 5).getD (lane5 0) with reservs := [place 7 true] ++ place 2240 false :: [] }
        ∧ (∀ z ∈ [place 7 true], z.fleet ≠ 2240) ∧ (∀ q ∈ [place 7 true], q.fleet ≠ 2240)
        ∧ (y.lane? 5).map (fun l => (l.room, l.lists 2240)) = some (false, true)
        ∧ commitTest base.env (.lane 5) (bus 2240) false y = true
        ∧ commitTest base.env (.lane 5) (bus 2240) true y = false)
    ∧ (let place (f : Nat) (k : Bool) : ApronRes := ⟨ref1, f, .diesel, k⟩
       let y : Yard := { base.yard with fuel := { base.yard.fuel with reservs := [place 7 true, place 2240 false] } }
       y.fuel.reservs = [place 7 true] ++ place 2240 false :: [] ∧ ∀ q ∈ y.fuel.reservs, q.fleet ≠ 8)
    ∧ (let l : WashLane := { wcfg.newLane with reservs := [⟨ref1, 7⟩] ++ ⟨ref1, 2240⟩ :: [] }
       let y : Yard := { (held 2240 .expected (.wash 0)).yard with wash := { base.yard.wash with lanes := [l] } }
       y.washLane? 0 = some l ∧ y.rec? 2240 = some ⟨bus 2240, .expected, .wash 0⟩
        ∧ (∀ z ∈ l.reservs, ¬ (z.ref = ref1 ∧ z.fleet = 8)) ∧ l.cfg.joinProg .full ≠ .noWash) := by
  simp only [State.works]; decide +kernel

def late (f : Yard → Yard) : State := at_ fun y => f { y with line := { y.line with pool := [handover57] } }

theorem witness_LateRepeatedAndUnrelatedHandovers :
    (let s := late fun y => { y with
       records := [⟨bus 2240, .expected, .lane 5⟩], seek := { y.seek with taken := [⟨⟨12, 57⟩, 2240⟩] } }
     s.works ∧ s.yard.line.head = some handover57 ∧ s.yard.heldOffer? ⟨12, 57⟩ 2240 = none ∧ 12 ≠ s.layout.own
      ∧ s.yard.seek.taken.contains ⟨⟨12, 57⟩, 2240⟩ = true ∧ (s.yard.rec? 2240).isSome = true)
    ∧ (let i : LapsedItem := ⟨⟨12, 57⟩, .berth, .lane 5, 2240⟩
       let s := late fun y => lane5Of 3 { y with seek := { y.seek with lapsed := [i] } }
       s.works ∧ s.yard.rec? 2240 = none ∧ s.yard.records.length < 96
        ∧ s.yard.seek.lapsed.find? (fun i => i.ref == ⟨12, 57⟩ && i.fleet == 2240) = some i
        ∧ commitTest s.env (.lane 5) (bus 2240) true (dropHead s.yard) = true
        ∧ (pushExpect s.env .laneIn 5 2240 true (addRec ⟨bus 2240, .expected, .lane 5⟩ (dropHead s.yard))).isSome = true)
    ∧ ((late id).yard.seek.taken.contains ⟨⟨12, 57⟩, 2240⟩ = false
      ∧ (late id).yard.seek.lapsed.find? (fun i => i.ref == ⟨12, 57⟩ && i.fleet == 2240) = none)
    ∧ (let i : LapsedItem := ⟨⟨12, 57⟩, .berth, .lane 5, 2240⟩
       let s (n : Nat) (f : Yard → Yard) := late fun y => f (lane5Of n { y with seek := { y.seek with lapsed := [i] } })
       (s 4 id).works ∧ (s 4 id).yard.seek.lapsed.find? (fun i => i.ref == ⟨12, 57⟩ && i.fleet == 2240) = some i
        ∧ (s 4 id).yard.rec? 2240 = none ∧ commitTest base.env i.resource (bus 2240) true (dropHead (s 4 id).yard) = false
        ∧ (let x := s 3 fun y => { y with records := [⟨bus 2240, .parked, .lane 5⟩] }
           x.yard.seek.taken.contains ⟨⟨12, 57⟩, 2240⟩ = false ∧ (x.yard.rec? 2240).isSome = true
            ∧ commitTest base.env i.resource (bus 2240) true (dropHead x.yard) = true)
        ∧ (let x := s 3 queueFull
           x.yard.rec? 2240 = none ∧ commitTest base.env i.resource (bus 2240) true (dropHead x.yard) = true
            ∧ pushExpect x.env .laneIn 5 2240 true (addRec ⟨bus 2240, .expected, .lane 5⟩ (dropHead x.yard)) = none)) := by
  simp only [State.works]; decide +kernel

theorem witness_TheGateTakesABusForItsDuty :
    let s := at_ morning
    s.works ∧ s.yard.line.head = some (frm 23 ⟨21, 140⟩ (.handover { bus 2240 with itinerary := [.exit] }))
    ∧ s.layout.own = 21 ∧ s.yard.heldOffer? ⟨21, 140⟩ 2240 = none
    ∧ (s.yard.seekEntry? 140).map (fun en => (en.subject, en.state, en.winner.map (·.station), en.offered))
        = some (.duty 412, .awaiting, some 23, some 2240)
    ∧ s.yard.duty? 412 = some ⟨412, 1000, 3, .diesel, 60, .calling false false⟩ ∧ s.yard.rec? 2240 = none
    ∧ s.yard.records.length < 96
    ∧ (pushExpect s.env .gateOut 0 2240 true
        (addRec ⟨{ bus 2240 with itinerary := [.exit] }, .outbound, .gate⟩ (dropHead s.yard))).isSome = true
    ∧ 96 ≤ crowded.yard.records.length
    ∧ (s.yard.pinnedFleet 412 = some 1533 ∧ 1533 ≠ 2240 ∧ s.yard.pairedDuty 2240 = some 418
      ∧ s.yard.duty? 418 = some ⟨418, 1010, 3, .diesel, 60, .pinned⟩)
    ∧ (s.yard.pinnedFleet 1 = none ∧ s.yard.pairedDuty 9 = none) := by
  simp only [State.works]; decide +kernel

def told (b : Body) (f : Yard → Yard) : State :=
  at_ fun y => f { y with line := { y.line with pool := [frm 12 ref1 b] }, records := [⟨bus 2240, .parked, .lane 5⟩] }

theorem witness_ClaimCancelAndRepinActOnTheirFleet :
    ((told (.claim 2240) id).works ∧ (told (.claim 2240) id).yard.line.head = some (frm 12 ref1 (.claim 2240))
      ∧ (told (.claim 2240) id).yard.rec? 2240 = some ⟨bus 2240, .parked, .lane 5⟩)
    ∧ ((told (.claim 1) id).yard.line.head = some (frm 12 ref1 (.claim 1)) ∧ (told (.claim 1) id).yard.rec? 1 = none)
    ∧ ((told (.cancel 2240) (inOffers heldEntry)).yard.line.head = some (frm 12 ref1 (.cancel 2240))
      ∧ (told (.cancel 2240) (inOffers heldEntry)).yard.heldOffer? ref1 2240 = some heldEntry)
    ∧ ((told (.cancel 2240) (inOffers (exitEntry .paused none))).yard.heldOffer? ref1 2240 = none
      ∧ (told (.cancel 2240) (inOffers (exitEntry .paused none))).yard.exitOffer? ref1 2240
        = some (exitEntry .paused none) ∧ (exitEntry .paused none).resource = .lane 5)
    ∧ ((told (.cancel 2240) id).yard.heldOffer? ref1 2240 = none ∧ (told (.cancel 2240) id).yard.exitOffer? ref1 2240 = none
      ∧ (told (.cancel 2240) id).yard.seek.lapsed = [])
    ∧ (let s := told (.cancel 2240) fun y =>
         { y with seek := { y.seek with lapsed := [⟨ref1, .berth, .lane 5, 2240⟩] } }
       s.yard.heldOffer? ref1 2240 = none ∧ s.yard.exitOffer? ref1 2240 = none ∧ s.yard.seek.lapsed = [] ++ ⟨ref1, .berth, .lane 5, 2240⟩ :: [])
    ∧ ((told (.repin 2240 none) id).yard.line.head = some (frm 12 ref1 (.repin 2240 none))
      ∧ (told (.repin 1 none) id).yard.rec? 1 = none)
    ∧ (∀ en ∈ [entry .queued (.bus 2240 .berth), entry .opened (.duty 9999), entry .waitRetry (.duty 9999),
         entry (.handing .pausing) (.bus 2240 .berth), entry .awaiting (.duty 9999)],
        (inTable en base.yard).seekEntry? 7 = some en ∧ en.winner = some ⟨23, 4, 3⟩ ∧ en.offered = some 2240)
    ∧ (let en : SeekEntry := { entry .awaiting (.duty 9999) with offered := none }
       (inTable en base.yard).seekEntry? 7 = some en ∧ en.state = .awaiting ∧ en.offered = none)
    ∧ (inTable (entry .queued (.bus 2240 .berth)) base.yard).seek.table = [] ++ entry .queued (.bus 2240 .berth) :: []
    ∧ ((inOffers (exitEntry .sending none) base.yard).seek.choice = none
      ∧ (inOffers (exitEntry .sending none) base.yard).seek.offers.find? (fun o => o.service == .exit && o.fleet == 2240)
        = some (exitEntry .sending none)
      ∧ base.yard.seek.offers.find? (fun o => o.service == .exit && o.fleet == 2240) = none)
    ∧ ((oneDuty (.outbound 7) []).yard.gate.duties = [] ++ aDuty 9999 (.outbound 7) :: []
      ∧ ∀ d ∈ base.yard.gate.duties, d.state ≠ .outbound 7)
    ∧ (let p := pump1 .calling (some ⟨1322, 1, 0, 3000, 0, 0, 0⟩) (some 5)
       (apron .calling 1322 base.yard).fuel.pumps = [] ++ p :: [] ∧ p.state = .calling) := by
  simp only [State.works]; decide +kernel

def time (m : Nat) : State := pooled ⟨12, .all, ⟨12, 0⟩, .time m⟩

theorem witness_TimeIsSeenAdoptedOrIgnored :
    ((time 600).works ∧ (time 600).yard.line.head = some ⟨12, .all, ⟨12, 0⟩, .time 600⟩ ∧ 600 = (time 600).clock.minute)
    ∧ (1319 ≠ (time 1319).clock.minute ∧ laterThan 1319 (time 1319).clock.minute = true)
    ∧ (1320 ≠ (time 1320).clock.minute ∧ laterThan 1320 (time 1320).clock.minute = false) := by
  simp only [State.works]; decide +kernel

theorem witness_TheClockCountsAndRollsOver :
    let s (sec : Nat) (seen : Option Nat) : State := { base with clock := ⟨1439, sec, true, seen, 0⟩ }
    ((s 58 none).inReset = false ∧ (s 58 none).clock.valid = true ∧ (s 58 none).clock.seconds < 59)
    ∧ (locked.clock.valid = true ∧ locked.phase ≠ .running)
    ∧ ((s 59 (some 0)).clock.valid = true ∧ ∃ v, (s 59 (some 0)).clock.seen = some v ∧ v = 0)
    ∧ ((s 59 none).phase = .running ∧ ¬ ∃ v, (s 59 none).clock.seen = some v ∧ (v = 0 ∨ laterThan v 0 = true))
    ∧ (State.reset.inReset = false ∧ State.reset.clock.valid = false)
    ∧ (base.clock.minute ≤ (⟨1439, 0, true, none, 0⟩ : Clock).minute
      ∧ (oneDuty .pinned [⟨9999, 2240⟩]).yard.duty? 9999 = some (aDuty 9999 .pinned)
      ∧ (oneDuty .pinned [⟨9999, 2240⟩]).yard.pinnedFleet 9999 = some 2240
      ∧ laterThan 996 ((1010 + gcfg.grace) % 1440) = false ∧ laterThan 1021 ((1010 + gcfg.grace) % 1440) = true
      ∧ laterThan 995 994 = true ∧ laterThan 996 995 = true)
    ∧ ((oneDuty (.calling true false) []).yard.duty? 9999 = some (aDuty 9999 (.calling true false))
      ∧ (oneDuty (.calling true false) []).yard.dutySeek? 9999 = none
      ∧ (oneDuty (.outbound 7) []).yard.duty? 9999 = some (aDuty 9999 (.outbound 7))) :=
  ⟨by decide +kernel, by decide +kernel, ⟨rfl, 0, rfl, rfl⟩, ⟨rfl, fun ⟨_, h, _⟩ => by cases h⟩, by decide +kernel,
    by decide +kernel, by decide +kernel⟩

theorem witness_TheDayTurnRemovesEveryPin :
    (⟨0, 0, true, none, 0⟩ : Clock).minute < edge.clock.minute ∧ edge.yard.gate.fifo = []
    ∧ edge.layout.gate.isSome = true
    ∧ (let y := { duties 30 edge.yard with notices := List.replicate 2 ⟨.intruder, 0, none, none, []⟩ }
       y.gate.fifo = [] ∧ y.notices.length + y.gate.duties.length ≤ 32) := by decide +kernel

theorem witness_SeekAndHandoverTimersAct :
    ((at_ (inTable (entry .waitRetry (.bus 2240 .berth)))).works
      ∧ (at_ (inTable (entry .waitRetry (.bus 2240 .berth)))).yard.seekEntry? 7
        = some (entry .waitRetry (.bus 2240 .berth)))
    ∧ (let s := at_ fun y => { y with seek := { y.seek with
         counter := 255
         table := [{ entry .waitRetry (.bus 2240 .berth) with number := 255 },
           { entry .queued (.bus 1 .berth) with number := 0 }] } }
       s.yard.seek.table.length ≤ 8 ∧ 2 ≤ s.yard.seek.table.length
        ∧ (∀ i, i < 2 → ∃ x ∈ s.yard.seek.table, x.number = (s.yard.seek.counter + i) % 256)
        ∧ (∀ x ∈ s.yard.seek.table, x.number ≠ (s.yard.seek.counter + 2) % 256))
    ∧ ((at_ (inOffers heldEntry)).yard.heldOffer? ref1 2240 = some heldEntry)
    ∧ ((at_ (inTable (entry .awaiting (.duty 412)))).yard.seekEntry? 7 = some (entry .awaiting (.duty 412))
      ∧ (entry .awaiting (.duty 412)).winner = some ⟨23, 4, 3⟩)
    ∧ (let en (n : Nat) (ph : HandPhase) : SeekEntry := { entry (.handing ph) (.bus 2240 .berth) with attempts := n }
       (at_ (inTable (en 2 .awaiting))).yard.seekEntry? 7 = some (en 2 .awaiting)
        ∧ (en 2 .awaiting).attempts < base.layout.params.attempts
        ∧ (at_ (inTable (en 2 .pausing))).yard.seekEntry? 7 = some (en 2 .pausing)
        ∧ (at_ (inTable (en 3 .awaiting))).yard.seekEntry? 7 = some (en 3 .awaiting)
        ∧ base.layout.params.attempts ≤ (en 3 .awaiting).attempts)
    ∧ (let o (n : Nat) : OfferEntry := { exitEntry .sending (some 0) with attempts := n }
       (at_ (inOffers (o 2))).yard.exitOffer? ref1 2240 = some (o 2) ∧ (o 2).timer.isSome = true
        ∧ (o 2).attempts < base.layout.params.attempts ∧ (at_ (inOffers (o 3))).yard.exitOffer? ref1 2240 = some (o 3)
        ∧ base.layout.params.attempts ≤ (o 3).attempts ∧ (o 3).resource = .lane 5)
    ∧ (at_ (inOffers (exitEntry .paused (some 0)))).yard.exitOffer? ref1 2240 = some (exitEntry .paused (some 0))
    ∧ ((placed.yard.lane? 5).map (·.reservs) = some ([⟨ref1, 3, none, true⟩] ++ ⟨ref1, 4, none, false⟩ :: [])
      ∧ (∀ z ∈ [(⟨ref1, 3, none, true⟩ : LaneRes)], ¬ (z.ref = ref1 ∧ z.fleet = 4 ∧ z.committed = false)
        ∧ ¬ (z.ref = ref1 ∧ z.fleet = 3 ∧ z.committed = false))
      ∧ placed.yard.fuel.reservs = [⟨ref1, 5, .diesel, true⟩] ++ ⟨ref1, 6, .diesel, false⟩ :: []
      ∧ (placed.yard.washLane? 0).map (·.reservs) = some ([] ++ ⟨ref1, 4⟩ :: [])) := by
  simp only [State.works]; decide +kernel

/-- The contact j of row 0 is about to change, as the statement says it. -/
def changing (s : State) (cols : BitVec 8) (j : Nat) : Prop :=
  ∃ c, s.scan.contacts[8 * s.scan.row + j]? = some c ∧ (!cols.getLsbD j) ≠ c.occupied
    ∧ s.layout.params.debounce ≤ min 16 (c.run + 1)

theorem witness_TheRowScanDebouncesItsContacts :
    let s := about 7 false base
    s.inReset = false ∧ s.phase = .running ∧ (∀ i, i < 8 → (changing s 0x7F i ↔ i = 7))
    ∧ (∀ j, j < 8 → ¬ changing base 0xFF j) := by
  refine ⟨rfl, rfl, fun i h => ?_, fun i h => ?_⟩ <;> interval_cases i <;>
    simp [changing, about, base, lay]

theorem witness_ContactsReachTheirOwners :
    (base.yard.contactPoint? 7 7 = none ∧ (base.yard.contactPoint? 0 7).map (·.cfg.kind) = some .gateOut)
    ∧ (((at_ coming).yard.point? .laneIn 5).map (·.queue) = some (⟨2240, some 480⟩ :: [])
      ∧ (at_ coming).yard.rec? 2240 = some ⟨bus 2240, .expected, .lane 5⟩)
    ∧ (base.yard.point? .laneIn 5).map (·.queue) = some []
    ∧ (base.yard.lane? 5).map (·.positions) = some []
    ∧ ({ base.yard with lanes := [{ lane5 1 with blocked := true }] } : Yard).lane? 5 = some { lane5 1 with blocked := true }
    ∧ ((lane5Of 1 base.yard).lane? 5 = some (lane5 1) ∧ (lane5 1).positions = ⟨1, .parked⟩ :: []
      ∧ (held 1 .parked (.lane 5)).yard.rec? 1 = some ⟨bus 1, .parked, .lane 5⟩ ∧ base.yard.notices.length < 32)
    ∧ (front 5 1 (.leaving none) false).positions = ⟨1, .leaving none⟩ :: []
    ∧ ((front 5 2240 .calledOut false).positions = ⟨2240, .calledOut⟩ :: []
      ∧ (at_ (inOffers (exitEntry .sending none))).yard.seek.offers.find? (fun o => o.service == .exit && o.fleet == 2240)
        = some (exitEntry .sending none))
    ∧ ((oneDuty (.outbound 7) []).yard.gate.duties = [] ++ aDuty 9999 (.outbound 7) :: []
      ∧ ∀ d ∈ base.yard.gate.duties, d.state ≠ .outbound 7)
    ∧ (let y (r a : List Nat) : Yard := { base.yard with gate := { base.yard.gate with reads := r, arrivals := a } }
       (y [585] []).gate.reads = 585 :: [] ∧ (y [] [1, 2, 3, 4, 5, 6, 7]).gate.arrivals.length < 8
        ∧ (y [] [1, 2, 3, 4, 5, 6, 7, 8]).gate.arrivals = 1 :: [2, 3, 4, 5, 6, 7, 8]
        ∧ 8 ≤ (y [] [1, 2, 3, 4, 5, 6, 7, 8]).gate.arrivals.length) := by decide +kernel

def dwelling (k : PointKind) (f : Yard → Yard) : State := at_ fun y => f { y with
  points := y.points.map fun p => if p.cfg.kind = k then { p with dwell := some 0, queue := [⟨2240, some 0⟩] } else p }

theorem witness_DwellTravelAndSignTimersAct :
    ((dwelling .laneIn id).works
      ∧ ((dwelling .laneIn id).yard.contactPoint? 0 0).map (fun p => (p.cfg.kind, p.cfg.index, p.dwell))
        = some (.laneIn, 5, some 0)
      ∧ ((dwelling .laneIn id).yard.lane? 5).isSome = true)
    ∧ (((dwelling .washIn id).yard.contactPoint? 0 4).map (fun p => (p.cfg.kind, p.dwell)) = some (.washIn, some 0)
      ∧ ((dwelling .washIn id).yard.washLane? 0).isSome = true)
    ∧ ((dwelling .washOut id).yard.contactPoint? 0 5).map (fun p => (p.cfg.kind, p.cfg.repeats, p.dwell))
        = some (.washOut, true, some 0)
    ∧ (((dwelling .gateOut id).yard.expectation? 2240).map (fun x => (x.1.cfg.kind, x.2))
        = some (.gateOut, ⟨2240, some 0⟩))
    ∧ (at_ fun y => { y with signs := { y.signs with sending := some ⟨0, 1⟩ } }).yard.signs.sending = some ⟨0, 1⟩
    ∧ (let y : Yard := { base.yard with signs := ⟨[⟨4, 0, none⟩] ++ ⟨5, 1, some 1⟩ :: [], [⟨5, 0⟩], some ⟨5, 1⟩⟩ }
       (∀ x ∈ y.signs.signs, x.number ≠ 6) ∧ (∀ z ∈ [(⟨4, 0, none⟩ : Sign)], z.number ≠ 5)
        ∧ base.env.running = true ∧ locked.env.running = false ∧ y.signs.sending.isSome = true
        ∧ base.yard.signs.sending = none)
    ∧ ((base.yard.lane? 5).isSome = true ∧ (base.yard.point? .laneIn 5).isSome = true ∧ (base.yard.pump? 1).isSome = true
      ∧ (base.yard.washLane? 0).isSome = true) := by
  simp only [State.works]; decide +kernel

def turn1 : Turn := ⟨2615, 5, 1, 18000, 0, 17999, 17999⟩

def fuelling : State := at_ fun y => turn .fuelling 18043 y

theorem witness_NozzleLiftsAndMeterPulses :
    (let q := pump1 .occupied (some turn1) none
     (withPump q).works ∧ (withPump q).yard.pump? 1 = some q ∧ q.state = .occupied ∧ q.turn = some turn1)
    ∧ (let q := pump1 .fuelling (some turn1) none
       (withPump q).yard.pump? 1 = some q ∧ q.state = .fuelling ∧ q.state ≠ .occupied)
    ∧ (let q := pump1 .free none none; (withPump q).yard.pump? 1 = some q ∧ q.state ≠ .fuelling) := by
  simp only [State.works]; decide +kernel

theorem witness_HangAndNoFlowEndTheTurn :
    (fuelling.works
      ∧ (fuelling.yard.pump? 1).map (fun q => (q.state, q.turn.isSome, q.timer, q.cfg.fuel))
        = some (.fuelling, true, some 60000, .diesel)
      ∧ (fuelling.yard.rec? 2615).map (fun r => (r.state, r.loc)) = some (.inService, .pump 1))
    ∧ (let two (st : PumpState) (y : Yard) : Yard := { y with fuel := { y.fuel with
         pumps := [{ pump1 .out (some turn1) none with cfg := ⟨1, .diesel, 100, 5000, 40000⟩ },
           { cfg := ⟨2, .diesel, 100, 5000, 40000⟩, state := st }] } }
       (two .free base.yard).fuel.pumps.any (fun x => x.cfg.fuel == .diesel && x.state != .out) = true
        ∧ (two .out base.yard).fuel.pumps.any (fun x => x.cfg.fuel == .diesel && x.state != .out) = false)
    ∧ (let q (st : PumpState) := pump1 st (some turn1) none
       (withPump (q .finished)).yard.pump? 1 = some (q .finished) ∧ (withPump (q .out)).yard.pump? 1 = some (q .out)
        ∧ (withPump (q .occupied)).yard.pump? 1 = some (q .occupied)
        ∧ (withPump (q .fuelling)).yard.pump? 1 = some (q .fuelling)
        ∧ (withPump (q .calling)).yard.pump? 1 = some (q .calling)
        ∧ (held 2615 .inService (.pump 1)).yard.rec? turn1.fleet = some ⟨bus 2615, .inService, .pump 1⟩
        ∧ (bus 2615).level ≤ 100)
    ∧ ((held 7 .seeking (.pump 1)).yard.rec? 7 = some ⟨bus 7, .seeking, .pump 1⟩
      ∧ (held 7 .seeking (.pump 1)).yard.rec? 8 = none)
    ∧ (List.replicate 30 (⟨.intruder, 0, none, none, []⟩ : Notice)).length ≤ 30 := by
  simp only [State.works]; decide +kernel

theorem witness_ApronArrivalsSkipsAndAging :
    (let s := at_ (apron .calling 1322)
     s.works ∧ (s.yard.pump? 1).map (fun q => (q.state, q.turn.map (·.skips))) = some (.calling, some 0)
      ∧ 0 + 1 < s.layout.islandCfg.maxSkips
      ∧ s.yard.fuel.queue.length + s.yard.fuel.reservs.length < s.layout.islandCfg.capacity
      ∧ base.layout.islandCfg.maxSkips ≤ turn1.skips + 1)
    ∧ (at_ fun y => { y with fuel := { y.fuel with aging := some 0 } }).yard.fuel.aging = some 0
    ∧ ((held 2615 .expected .apron).yard.rec? 2615 = some ⟨bus 2615, .expected, .apron⟩
      ∧ base.yard.served (bus 2615).fuel = true ∧ base.yard.served .gas = false)
    ∧ (let y (p : PumpState) := (at_ (apron p 0)).yard
       ((y .free).pump? 1).map (·.state) = some .free ∧ ((y .finished).pump? 1).map (·.state) = some .finished
        ∧ ((y .out).pump? 1).map (·.state) = some .out)
    ∧ (let y := (at_ (apron .free 0)).yard
       ∃ p x r, y.nextCall = some (p, x) ∧ x.fleet = 1340 ∧ y.rec? x.fleet = some r
        ∧ base.layout.islandCfg.minFill ≤ fillTarget base.env y x.fuel r.bus.capacity r.bus.level p.cfg.maxTurn
            (r.bus.pin.map (·.release)))
    ∧ (let y := (at_ fun y => { apron .free 0 y with
         fuel := { (apron .free 0 y).fuel with diesel := { stock := 1999 } } }).yard
       ∃ p x r, y.nextCall = some (p, x) ∧ y.rec? x.fleet = some r
        ∧ fillTarget base.env y x.fuel r.bus.capacity r.bus.level p.cfg.maxTurn (r.bus.pin.map (·.release))
            < base.layout.islandCfg.minFill)
    ∧ base.yard.nextCall = none :=
  ⟨by simp only [State.works]; decide +kernel, rfl, by decide +kernel, by decide +kernel,
    ⟨_, _, _, rfl, rfl, rfl, by decide +kernel⟩, ⟨_, _, _, rfl, rfl, by decide +kernel⟩, by decide +kernel⟩

def standard (f : Nat) : WashEntry := ⟨f, .standard, 0⟩

/-- R141 and R226: while STANDARD is washed its code 2 stands on the PROG pins, A low and B high; in DRAINING both are
low. The lane that the layout lacks keeps START low. -/
theorem test_prog_pins :
    (let s (st : WashState) := withWash (wash0 st (some 7) (some (standard 7)) []) {}
     ((s .washing).startPin 0, (s .washing).progA 0, (s .washing).progB 0) == (true, false, true)
       && ((s .draining).startPin 0, (s .draining).progA 0, (s .draining).progB 0) == (false, false, false)
       && (s .washing).startPin 1 == false) = true := by decide +kernel

theorem witness_BusyAndDoneDriveTheWash :
    (let l := wash0 .starting (some 7) (some (standard 7)) []
     (withWash l {}).works ∧ (withWash l {}).yard.washLane? 0 = some l ∧ l.state = .starting ∧ l.state ≠ .washing
      ∧ l.called = some (standard 7))
    ∧ (let l := wash0 .washing (some 7) (some (standard 7)) []
       (withWash l {}).yard.washLane? 0 = some l ∧ l.state ≠ .starting ∧ l.current = some 7
        ∧ l.called = some (standard 7))
    ∧ (let l := wash0 .free none none (standard 8 :: [standard 9])
       let y : Yard := { (withWash l {}).yard with records := [⟨bus 8, .expected, .wash 0⟩] }
       y.washLane? 0 = some l ∧ l.queue.length ≤ 8 ∧ y.rec? (standard 8).fleet = some ⟨bus 8, .expected, .wash 0⟩
        ∧ l.downgrade .standard 0 (slackOf 600 (some 1010)) ≠ .noWash
        ∧ l.downgrade .standard 0 (slackOf 600 (some 610)) = .noWash)
    ∧ (let l := wash0 .calling none (some (standard 7)) []
       (withWash l {}).yard.washLane? 0 = some l ∧ l.state ≠ .free ∧ l.called = some (standard 7))
    ∧ (let l (st : WashState) := wash0 st (some 7) none []
       (withWash (l .loading) {}).yard.washLane? 0 = some (l .loading)
        ∧ (withWash (l .draining) {}).yard.washLane? 0 = some (l .draining)
        ∧ (withWash (l .out) {}).yard.washLane? 0 = some (l .out) ∧ (l .out).current = some 7)
    ∧ (held 7 .inService (.wash 0)).yard.rec? 7 = some ⟨bus 7, .inService, .wash 0⟩ := by
  simp only [State.works]; decide +kernel

theorem witness_WashFaultsSkipsAndReleasedInputs :
    (let l := wash0 .starting (some 7) (some (standard 7)) []
     (withWash l {}).works ∧ (withWash l {}).yard.washLane? 0 = some l ∧ l.state ≠ .out ∧ l.state = .starting)
    ∧ (let l := wash0 .out none none []; (withWash l {}).yard.washLane? 0 = some l ∧ l.state = .out)
    ∧ (let l := wash0 .calling none (some (standard 7)) [standard 8, standard 9, standard 10]
       (withWash l {}).yard.washLane? 0 = some l ∧ l.state = .calling ∧ l.called = some (standard 7)
        ∧ (standard 7).skips + 1 < l.cfg.maxSkips ∧ l.queue.length + l.reservs.length < l.cfg.depth)
    ∧ (let l := wash0 .calling none (some (standard 7)) [standard 8, standard 9, standard 10, standard 11]
       (withWash l {}).yard.washLane? 0 = some l ∧ l.cfg.depth ≤ l.queue.length + l.reservs.length)
    ∧ (base.inReset = false ∧ base.yard.washLane? 1 = none ∧ 0 < 2 ∧ (base.yard.washLane? 0).isSome = true)
    ∧ (let y' := removeExpect hall.env .washIn 0 2702 hall.yard
       (hall.yard.rec? 2702).isSome = true
        ∧ (hall.yard.washLane? 1).map (fun l => (l.state, l.queue.length + l.reservs.length, l.cfg.depth,
          l.cfg.joinProg .full)) = some (.free, 1, 2, .standard)
        ∧ (pushExpect hall.env .washIn 1 2702 false y').isSome = true)
    ∧ base.yard.washLane? (1 - 0) = none := by
  simp only [State.works]; decide +kernel

def gateOf (f : GateUnit → GateUnit) : State := at_ fun y => { y with gate := f y.gate }

theorem witness_PollsAndTheirResults :
    (let s := gateOf fun g => { g with pollTimer := some 0 }
     s.works ∧ s.layout.gate = some gcfg ∧ s.yard.gate.pollTimer = some 0 ∧ s.yard.gate.polling = false
      ∧ s.yard.gate.busHeld = false)
    ∧ (gateOf fun g => { g with pollTimer := some 0, polling := true }).yard.gate.polling = true
    ∧ (natBits 7 80 ++ [true])[7]? = some true
    ∧ (pollOutcome gcfg.reader [true, false, true, false, false, false, false, true, true] = some .noTag
      ∧ pollOutcome gcfg.reader [false] = some .arbitrationLost)
    ∧ (gateOf fun g => { g with pollTimer := some 0, busHeld := true }).yard.gate.busHeld = true
    ∧ (let s := gateOf fun g => { g with polling := true, failCount := 2 }
       s.works ∧ s.layout.gate = some gcfg ∧ s.yard.gate.polling = true ∧ s.yard.notices.length < 32
        ∧ 2 ≤ s.yard.gate.failCount ∧ s.yard.gate.faultRaised = false) := by
  simp only [State.works]; decide +kernel

theorem witness_TagsAndTheLoopCrossCheck :
    (let s := gateOf fun g => { g with polling := true, fifo := List.replicate 7 ⟨b0, false⟩ }
     s.works ∧ s.layout.gate = some gcfg ∧ s.yard.gate.polling = true
      ∧ pollOutcome gcfg.reader (sdaOf tag1187) = some (.tag tag1187)
      ∧ pollOutcome gcfg.reader (sdaOf (Vector.replicate 8 0)) = some (.tag (Vector.replicate 8 0))
      ∧ decodeTag (Vector.replicate 8 0) = .noMark
      ∧ decodeTag (tag1187.set 7 0) = .bad ∧ decodeTag tag1187 = .good ⟨1187, 0, .diesel, 200, 35, .standard⟩
      ∧ s.yard.gate.fifo.length < 8)
    ∧ 8 ≤ (fifo 8).yard.gate.fifo.length
    ∧ (gateOf fun g => { g with arrivals := [585] }).yard.gate.arrivals = 585 :: [] := by
  simp only [State.works]; decide +kernel

theorem witness_TagBytesAreReadAsWritten :
    (0 : Byte) ≠ 0xC6 ∧ (1 ≤ (4095 : BitVec 12).toNat ∧ 50 ≤ (600 : BitVec 10).toNat ∧ (600 : BitVec 10).toNat ≤ 600
      ∧ (100 : BitVec 7).toNat ≤ 100)
    ∧ ¬ (1 ≤ (0 : BitVec 12).toNat) ∧ ¬ ((601 : BitVec 10).toNat ≤ 600) := by decide

theorem witness_TheEndOfAnEventGivesOutEveryFreeEntry :
    base.env.running = true ∧ (fifo 8).yard.gate.fifo.length ≤ 8
    ∧ (let y := (fifo 1).yard
       y.gate.fifo = ⟨{ b0 with fleet := 9 }, false⟩ :: [] ∧ y.rec? 9 = none ∧ y.records.length < 96 ∧ y.tablePin 9 = none
        ∧ ∀ d ∈ y.gate.duties, d.state ≠ .unpinned)
    ∧ ((held 9 .parked (.lane 5)).yard.rec? 9).isSome = true ∧ 96 ≤ crowded.yard.records.length
    ∧ (oneDuty .pinned [⟨9999, 9⟩]).yard.tablePin 9 = some ⟨9999, 1010⟩
    ∧ ((oneDuty .unpinned []).yard.gate.duties = [] ++ aDuty 9999 .unpinned :: []
      ∧ (aDuty 9999 .unpinned).mask.getLsbD b0.cls = true ∧ (aDuty 9999 .unpinned).fuel = b0.fuel)
    ∧ (let y (n : Nat) (it : List Service) : Yard := { base.yard with
         records := [⟨{ bus 1 with itinerary := [.berth] }, .seeking, .gate⟩, ⟨{ bus 9 with itinerary := it }, .seeking, .gate⟩]
         seeking := [1, 9]
         seek.table := (List.range n).map fun i => { number := i, subject := .bus 1 .berth } }
       (y 7 [.wash, .berth]).seek.table.length < 8 ∧ 8 ≤ (y 8 []).seek.table.length
        ∧ (y 7 [.wash, .berth]).nextSubject = some (.bus 9 .wash) ∧ (y 7 []).nextSubject = none
        ∧ (y 7 []).seeking = [1] ++ 9 :: [] ∧ (∃ en ∈ (y 7 []).seek.table, en.subject = .bus 1 .berth)
        ∧ (y 7 []).rec? 9 = some ⟨{ bus 9 with itinerary := [] }, .seeking, .gate⟩
        ∧ ∀ en ∈ (y 7 []).seek.table, en.subject = .bus 1 .berth)
    ∧ ((oneDuty (.calling true false) []).yard.gate.duties = [] ++ aDuty 9999 (.calling true false) :: []
      ∧ (oneDuty (.calling true false) []).yard.nextSubject = some (.duty 9999)) := by decide +kernel

end Sys2Proof.Tests
end

section
/-! SUPPORT. The laws that the statements on bus records and custody rest on: how a command reaches its block, when two
yards are equal, the insertion request, the lane's positions, and the requests of the transmit queue. -/

namespace Sys2Proof.Machine

/-! ## A host command at a ready station -/

/-- At a ready station, in a phase that takes its code, a command row sends what its block replies. -/
theorem hostRow_taken {s : State} (h : s.ready) {code : Nat} (ht : takenIn code s.phase = true) (i : Instr)
    (f : State → Reply) : s.hostRow i code f = (f s).give code s := by
  rw [hostRow_ready h, command_taken h ht]

@[simp] theorem give_no (code : Nat) (r : HostResult) (s : State) : (Reply.no r).give code s = s.answer code r [] := rfl
@[simp] theorem give_done (code : Nat) (data : List Byte) (s t : State) :
    (Reply.done t data).give code s = t.answer code .done data := rfl
@[simp] theorem give_ok (code : Nat) (s t : State) : (Reply.ok t).give code s = t.answer code .done [] := rfl

/-- READ is taken in every phase (R210). -/
theorem takenIn_read (p : Phase) : takenIn 23 p = true := by cases p <;> rfl

/-! ## Equal yards -/

/-- Two yards with the same parts are the same. -/
theorem yard_eq_of_parts {a b : Yard} (records : a.records = b.records) (seeking : a.seeking = b.seeking)
    (line : a.line = b.line) (seek : a.seek = b.seek) (saturated : a.saturated = b.saturated)
    (lanes : a.lanes = b.lanes) (fuel : a.fuel = b.fuel) (wash : a.wash = b.wash) (gate : a.gate = b.gate) (points : a.points = b.points)
    (signs : a.signs = b.signs) (notices : a.notices = b.notices) (lost : a.lost = b.lost) (cnt : a.cnt = b.cnt) :
    a = b := by
  cases a
  cases b
  simp only at *
  subst_vars
  rfl

/-! ## Insertion (R10) -/

theorem insertAnswer_held {f : Nat} {y : Yard} (h : (y.rec? f).isSome = true) : insertAnswer f y = .held := by
  simp [insertAnswer, h]

theorem insertAnswer_full {f : Nat} {y : Yard} (h : y.rec? f = none) (hn : 96 ≤ y.records.length) :
    insertAnswer f y = .full := by
  simp [insertAnswer, h, Config.custodyCap, hn]

theorem insertAnswer_inserted {f : Nat} {y : Yard} (h : y.rec? f = none) (hn : y.records.length < 96) :
    insertAnswer f y = .inserted := by
  simp [insertAnswer, h, Config.custodyCap, hn]

theorem rec?_addRec_self (r : Record) (y : Yard) : (addRec r y).rec? r.bus.fleet = some r :=
  find?_insertBy_self (fun x : Record => x.bus.fleet) r y.records

theorem rec?_addRec_other (r : Record) (y : Yard) {f : Nat} (h : f ≠ r.bus.fleet) : (addRec r y).rec? f = y.rec? f :=
  find?_insertBy_other (fun x : Record => x.bus.fleet) r f h y.records

/-! ## Lanes -/

/-- A write to a lane that keeps its number is what a search then finds. -/
theorem lane?_onLane_self (n : Nat) (f : Lane → Lane) (y : Yard) (hf : ∀ l, (f l).cfg = l.cfg) :
    (onLane n f y).lane? n = (y.lane? n).map f :=
  find?_updFirst_self _ _ (by simp [hf]) _

/-- Every other lane stays. -/
theorem lane?_onLane_other {n m : Nat} (f : Lane → Lane) (y : Yard) (hf : ∀ l, (f l).cfg = l.cfg) (h : m ≠ n) :
    (onLane n f y).lane? m = y.lane? m := by
  refine find?_updFirst_other _ _ _ (fun l hl => ?_) _
  simp only [beq_iff_eq] at hl
  simp [hf, hl, Ne.symm h]

/-- A change of a lane's positions changes that lane and no other; its light follows at the sign port. -/
theorem onPositions_lanes (e : Env) (n : Nat) (f : List Position → List Position) (y : Yard) :
    (onPositions e n f y).lanes = (onLane n (fun l => { l with positions := f l.positions }) y).lanes := by
  simp [onPositions]

theorem lane?_onPositions_self (e : Env) (n : Nat) (f : List Position → List Position) (y : Yard) :
    (onPositions e n f y).lane? n = (y.lane? n).map fun l => { l with positions := f l.positions } := by
  rw [Yard.lane?, onPositions_lanes]
  exact lane?_onLane_self n _ y fun _ => rfl

theorem lane?_onPositions_other (e : Env) {n m : Nat} (f : List Position → List Position) (y : Yard) (h : m ≠ n) :
    (onPositions e n f y).lane? m = y.lane? m := by
  rw [Yard.lane?, onPositions_lanes]
  exact lane?_onLane_other _ y (fun _ => rfl) h

end Sys2Proof.Machine
end

section
/-! The statements on reads and on PLACE PARKED. -/

namespace Sys2Proof.Proofs.Custody

open Sys2Proof Sys2Proof.Machine

/-! ## Reads (R21, R74, R112, R138, R157, R184, R217) -/

/-- A READ row at a ready station sends its block's data, in every phase. -/
theorem read_done {s : State} (h : s.ready) {i : Instr} {f : State → Reply} {data : List Byte}
    (hi : exec i s = .next (s.hostRow i 23 f)) (hf : f s = .done s data) :
    exec i s = .next (s.answer 23 .done data) := by
  rw [hi, hostRow_taken h (takenIn_read s.phase), hf, give_done]

/-- And its block's refusal, with no data. -/
theorem read_refused {s : State} (h : s.ready) {i : Instr} {f : State → Reply} {r : HostResult}
    (hi : exec i s = .next (s.hostRow i 23 f)) (hf : f s = .no r) : exec i s = .next (s.answer 23 r []) := by
  rw [hi, hostRow_taken h (takenIn_read s.phase), hf, give_no]

theorem fleetOk_of_le {f : Nat} (h : 1 ≤ f) (h' : f ≤ 4095) : fleetOk f = true := by simp [fleetOk, h, h']

theorem dutyOk_of_le {n : Nat} (h : 1 ≤ n) (h' : n ≤ 9999) : dutyOk n = true := by simp [dutyOk, h, h']

/-- Settles O29: each read row replies DONE with its bytes, or the refusal of what is not there, from the state as it
stands. -/
theorem readsAnswerAndChangeNothing : Obligations.ReadsAnswerAndChangeNothing := by
  intro s h
  refine ⟨fun f r h1 h2 hr => ?_, fun f h1 h2 hr => ?_, fun n l hl => ?_, fun n hl => ?_, fun hp => ?_,
    fun w l hl => ?_, fun w hl => ?_, fun n d hg h1 h2 hd => ?_, fun n hg h1 h2 hd => ?_, fun hg => ?_, ?_, ?_, ?_, ?_⟩
  · exact read_done h rfl (by simp [cmdReadRecord, fleetOk_of_le h1 h2, hr])
  · exact read_refused h rfl (by simp [cmdReadRecord, fleetOk_of_le h1 h2, hr])
  · exact read_done h rfl (by simp [cmdReadLane, hl])
  · exact read_refused h rfl (by simp [cmdReadLane, hl])
  · exact read_done h rfl (by simp [cmdReadApron, Yard.hasFuel, hp])
  · exact read_done h rfl (by simp [cmdReadWashQueue, hl])
  · exact read_refused h rfl (by simp [cmdReadWashQueue, hl])
  · exact read_done h rfl (by simp [cmdReadDuty, Option.isSome_iff_ne_none.1 hg, dutyOk_of_le h1 h2, hd])
  · exact read_refused h rfl (by simp [cmdReadDuty, Option.isSome_iff_ne_none.1 hg, dutyOk_of_le h1 h2, hd])
  · exact read_done h rfl (by simp [cmdReadDuties, Option.isSome_iff_ne_none.1 hg])
  · exact read_done h rfl rfl
  · exact read_done h rfl rfl
  · exact read_done h rfl rfl
  · exact read_done h rfl rfl

/-! ## PLACE PARKED (R13, R110) -/

theorem exec_placeParked {s : State} (h : s.ready) (hp : s.phase = .locked) (n : Nat) (b : BusFields) :
    exec (.placeParked n b) s = .next ((cmdPlaceParked n b s).give 11 s) :=
  congrArg Host.Outcome.next (hostRow_taken h (by rw [hp]; rfl) _ _)

/-- What a taken PLACE PARKED writes: the records and the lanes, and a release light that follows. -/
theorem placeParked_parts (n : Nat) (b : BusFields) (e : Env) (y : Yard) :
    placeParked n b e y = { y with
      records := (placeParked n b e y).records
      lanes := (placeParked n b e y).lanes
      signs := (placeParked n b e y).signs } := by
  apply yard_eq_of_parts <;> simp [placeParked]

theorem rec?_placeParked (n : Nat) (b : BusFields) (e : Env) (y : Yard) (f : Nat) :
    (placeParked n b e y).rec? f = (addRec ⟨freshBus b [] e.minute, .parked, .lane n⟩ y).rec? f := by
  simp [placeParked, Yard.rec?]

/-- Settles O22: the refusals in the order of the command's tests, then the two writes of placeParked. -/
theorem placeParkedParksTheBus : Obligations.PlaceParkedParksTheBus := by
  intro s n b h hp hb
  rw [exec_placeParked h hp]
  refine ⟨fun l hl hroom hf hn => ?_, fun hl => ?_, fun l hl hroom => ?_,
    fun l hl hroom => ⟨fun hf => ?_, fun hf hn => ?_⟩⟩
  · have reply : cmdPlaceParked n b s = .ok (s.inYard (placeParked n b)) := by
      simp [cmdPlaceParked, hb, hl, lane_room_iff.2 hroom, insertAnswer_inserted hf hn]
    refine ⟨_, rfl, ?_⟩
    rw [reply, give_ok]
    refine ⟨rfl, ?_, fun f hne => ?_, ?_, fun m hm => ?_, ?_⟩
    · exact (rec?_placeParked n b s.env s.yard b.fleet).trans (rec?_addRec_self _ _)
    · exact (rec?_placeParked n b s.env s.yard f).trans (rec?_addRec_other _ _ hne)
    · exact (lane?_onPositions_self ..).trans (congrArg (Option.map _) hl)
    · exact lane?_onPositions_other _ _ _ hm
    · exact congrArg (fun y => ({ s with yard := y } : State).answer 11 .done []) (placeParked_parts n b s.env s.yard)
  · simp [cmdPlaceParked, hb, hl]
  · have full : l.room = false := Bool.eq_false_iff.2 (mt lane_room_iff.1 (by omega))
    simp [cmdPlaceParked, hb, hl, full]
  · simp [cmdPlaceParked, hb, hl, lane_room_iff.2 hroom, insertAnswer_held hf]
  · simp [cmdPlaceParked, hb, hl, lane_room_iff.2 hroom, insertAnswer_full hf hn]

end Sys2Proof.Proofs.Custody
end

section
/-! SUPPORT. The end of an event: how the arrival FIFO's head asks for its place, what a new record's pin attempt and
next step do, and how the free seek entries go out (R8, R10, R11, R50, R168, R169). -/

namespace Sys2Proof.Machine

/-! ## Searches -/

/-- The first item that satisfies p is found. -/
theorem find?_append_first {α : Type} {p : α → Bool} {a b : List α} {d : α} (ha : ∀ z ∈ a, p z = false)
    (hd : p d = true) : (a ++ d :: b).find? p = some d :=
  List.find?_eq_some_iff_append.2 ⟨hd, a, b, rfl, fun z hz => by simp [ha z hz]⟩

theorem isFor_iff {f : Nat} {en : SeekEntry} : en.isFor f = true ↔ ∃ sv, en.subject = .bus f sv := by
  cases h : en.subject <;> simp [SeekEntry.isFor, h]

/-- A bus has no seek entry when none of the table names it. -/
theorem busSeek?_isNone {y : Yard} {f : Nat} :
    (y.busSeek? f).isNone = true ↔ ¬ ∃ en ∈ y.seek.table, ∃ sv, en.subject = .bus f sv := by
  simp [Yard.busSeek?, isFor_iff]

/-! ## The next step of a new record (R8, R9) -/

theorem rec?_enterSeeking_self {f : Nat} {y : Yard} {r : Record} (h : y.rec? f = some r) :
    (enterSeeking f y).rec? f = some { r with state := .seeking } :=
  rec?_onRec_self (g := fun r => { r with state := .seeking }) (fun _ => rfl) h

theorem rec?_enterSeeking_other {f k : Nat} (y : Yard) (hk : k ≠ f) : (enterSeeking f y).rec? k = y.rec? k :=
  rec?_onRec_other (g := fun r => { r with state := .seeking }) y hk fun _ => rfl

theorem enterSeeking_seeking (f : Nat) (y : Yard) :
    (enterSeeking f y).seeking = y.seeking.filter (· != f) ++ [f] := rfl

/-- A record whose itinerary begins with a service this station seeks for keeps its itinerary. -/
theorem rec?_nextStep_self {f : Nat} {y : Yard} {r : Record} {sv : Service} {rest : List Service}
    (h : y.rec? f = some r) (hi : r.bus.itinerary = sv :: rest) (hs : sv ≠ .exit) :
    (nextStep f y).rec? f = some { r with state := .seeking } := by
  refine rec?_enterSeeking_self ((rec?_onRec_self (fun x => ?_) h).trans ?_)
  · split <;> rfl
  · cases sv <;> simp_all

theorem rec?_nextStep_other {f k : Nat} (y : Yard) (hk : k ≠ f) : (nextStep f y).rec? k = y.rec? k := by
  refine (rec?_enterSeeking_other _ hk).trans (rec?_onRec_other y hk fun x => ?_)
  split <;> rfl

theorem nextStep_seeking (f : Nat) (y : Yard) : (nextStep f y).seeking = y.seeking.filter (· != f) ++ [f] := rfl

/-- A new itinerary begins with FUEL, WASH or BERTH (R168). -/
theorem buildItinerary_head (refuel : Nat) (b : BusFields) :
    ∃ sv rest, buildItinerary refuel b = sv :: rest ∧ sv ≠ .exit := by
  unfold buildItinerary
  (repeat' split) <;> simp

/-! ## The pin attempt (R169) -/

/-- The duties that a new record may be pinned to: OPEN, of its class and its fuel (R169). -/
def Duty.opensTo (cls : Nat) (fuel : Fuel) (d : Duty) : Bool :=
  d.state == .unpinned && d.mask.getLsbD cls && d.fuel == fuel

theorem opensTo_iff {cls : Nat} {fuel : Fuel} {d : Duty} :
    d.opensTo cls fuel = true ↔ d.state = .unpinned ∧ d.mask.getLsbD cls = true ∧ d.fuel = fuel := by
  simp [Duty.opensTo, and_assoc]

theorem pinAttempt_table {f : Nat} {y : Yard} {p : Pin} (h : y.tablePin f = some p) :
    pinAttempt f y = onRec f (Record.setPin (some p)) y := by
  simp [pinAttempt, h]

theorem pinAttempt_first {f : Nat} {y : Yard} {r : Record} {d : Duty} (h : y.tablePin f = none) (hr : y.rec? f = some r)
    (hd : y.gate.duties.find? (Duty.opensTo r.bus.cls r.bus.fuel) = some d) :
    pinAttempt f y = pinRec f d (pair d.number f (onDuty d.number (fun x => { x with state := .pinned }) y)) := by
  unfold Duty.opensTo at hd
  simp [pinAttempt, h, hr, hd]

theorem pinAttempt_none {f : Nat} {y : Yard} {r : Record} (h : y.tablePin f = none) (hr : y.rec? f = some r)
    (hd : y.gate.duties.find? (Duty.opensTo r.bus.cls r.bus.fuel) = none) : pinAttempt f y = y := by
  unfold Duty.opensTo at hd
  simp only [pinAttempt, h, hr, hd]

theorem rec?_setPin_other {f k : Nat} (p : Option Pin) (y : Yard) (hk : k ≠ f) :
    (onRec f (Record.setPin p) y).rec? k = y.rec? k :=
  rec?_onRec_other y hk fun _ => rfl

/-- The pin attempt writes one record. -/
theorem rec?_pinAttempt_other {f k : Nat} (y : Yard) (hk : k ≠ f) : (pinAttempt f y).rec? k = y.rec? k := by
  unfold pinAttempt
  split
  · exact rec?_setPin_other _ _ hk
  · split
    · rfl
    · split
      · exact rec?_setPin_other _ _ hk
      · rfl

/-! ## The head of the arrival FIFO (R11) -/

/-- The record that a FIFO entry becomes, before its pin attempt and its next step (R11, R168). -/
def FifoEntry.record (e : Env) (h : FifoEntry) : Record :=
  ⟨freshBus h.bus (buildItinerary e.layout.gateCfg.refuel h.bus) e.minute, .arrived, .gate⟩

/-- The yard in which the pin attempt of the new record is made. -/
def inserted (e : Env) (h : FifoEntry) (rest : List FifoEntry) (y : Yard) : Yard :=
  addRec (h.record e) { y with gate := { y.gate with fifo := rest } }

theorem fifoStep_empty {e : Env} {y : Yard} (h : y.gate.fifo = []) : fifoStep e y = y := by
  simp [fifoStep, h]

theorem fifoStep_held {e : Env} {y : Yard} {h : FifoEntry} {rest : List FifoEntry} (hf : y.gate.fifo = h :: rest)
    (hr : (y.rec? h.bus.fleet).isSome = true) :
    fifoStep e y = countDupTag { y with gate := { y.gate with fifo := rest } } := by
  simp [fifoStep, hf, insertAnswer_held hr]

theorem fifoStep_full {e : Env} {y : Yard} {h : FifoEntry} {rest : List FifoEntry} (hf : y.gate.fifo = h :: rest)
    (hr : y.rec? h.bus.fleet = none) (hn : 96 ≤ y.records.length) : fifoStep e y = y := by
  simp [fifoStep, hf, insertAnswer_full hr hn]

theorem fifoStep_inserted {e : Env} {y : Yard} {h : FifoEntry} {rest : List FifoEntry} (hf : y.gate.fifo = h :: rest)
    (hr : y.rec? h.bus.fleet = none) (hn : y.records.length < 96) :
    fifoStep e y = nextStep h.bus.fleet (pinAttempt h.bus.fleet (inserted e h rest y)) := by
  simp [fifoStep, hf, insertAnswer_inserted hr hn, inserted, FifoEntry.record]

/-- The head leaves the FIFO, or it stays in front of a full table and nothing changes. -/
theorem fifoStep_moves (e : Env) (y : Yard) :
    (fifoStep e y).gate.fifo = y.gate.fifo.tail ∨ (96 ≤ y.records.length ∧ fifoStep e y = y) := by
  cases hf : y.gate.fifo with
  | nil => exact .inl (by rw [fifoStep_empty hf, hf]; rfl)
  | cons h rest =>
    cases hr : y.rec? h.bus.fleet with
    | some r => exact .inl (by rw [fifoStep_held hf (by simp [hr])]; rfl)
    | none =>
      by_cases hn : y.records.length < 96
      · exact .inl (by rw [fifoStep_inserted hf hr hn]; simp [inserted])
      · exact .inr ⟨by omega, fifoStep_full hf hr (by omega)⟩

theorem fifoTimes_fixed {e : Env} {y : Yard} (h : fifoStep e y = y) (n : Nat) : fifoTimes e n y = y := by
  induction n with
  | zero => rfl
  | succ n ih => rw [fifoTimes, h, ih]

/-- As many requests as the FIFO has entries leave it empty, or its head in front of a full table. -/
theorem fifoTimes_empties (e : Env) (n : Nat) (y : Yard) (h : y.gate.fifo.length ≤ n) :
    (fifoTimes e n y).gate.fifo = [] ∨ 96 ≤ (fifoTimes e n y).records.length := by
  induction n generalizing y with
  | zero => exact .inl (List.length_eq_zero_iff.1 (Nat.le_zero.1 h))
  | succ n ih =>
    rcases fifoStep_moves e y with hm | ⟨hn, hs⟩
    · exact ih _ (by simp only [hm, List.length_tail]; omega)
    · exact .inr (by rwa [fifoTimes_fixed hs])

/-! ## The free seek entries (R50) -/

/-- A CALLING duty with its call pending waits for a seek entry (R50). -/
def Duty.waits (d : Duty) : Bool :=
  match d.state with
  | .calling true _ => true
  | _ => false

theorem duty_waits_iff {d : Duty} : d.waits = true ↔ ∃ g, d.state = .calling true g := by
  unfold Duty.waits
  split <;> simp_all

/-- The first waiting duty comes first; with none the oldest record without an entry decides. -/
theorem nextSubject_eq (y : Yard) : y.nextSubject = match y.gate.duties.find? Duty.waits with
    | some d => some (.duty d.number)
    | none => (y.seeking.find? fun f => (y.busSeek? f).isNone).bind fun f =>
        (y.rec? f).bind fun r => r.bus.itinerary.head?.map (.bus f ·) := by
  have waits : Yard.nextSubject y = match y.gate.duties.find? Duty.waits with
    | some d => some (.duty d.number)
    | none => match y.seeking.find? fun f => (y.busSeek? f).isNone with
      | none => none
      | some f => match y.rec? f with
        | some r => r.bus.itinerary.head?.map (.bus f ·)
        | none => none := rfl
  rw [waits]
  cases y.gate.duties.find? Duty.waits with
  | some d => rfl
  | none =>
    cases y.seeking.find? fun f => (y.busSeek? f).isNone with
    | none => rfl
    | some f => cases h : y.rec? f <;> simp [h]

theorem nextSubject_duty {y : Yard} {d : Duty} (h : y.gate.duties.find? Duty.waits = some d) :
    y.nextSubject = some (.duty d.number) := by
  rw [nextSubject_eq, h]

theorem nextSubject_bus {y : Yard} (h : y.gate.duties.find? Duty.waits = none) :
    y.nextSubject = (y.seeking.find? fun f => (y.busSeek? f).isNone).bind fun f =>
      (y.rec? f).bind fun r => r.bus.itinerary.head?.map (.bus f ·) := by
  rw [nextSubject_eq, h]

/-- No free entry, or nothing that waits for one. -/
def Yard.nothingToGive (y : Yard) : Prop := 8 ≤ y.seek.table.length ∨ y.nextSubject = none

/-- An entry given out for a duty ends its wait. -/
def noteCall (w : Subject) (y : Yard) : Yard :=
  match w with
  | .duty d => callGiven d y
  | .bus _ _ => y

theorem giveEntry_idle {e : Env} {y : Yard} (h : y.nothingToGive) : giveEntry e y = y := by
  rcases h with h | h
  · simp [giveEntry, Config.seekCap, Nat.not_lt.2 h]
  · simp [giveEntry, h]

theorem giveEntry_gives {e : Env} {y : Yard} {w : Subject} (h : y.seek.table.length < 8) (hw : y.nextSubject = some w) :
    giveEntry e y = send e (.seek y.seek.nextNumber) (noteGiven y.seek.nextNumber w (countFrom y.seek.nextNumber
      (noteCall w { y with
        seek := { y.seek with table := y.seek.table ++ [{ number := y.seek.nextNumber, subject := w }] } }))) := by
  unfold giveEntry
  rw [if_pos (show _ < Config.seekCap from h), hw]
  rfl

@[simp] theorem noteCall_table (w : Subject) (y : Yard) : (noteCall w y).seek.table = y.seek.table := by
  cases w <;> rfl

theorem giveEntry_length {e : Env} {y : Yard} (h : ¬ y.nothingToGive) :
    (giveEntry e y).seek.table.length = y.seek.table.length + 1 := by
  rw [Yard.nothingToGive, not_or, Nat.not_le] at h
  obtain ⟨w, hw⟩ := Option.ne_none_iff_exists'.1 h.2
  simp [giveEntry_gives h.1 hw]

theorem giveTimes_idle {e : Env} {y : Yard} (h : y.nothingToGive) (n : Nat) : giveTimes e n y = y := by
  induction n with
  | zero => rfl
  | succ n ih => rw [giveTimes, giveEntry_idle h, ih]

/-- As many tries as the table has free places give out every entry that can go. -/
theorem giveTimes_exhausts (e : Env) (n : Nat) (y : Yard) (h : 8 ≤ y.seek.table.length + n) :
    (giveTimes e n y).nothingToGive := by
  induction n generalizing y with
  | zero => exact .inl h
  | succ n ih =>
    by_cases hy : y.nothingToGive
    · rwa [giveTimes_idle hy]
    · exact ih _ (by rw [giveEntry_length hy]; omega)

/-! ## The end of an event -/

/-- Of the station counters the FIFO's requests reach DUPLICATE_TAGS alone. -/
theorem fifoTimes_cnt (e : Env) (n : Nat) (y : Yard) :
    (fifoTimes e n y).cnt = { y.cnt with dupTags := (fifoTimes e n y).cnt.dupTags } := by
  induction n generalizing y with
  | zero => rfl
  | succ n ih =>
    have step : (fifoStep e y).cnt = { y.cnt with dupTags := (fifoStep e y).cnt.dupTags } := by
      unfold fifoStep countDupTag
      (repeat' split) <;> simp
    rw [fifoTimes, ih, step]

/-- The end of an event reaches the records, the seeking list, the transmit queue, the seek table with its counter and
numbers given, the FIFO, the duties, the pin table and DUPLICATE_TAGS. -/
theorem settle_settledFrom (e : Env) (y : Yard) : y.settledFrom (settle e y) := by
  have cnt : (settle e y).cnt = { y.cnt with dupTags := (settle e y).cnt.dupTags } := by
    simpa [settle] using fifoTimes_cnt e Config.fifoCap y
  obtain ⟨following, nextOffer, curOffer, pool, txBits, checkSlot, flags, lineCnt,
    offers, lapsed, taken, choice, freeCount, saturated, lanes, fuel, wash,
    pollTimer, polling, busOut, busHeld, failCount, faultRaised, reads, arrivals, points, signs, notices, lost⟩ := settle_frame e y
  refine yard_eq_of_parts rfl rfl ?line ?seek saturated lanes fuel wash ?gate points signs notices lost cnt
  case line =>
    dsimp only
    rw [← following, ← nextOffer, ← curOffer, ← pool, ← txBits, ← checkSlot, ← flags, ← lineCnt]
  case seek =>
    dsimp only
    rw [← offers, ← lapsed, ← taken, ← choice, ← freeCount]
  case gate =>
    dsimp only
    rw [← pollTimer, ← polling, ← busOut, ← busHeld, ← failCount, ← faultRaised, ← reads, ← arrivals]

/-- In the RUNNING phase no entry is left that can go (R50, log 5). -/
theorem settle_exhausts {e : Env} (h : e.running = true) (y : Yard) : (settle e y).nothingToGive := by
  rw [settle, giveEntries, if_pos h]
  exact giveTimes_exhausts e Config.seekCap _ (Nat.le_add_left ..)

end Sys2Proof.Machine
end

section
/-! The statement on the end of an event. -/

namespace Sys2Proof.Proofs.Custody

open Sys2Proof Sys2Proof.Machine

/-! ## The end of an event (R11, R50, R168, R169) -/

/-- A duty that waits comes first (R50). -/
theorem nextSubject_of_waiting {y : Yard} {a b : List Duty} {d : Duty} (hy : y.gate.duties = a ++ d :: b)
    (hd : ∃ g, d.state = .calling true g) (ha : ∀ z ∈ a, ¬ ∃ g, z.state = .calling true g) :
    y.nextSubject = some (.duty d.number) := by
  refine nextSubject_duty ?_
  rw [hy]
  exact find?_append_first (fun z hz => Bool.eq_false_iff.2 (mt duty_waits_iff.1 (ha z hz))) (duty_waits_iff.2 hd)

/-- With no duty waiting, the search among the records. -/
theorem nextSubject_of_none_waiting {y : Yard} (h : ∀ d ∈ y.gate.duties, ¬ ∃ g, d.state = .calling true g) :
    y.nextSubject = (y.seeking.find? fun f => (y.busSeek? f).isNone).bind fun f =>
      (y.rec? f).bind fun r => r.bus.itinerary.head?.map (.bus f ·) :=
  nextSubject_bus (List.find?_eq_none.2 fun d hd => mt duty_waits_iff.1 (h d hd))

/-- The first seeking record without an entry. -/
theorem find?_unserved {y : Yard} {a b : List Nat} {f : Nat} (hy : y.seeking = a ++ f :: b)
    (ha : ∀ g ∈ a, ∃ en ∈ y.seek.table, ∃ sv, en.subject = .bus g sv)
    (hf : ¬ ∃ en ∈ y.seek.table, ∃ sv, en.subject = .bus f sv) :
    (y.seeking.find? fun f => (y.busSeek? f).isNone) = some f := by
  rw [hy]
  exact find?_append_first (fun g hg => Bool.eq_false_iff.2 fun h => busSeek?_isNone.1 h (ha g hg))
    (busSeek?_isNone.2 hf)

section Inserted

/-! A FIFO head whose fleet is not held, with room in the table. -/

variable {e : Env} {y : Yard} {h : FifoEntry} {rest : List FifoEntry}

theorem rec?_inserted_self : (inserted e h rest y).rec? h.bus.fleet = some (h.record e) :=
  rec?_addRec_self (h.record e) _

theorem rec?_inserted_other {g : Nat} (hg : g ≠ h.bus.fleet) : (inserted e h rest y).rec? g = y.rec? g :=
  rec?_addRec_other (h.record e) _ hg

variable (hf : y.gate.fifo = h :: rest) (hr : y.rec? h.bus.fleet = none) (hn : y.records.length < 96)
include hf hr hn

/-- With the record left by the pin attempt, the next step makes it SEEKING. -/
theorem rec?_fifoStep {p : Option Pin}
    (hp : (pinAttempt h.bus.fleet (inserted e h rest y)).rec? h.bus.fleet = some ((h.record e).setPin p)) :
    (fifoStep e y).rec? h.bus.fleet = some { (h.record e).setPin p with state := .seeking } := by
  obtain ⟨sv, tail, hi, hs⟩ := buildItinerary_head e.layout.gateCfg.refuel h.bus
  rw [fifoStep_inserted hf hr hn]
  exact rec?_nextStep_self hp hi hs

theorem rec?_fifoStep_other {g : Nat} (hg : g ≠ h.bus.fleet) : (fifoStep e y).rec? g = y.rec? g := by
  rw [fifoStep_inserted hf hr hn, rec?_nextStep_other _ hg, rec?_pinAttempt_other _ hg, rec?_inserted_other hg]

theorem fifoStep_seeking : (fifoStep e y).seeking = y.seeking.filter (· != h.bus.fleet) ++ [h.bus.fleet] := by
  rw [fifoStep_inserted hf hr hn, nextStep_seeking]
  simp [inserted]

theorem fifoStep_gate : (fifoStep e y).gate = (pinAttempt h.bus.fleet (inserted e h rest y)).gate := by
  rw [fifoStep_inserted hf hr hn]
  simp

theorem fifoStep_gate_parts :
    (fifoStep e y).gate = { y.gate with
      fifo := rest, duties := (fifoStep e y).gate.duties, pins := (fifoStep e y).gate.pins } := by
  have parts := pinAttempt_frame h.bus.fleet (inserted e h rest y)
  rw [fifoStep_gate hf hr hn]
  generalize pinAttempt h.bus.fleet (inserted e h rest y) = t at parts ⊢
  obtain ⟨_, _, _, _, _, _, _, _, ⟨⟩, _, _, _, _, _⟩ := t
  simp_all [inserted]

theorem fifoStep_parts :
    fifoStep e y = { y with
      records := (fifoStep e y).records, seeking := (fifoStep e y).seeking, gate := (fifoStep e y).gate } := by
  have cnt : (fifoStep e y).cnt = y.cnt := by
    rw [fifoStep_inserted hf hr hn]
    simp [inserted]
  apply yard_eq_of_parts <;> simp [cnt]

end Inserted

/-- Settles O60: settle is the FIFO's requests and then the entries given out; each is told apart by its own cases. -/
theorem theEndOfAnEventGivesOutEveryFreeEntry : Obligations.TheEndOfAnEventGivesOutEveryFreeEntry := by
  refine ⟨fun e y => ⟨settle_settledFrom e y, fun h => settle_exhausts h y, fun h => ?_, giveEntry_idle,
      fun w h hw => (giveEntry_gives h hw).trans (by cases w <;> rfl)⟩,
    fun y => ⟨fun a d b => nextSubject_of_waiting, fun h => ⟨?_, fun hs => ?_⟩⟩,
    fun e y h rest hf => ⟨fun hr => ?_, fun hr => fifoStep_full hf hr, fun hr hn => ?_⟩⟩
  · simpa [settle] using fifoTimes_empties e Config.fifoCap y h
  · intro a f b r hy ha hf hr
    rw [nextSubject_of_none_waiting h, find?_unserved hy ha hf]
    exact ⟨fun sv rest hi => by simp [hr, hi], fun hi => by simp [hr, hi]⟩
  · rw [nextSubject_of_none_waiting h, List.find?_eq_none.2 fun f hf => mt busSeek?_isNone.1 (not_not.2 (hs f hf))]
    rfl
  · exact fifoStep_held hf hr
  · have tablePin : (inserted e h rest y).tablePin h.bus.fleet = y.tablePin h.bus.fleet := rfl
    have duties : (inserted e h rest y).gate.duties = y.gate.duties := rfl
    refine ⟨fifoStep_seeking hf hr hn, fun g hg => rec?_fifoStep_other hf hr hn hg, fifoStep_gate_parts hf hr hn,
      fifoStep_parts hf hr hn, fun p hp => ?_, fun a d b hp hd hopen ha => ?_, fun hp hd => ?_⟩
    · have pinned := pinAttempt_table (tablePin.trans hp)
      refine ⟨rec?_fifoStep hf hr hn (p := some p) ?_, ?_⟩
      · rw [pinned]
        exact rec?_onRec_self (fun _ => rfl) rec?_inserted_self
      · rw [fifoStep_gate hf hr hn, pinned]
        exact ⟨rfl, rfl⟩
    · have first : (inserted e h rest y).gate.duties.find? (Duty.opensTo h.bus.cls h.bus.fuel) = some d := by
        rw [duties, hd]
        exact find?_append_first (fun z hz => Bool.eq_false_iff.2 (mt opensTo_iff.1 (ha z hz).1)) (opensTo_iff.2 hopen)
      have pinned := pinAttempt_first (tablePin.trans hp) rec?_inserted_self first
      refine ⟨rec?_fifoStep hf hr hn (p := some ⟨d.number, d.release⟩) ?_, ?_⟩
      · rw [pinned]
        exact rec?_onRec_self (fun _ => rfl) rec?_inserted_self
      · rw [fifoStep_gate hf hr hn, pinned]
        refine ⟨?_, rfl⟩
        show updFirst _ _ y.gate.duties = _
        rw [hd]
        exact updFirst_append _ (fun z hz => by simpa using (ha z hz).2) (by simp)
    · have none_open : (inserted e h rest y).gate.duties.find? (Duty.opensTo h.bus.cls h.bus.fuel) = none :=
        List.find?_eq_none.2 fun d hm => mt opensTo_iff.1 (hd d hm)
      have pinned := pinAttempt_none (tablePin.trans hp) rec?_inserted_self none_open
      refine ⟨rec?_fifoStep hf hr hn (p := none) ?_, ?_⟩
      · rw [pinned]
        exact rec?_inserted_self
      · rw [fifoStep_gate hf hr hn, pinned]
        exact ⟨rfl, rfl⟩

end Sys2Proof.Proofs.Custody
end

section
/-! SUPPORT. The custody check (R14 to R17), the choice among candidates (R78) and the OFFER made for it (R55, R91). -/

namespace Sys2Proof.Machine

/-! ## A frame handed over at a working station -/

/-- What a block makes of the yard is what the event leaves. -/
theorem event_works {s : State} (hw : s.works) {i : Instr} {g : Env → Yard → Yard}
    (hi : exec i s = .next (s.whenRunning g)) {z : Yard} (hz : g s.env s.yard = z) :
    exec i s = .next { s with yard := z } := by
  rw [hi, whenRunning_works hw, hz]

/-! ## The custody check (R15, R16) -/

/-- The four states without a confirmed copy (R6). -/
theorem not_confirmed_iff {st : RecState} :
    st.confirmed = false ↔ st = .expected ∨ st = .outbound ∨ st = .stray ∨ st = .adrift := by
  cases st <;> simp [RecState.confirmed]

theorem dropRecord_held {e : Env} {f : Nat} {y : Yard} {r : Record} (h : y.rec? f = some r) :
    dropRecord e f y = removeRec f (endEntries e r (notify e .claimConflict (some f) none [r.state.code] y)) := by
  simp [dropRecord, h]

theorem dropRecord_absent {e : Env} {f : Nat} {y : Yard} (h : y.rec? f = none) : dropRecord e f y = y := by
  simp [dropRecord, h]

theorem custodyCheck_absent {e : Env} {f q : Nat} {ref : SeekRef} {y : Yard} (h : y.rec? f = none) :
    custodyCheck e f q ref y = (false, y) := by
  simp [custodyCheck, h]

/-- A confirmed copy is kept, and a CLAIM says so. -/
theorem custodyCheck_confirmed {e : Env} {f q : Nat} {ref : SeekRef} {y : Yard} {r : Record} (h : y.rec? f = some r)
    (hc : ¬ (r.state = .expected ∨ r.state = .outbound ∨ r.state = .stray ∨ r.state = .adrift)) :
    custodyCheck e f q ref y = (true, send e (.claim q ref f) y) := by
  have conf : r.state.confirmed = true := Bool.eq_true_of_not_eq_false (mt not_confirmed_iff.1 hc)
  simp [custodyCheck, h, conf]

/-- An unconfirmed copy gives way. -/
theorem custodyCheck_unconfirmed {e : Env} {f q : Nat} {ref : SeekRef} {y : Yard} {r : Record} (h : y.rec? f = some r)
    (hc : r.state = .expected ∨ r.state = .outbound ∨ r.state = .stray ∨ r.state = .adrift) :
    custodyCheck e f q ref y
      = (false, removeRec f (endEntries e r (notify e .claimConflict (some f) none [r.state.code] y))) := by
  simp [custodyCheck, h, not_confirmed_iff.2 hc, dropRecord_held h]

/-! ## The cheapest candidate (R78) -/

theorem cheapest_mem {l : List Candidate} {c : Candidate} (h : cheapest l = some c) : c ∈ l := by
  induction l generalizing c with
  | nil => cases h
  | cons x xs ih =>
    unfold cheapest at h
    split at h
    · simp_all
    · rename_i d hd
      split at h
      · cases h; exact .tail _ (ih hd)
      · cases h; exact .head _

/-- The lowest raw cost wins, and among equal ones the earliest. -/
theorem cheapest_eq_some {before after : List Candidate} {c : Candidate} (hb : ∀ d ∈ before, c.raw < d.raw)
    (ha : ∀ d ∈ after, c.raw ≤ d.raw) : cheapest (before ++ c :: after) = some c := by
  induction before with
  | nil =>
    rw [List.nil_append, cheapest]
    cases h : cheapest after with
    | none => rfl
    | some d => exact if_neg (Nat.not_lt.2 (ha d (cheapest_mem h)))
  | cons x xs ih =>
    rw [List.cons_append, cheapest, ih fun d hd => hb d (.tail _ hd)]
    exact if_pos (hb x (.head _))

/-! ## The OFFER (R55, R91) -/

/-- The clamp that changes a cost sets SATURATED (R91). -/
theorem saturate_eq (raw : Nat) (y : Yard) :
    (if 4095 < raw then { y with saturated := true } else y)
      = { y with saturated := y.saturated || decide (4095 < raw) } := by
  by_cases h : 4095 < raw <;> simp [h]

/-- With a free place the OFFER is queued and its choice kept. -/
theorem makeOffer_queued {e : Env} {ref : SeekRef} {what : Summary} {c : Candidate} {y : Yard}
    (h : y.line.queue.length < 8) :
    makeOffer e ref what c y = { y with
      saturated := y.saturated || decide (4095 < c.raw)
      line := { y.line with queue := y.line.queue ++
        [⟨.offer ref (min c.raw 4095) what.service c.area c.fleet, ⟨e.layout.own, .station ref.station, ref,
          .offer (min c.raw 4095) what.service c.area c.fleet⟩, 0, false, false⟩] }
      seek := { y.seek with choice := some (match what with
        | .push sv b => ⟨ref, sv, b.fleet, c.resource, min c.raw 4095, b.release⟩
        | .pull _ => ⟨ref, .exit, c.fleet.getD 0, c.resource, min c.raw 4095, none⟩) } } := by
  unfold makeOffer
  rw [saturate_eq]
  exact if_pos h

/-- With the transmit queue full it is counted as unsent. -/
theorem makeOffer_unsent {e : Env} {ref : SeekRef} {what : Summary} {c : Candidate} {y : Yard}
    (h : 8 ≤ y.line.queue.length) :
    makeOffer e ref what c y = countOfferUnsent { y with saturated := y.saturated || decide (4095 < c.raw) } := by
  unfold makeOffer
  rw [saturate_eq]
  exact if_neg (Nat.not_lt.2 h)

/-- A kept copy ends the offer decision. -/
theorem decideOffer_claimed {e : Env} {q : Nat} {ref : SeekRef} {excl : List Nat} {what : Summary} {y z : Yard}
    (h : seekCheck e q ref what y = (true, z)) : decideOffer e q ref excl what y = z := by
  simp [decideOffer, h]

theorem decideOffer_offers {e : Env} {q : Nat} {ref : SeekRef} {excl : List Nat} {what : Summary} {y z : Yard}
    {c : Candidate} (h : seekCheck e q ref what y = (false, z)) (hx : e.layout.own ∉ excl)
    (ho : z.seek.offers.length < 8) (hc : cheapest (candidates e z what) = some c) :
    decideOffer e q ref excl what y = makeOffer e ref what c z := by
  simp [decideOffer, h, hx, Config.seekCap, ho, hc]

theorem decideOffer_silent {e : Env} {q : Nat} {ref : SeekRef} {excl : List Nat} {what : Summary} {y z : Yard}
    (h : seekCheck e q ref what y = (false, z))
    (hn : e.layout.own ∈ excl ∨ 8 ≤ z.seek.offers.length ∨ candidates e z what = []) :
    decideOffer e q ref excl what y = z := by
  rcases hn with hn | hn | hn <;> simp [decideOffer, h, hn, Config.seekCap, cheapest]

end Sys2Proof.Machine
end

section
/-! The statements on a SEEK and on an OFFER taken from the receive pool. -/

namespace Sys2Proof.Proofs.Custody

open Sys2Proof Sys2Proof.Machine

/-! ## SEEK (R16, R53, R55, R78, R91) -/

/-- The oldest SEEK of the pool is taken out and decided on. -/
theorem exec_seekReceived {s : State} (hw : s.works) {f : Frame} {area : Nat} {excl : List Nat} {what : Summary}
    (hf : s.yard.line.pool.find? (·.body.isSeek) = some f) (hb : f.body = .seek area excl what) :
    exec .seekReceived s = .next { s with yard := settle s.env (decideOffer s.env f.source f.ref excl what
      { s.yard with line := { s.yard.line with pool := dropFirst (·.body.isSeek) s.yard.line.pool } }) } :=
  event_works hw rfl (by simp only [seekReceived, takeSeek, hf, Option.map_some, hb])

/-- Settles O35: after the custody check the cheapest of the candidates, if one can be offered, is made an OFFER. -/
theorem aSeekIsAnsweredWithTheCheapestOffer : Obligations.ASeekIsAnsweredWithTheCheapestOffer := by
  intro s f area excl what hw hf hb y decided
  have run := exec_seekReceived hw hf hb
  have decide_of_check : ∀ z, seekCheck s.env f.source f.ref what y = (false, z) → decided z := by
    intro z hz
    refine ⟨fun before c after hx ho hc hlt hle => ?_, fun hn => ?_⟩
    · have cheapest_c : cheapest (candidates s.env z what) = some c := hc ▸ cheapest_eq_some hlt hle
      rw [run, decideOffer_offers hz hx ho cheapest_c]
      exact ⟨fun hq => by rw [makeOffer_queued hq]; rfl, fun hq => by rw [makeOffer_unsent hq]; rfl⟩
    · rw [run, decideOffer_silent hz hn]
  refine ⟨fun habs => decide_of_check y ?_, fun sv b r hp hr => ⟨fun hc => ?_, fun hc => decide_of_check _ ?_⟩⟩
  · cases what with
    | push sv b => exact custodyCheck_absent (habs sv b rfl)
    | pull d => rfl
  · subst hp
    exact run.trans (by rw [decideOffer_claimed (what := .push sv b) (custodyCheck_confirmed (y := y) hr hc)])
  · subst hp
    exact custodyCheck_unconfirmed hr hc

/-! ## OFFER (R53, R68, R72) -/

/-- The oldest OFFER of the pool is taken out and acted on. -/
theorem exec_offerReceived {s : State} (hw : s.works) {q cost area : Nat} {sv : Service} {fleet : Option Nat} {d : Dest}
    {ref : SeekRef} (hh : s.yard.line.head = some ⟨q, d, ref, .offer cost sv area fleet⟩) {z : Yard}
    (hz : takeOffer s.env q ref cost area fleet (dropHead s.yard) = z) :
    exec .offerReceived s = .next { s with yard := settle s.env z } :=
  event_works hw rfl (by simp only [offerReceived, hh, hz])

theorem seekEntry?_number {y : Yard} {n : Nat} {en : SeekEntry} (h : y.seekEntry? n = some en) : en.number = n := by
  simpa using List.find?_some h

/-- The entry of this station's own seek number. -/
theorem ownSeek?_own (e : Env) (n : Nat) (y : Yard) : ownSeek? e ⟨e.layout.own, n⟩ y = y.seekEntry? n := by
  simp [ownSeek?]

theorem ownSeek?_opened {e : Env} {n : Nat} {y : Yard} {en : SeekEntry} (h : y.seekEntry? n = some en)
    (ho : en.state = .opened) : (ownSeek? e ⟨e.layout.own, n⟩ y).filter (·.state == .opened) = some en := by
  simp [ownSeek?_own, h, Option.filter, ho]

/-- An OFFER that names no fleet is cancelled with the fleet its seek number was given for (R72). -/
theorem cancelOffer_given {e : Env} {q : Nat} {ref : SeekRef} {y : Yard} {k g : Nat}
    (h : y.seek.given.find? (·.1 == ref.number) = some (k, g)) :
    cancelOffer e q ref none y = send e (.cancel q ref g) y := by
  simp only [cancelOffer, h]

section TakeOffer

variable {e : Env} {q n cost area : Nat} {fleet : Option Nat} {y : Yard} {en : SeekEntry}

theorem takeOffer_push {f : Nat} {sv : Service} (h : y.seekEntry? n = some en) (ho : en.state = .opened)
    (hs : en.subject = .bus f sv) :
    takeOffer e q ⟨e.layout.own, n⟩ cost area fleet y = takePushOffer e n f ⟨q, cost, area⟩ y := by
  simp [takeOffer, ownSeek?_opened h ho, hs, seekEntry?_number h]

theorem takeOffer_pull_kept {dn : Nat} {z : Yard} (h : y.seekEntry? n = some en) (ho : en.state = .opened)
    (hs : en.subject = .duty dn) (hc : offerCheck e q ⟨e.layout.own, n⟩ fleet y = (true, z)) :
    takeOffer e q ⟨e.layout.own, n⟩ cost area fleet y = excludeAndRetry e n q z := by
  simp [takeOffer, ownSeek?_opened h ho, hs, seekEntry?_number h, hc]

theorem takeOffer_pull_taken {dn : Nat} {z : Yard} (h : y.seekEntry? n = some en) (ho : en.state = .opened)
    (hs : en.subject = .duty dn) (hc : offerCheck e q ⟨e.layout.own, n⟩ fleet y = (false, z)) :
    takeOffer e q ⟨e.layout.own, n⟩ cost area fleet y = takePullOffer e n ⟨q, cost, area⟩ fleet z := by
  simp [takeOffer, ownSeek?_opened h ho, hs, seekEntry?_number h, hc]

/-- With no entry in OPEN of its number it is answered with a CANCEL, after the custody check. -/
theorem takeOffer_cancels (h : ∀ en, y.seekEntry? n = some en → en.state ≠ .opened) :
    takeOffer e q ⟨e.layout.own, n⟩ cost area fleet y
      = cancelOffer e q ⟨e.layout.own, n⟩ fleet (offerCheck e q ⟨e.layout.own, n⟩ fleet y).2 := by
  have unmatched : (y.seekEntry? n).filter (·.state == .opened) = none := by
    cases hn : y.seekEntry? n with
    | none => rfl
    | some en => simpa using h en hn
  simp [takeOffer, ownSeek?_own, unmatched]

end TakeOffer

/-- Settles O37: by the entry of the seek number, then by the custody check of the offered fleet. -/
theorem anOfferIsTakenOrCancelled : Obligations.AnOfferIsTakenOrCancelled := by
  intro s q n cost area sv fleet d hw hh unconfirmed claimed dropped
  have run := @exec_offerReceived s hw q cost area sv fleet d _ hh
  refine ⟨fun en f svc hn ho hs => run (takeOffer_push hn ho hs), fun en dn g hn ho hs hf => ?_, fun g hn => ?_⟩
  · subst hf
    exact ⟨fun hr => run (takeOffer_pull_taken hn ho hs (custodyCheck_absent (y := dropHead s.yard) hr)),
      fun r hr hc => run (takeOffer_pull_kept hn ho hs (custodyCheck_confirmed (y := dropHead s.yard) hr hc)),
      fun r hr hc => run (takeOffer_pull_taken hn ho hs (custodyCheck_unconfirmed (y := dropHead s.yard) hr hc))⟩
  · have cancels := takeOffer_cancels (e := s.env) (q := q) (cost := cost) (area := area) (fleet := fleet)
      (y := dropHead s.yard) hn
    refine ⟨?_, fun r hf hr hc => ?_, fun r hf hr hc => ?_⟩
    · rintro (⟨rfl, hr⟩ | ⟨rfl, k, hg⟩)
      · exact run (cancels.trans (by rw [offerCheck, custodyCheck_absent (y := dropHead s.yard) hr]; rfl))
      · exact run (cancels.trans (cancelOffer_given hg))
    · subst hf
      exact run (cancels.trans (by rw [offerCheck, custodyCheck_confirmed (y := dropHead s.yard) hr hc]; rfl))
    · subst hf
      exact run (cancels.trans (by rw [offerCheck, custodyCheck_unconfirmed (y := dropHead s.yard) hr hc]; rfl))

end Sys2Proof.Proofs.Custody
end

section
/-! SUPPORT. CANCEL and the lapsed list (R71), the cancelled seek (R70), and what a dropped record ends (R15). -/

namespace Sys2Proof.Machine

theorem dropFirst_of_none {α : Type} {p : α → Bool} {l : List α} (h : ∀ x ∈ l, p x = false) : dropFirst p l = l := by
  induction l with
  | nil => rfl
  | cons x xs ih => simp [dropFirst, h x (.head _), ih fun z hz => h z (.tail _ hz)]

/-! ## CANCEL (R71) -/

theorem takeCancel_held {e : Env} {ref : SeekRef} {f : Nat} {y : Yard} {o : OfferEntry}
    (h : y.heldOffer? ref f = some o) : takeCancel e ref f y = removeOffer true ref f (releaseRes o.resource ref f y) := by
  simp only [takeCancel, h]

theorem takeCancel_exit {e : Env} {ref : SeekRef} {f : Nat} {y : Yard} {o : OfferEntry} (h : y.heldOffer? ref f = none)
    (ho : y.exitOffer? ref f = some o) : takeCancel e ref f y = endCallOut e o y := by
  simp only [takeCancel, h, ho]

theorem takeCancel_lapsed {e : Env} {ref : SeekRef} {f : Nat} {y : Yard} (h : y.heldOffer? ref f = none)
    (ho : y.exitOffer? ref f = none) : takeCancel e ref f y = dropLapsed ref f y := by
  simp only [takeCancel, h, ho]

/-- The entry found is one of the seek reference and the fleet. -/
theorem exitOffer?_is {y : Yard} {ref : SeekRef} {f : Nat} {o : OfferEntry} (h : y.exitOffer? ref f = some o) :
    o.ref = ref ∧ o.fleet = f := by
  have found := List.find?_some h
  simp only [OfferEntry.is, Bool.and_eq_true, beq_iff_eq] at found
  exact found.1

/-- A call-out that ends gives the bus's position back to PARKED (R69, R102). -/
theorem endCallOut_lane {e : Env} {o : OfferEntry} {l : Nat} (y : Yard) (h : o.resource = .lane l) :
    endCallOut e o y = setPosition e l o.fleet .parked
      (removeOffer false o.ref o.fleet (withdraw e (fun x => x == .exitHandover o.ref o.fleet) y)) := by
  simp only [endCallOut, h, Resource.laneNo]
  rfl

theorem dropLapsed_of_none {ref : SeekRef} {f : Nat} {y : Yard}
    (h : ∀ x ∈ y.seek.lapsed, ¬ (x.ref = ref ∧ x.fleet = f)) : dropLapsed ref f y = y := by
  rw [dropLapsed, dropFirst_of_none fun x hx => Bool.eq_false_iff.2 (by simpa using h x hx)]

theorem dropLapsed_first {ref : SeekRef} {f : Nat} {y : Yard} {a b : List LapsedItem} {x : LapsedItem}
    (hy : y.seek.lapsed = a ++ x :: b) (ha : ∀ z ∈ a, ¬ (z.ref = ref ∧ z.fleet = f)) (hr : x.ref = ref)
    (hf : x.fleet = f) : dropLapsed ref f y = { y with seek := { y.seek with lapsed := a ++ b } } := by
  rw [dropLapsed, hy, dropFirst_append (fun z hz => Bool.eq_false_iff.2 (by simpa using ha z hz)) (by simp [hr, hf])]

/-! ## The cancelled seek (R70) -/

section CancelSeek

variable {e : Env} {n : Nat} {y : Yard} {en : SeekEntry}

theorem cancelSeek_queued (h : y.seekEntry? n = some en) (hs : en.state = .queued) :
    cancelSeek e n y = withdraw e (fun x => x == .seek n) (removeSeek n y) := by
  simp only [cancelSeek, h, hs]

theorem cancelSeek_idle (h : y.seekEntry? n = some en) (hs : en.state = .opened ∨ en.state = .waitRetry) :
    cancelSeek e n y = removeSeek n y := by
  rcases hs with hs | hs <;> simp only [cancelSeek, h, hs]

theorem cancelSeek_handing {ph : HandPhase} {f : Nat} {sv : Service} {w : Winner} (h : y.seekEntry? n = some en)
    (hs : en.state = .handing ph) (hb : en.subject = .bus f sv) (hw : en.winner = some w) :
    cancelSeek e n y = send e (.cancel w.station ⟨e.layout.own, n⟩ f)
      (withdraw e (fun x => x == .handover n) (removeSeek n y)) := by
  simp only [cancelSeek, h, hs, hb, hw]
  rfl

theorem cancelSeek_awaiting {w : Winner} {f : Nat} (h : y.seekEntry? n = some en) (hs : en.state = .awaiting)
    (hw : en.winner = some w) (ho : en.offered = some f) :
    cancelSeek e n y = send e (.cancel w.station ⟨e.layout.own, n⟩ f) (removeSeek n y) := by
  simp only [cancelSeek, h, hs, hw, ho]

theorem cancelSeek_awaiting_unoffered (h : y.seekEntry? n = some en) (hs : en.state = .awaiting)
    (ho : en.offered = none) : cancelSeek e n y = removeSeek n y := by
  cases hw : en.winner <;> simp only [cancelSeek, h, hs, hw, ho]

end CancelSeek

theorem isFor_eq_false {f : Nat} {en : SeekEntry} (h : ∀ sv, en.subject ≠ .bus f sv) : en.isFor f = false :=
  Bool.eq_false_iff.2 (mt isFor_iff.1 (not_exists.2 h))

/-- The first entry of the bus is the one cancelled. -/
theorem cancelBusSeek_first {e : Env} {f : Nat} {y : Yard} {a b : List SeekEntry} {en : SeekEntry} {sv : Service}
    (hy : y.seek.table = a ++ en :: b) (hs : en.subject = .bus f sv) (ha : ∀ z ∈ a, ∀ v, z.subject ≠ .bus f v) :
    cancelBusSeek e f y = cancelSeek e en.number y := by
  have found : y.busSeek? f = some en := by
    rw [Yard.busSeek?, hy]
    exact find?_append_first (fun z hz => isFor_eq_false (ha z hz)) (isFor_iff.2 ⟨sv, hs⟩)
  simp only [cancelBusSeek, found]

theorem cancelBusSeek_none {e : Env} {f : Nat} {y : Yard} (h : ∀ z ∈ y.seek.table, ∀ v, z.subject ≠ .bus f v) :
    cancelBusSeek e f y = y := by
  have absent : y.busSeek? f = none := List.find?_eq_none.2 fun z hz => by simp [isFor_eq_false (h z hz)]
  simp only [cancelBusSeek, absent]

/-! ## What a drop ends (R15) -/

theorem dropExitOffer_some {e : Env} {f : Nat} {y : Yard} {o : OfferEntry}
    (h : y.seek.offers.find? (fun o => o.service == .exit && o.fleet == f) = some o) :
    dropExitOffer e f y = removeOffer false o.ref f (withdraw e (fun x => x == .exitHandover o.ref f) y) := by
  have found := List.find?_some h
  simp only [Bool.and_eq_true, beq_iff_eq] at found
  simp only [dropExitOffer, h, found.2]
  rfl

theorem dropExitOffer_none {e : Env} {f : Nat} {y : Yard}
    (h : y.seek.offers.find? (fun o => o.service == .exit && o.fleet == f) = none) : dropExitOffer e f y = y := by
  simp only [dropExitOffer, h]

/-- The OUTBOUND duty of the bus is called again (R181). -/
theorem recallFor_first {e : Env} {f : Nat} {y : Yard} {a b : List Duty} {d : Duty} (hy : y.gate.duties = a ++ d :: b)
    (hd : d.state = .outbound f) (ha : ∀ x ∈ a, x.state ≠ .outbound f) : recallFor e f y = enterCalling e d y := by
  have found : y.gate.duties.find? (fun d => d.state == .outbound f) = some d := by
    rw [hy]
    exact find?_append_first (fun z hz => by simpa using ha z hz) (by simp [hd])
  simp only [recallFor, found]

theorem recallFor_none {e : Env} {f : Nat} {y : Yard} (h : ∀ d ∈ y.gate.duties, d.state ≠ .outbound f) :
    recallFor e f y = y := by
  have absent : y.gate.duties.find? (fun d => d.state == .outbound f) = none :=
    List.find?_eq_none.2 fun d hd => by simpa using h d hd
  simp only [recallFor, absent]

/-- A call at the apron ends at the pump that has the bus's turn. -/
theorem endCall_apron {e : Env} {f : Nat} {y : Yard} {a b : List Pump} {p : Pump} {u : Turn}
    (hy : y.fuel.pumps = a ++ p :: b) (hp : p.state = .calling) (hu : p.turn = some u) (hf : u.fleet = f)
    (ha : ∀ x ∈ a, ¬ (x.state = .calling ∧ ∃ v, x.turn = some v ∧ v.fleet = f)) :
    endCall e .apron f y = lookForHeads e (freePump e p.cfg.index y) := by
  have found : y.callingPump? f = some p := by
    rw [Yard.callingPump?, hy]
    exact find?_append_first (fun z hz => Bool.eq_false_iff.2 (by simpa using ha z hz)) (by simp [hp, hu, hf])
  simp only [endCall, found]

/-- A call at a wash lane ends at the lane, which calls its next head. -/
theorem endCall_wash (e : Env) (w f : Nat) (y : Yard) :
    endCall e (.wash w) f y = washCall e w (onQueue e .washIn w (·.filter (·.fleet != f))
      (setWash e w (fun l => { l with state := .free, called := none, timer := none }) y)) := by
  rw [endCall, removeExpect]

section EndEntries

variable {e : Env} {y : Yard} {r : Record}

theorem endEntries_seeking (h : r.state = .seeking ∨ r.state = .handing) :
    endEntries e r y = cancelBusSeek e r.bus.fleet y := by
  rcases h with h | h <;> simp only [endEntries, h]

theorem endEntries_parked {n : Nat} (h : r.state = .parked) (hl : r.loc = .lane n) :
    endEntries e r y
      = leavePosition e n r.bus.fleet (dropExitOffer e r.bus.fleet (dropPendingExit e r.bus.fleet y)) := by
  simp only [endEntries, h, hl]

theorem endEntries_expected {k : PointKind} {i : Nat} (h : r.state = .expected) (hl : r.loc.expectPoint = some (k, i)) :
    endEntries e r y = releaseCommitment r.loc r.bus.fleet (removeExpect e k i r.bus.fleet y) := by
  simp only [endEntries, h, hl]

theorem endEntries_outbound (h : r.state = .outbound) :
    endEntries e r y = recallFor e r.bus.fleet (removeExpect e .gateOut 0 r.bus.fleet y) := by
  simp only [endEntries, h]

theorem endEntries_queued (h : r.state = .queued) : endEntries e r y = dropApronEntry r.bus.fleet y := by
  simp only [endEntries, h]

theorem endEntries_called (h : r.state = .called) : endEntries e r y = endCall e r.loc r.bus.fleet y := by
  simp only [endEntries, h]

theorem endEntries_nothing (h : r.state = .inService ∨ r.state = .stray ∨ r.state = .adrift) :
    endEntries e r y = y := by
  rcases h with h | h | h <;> simp only [endEntries, h]

end EndEntries

end Sys2Proof.Machine
end

section
/-! The statement on CLAIM, CANCEL and REPIN. -/

namespace Sys2Proof.Proofs.Custody

open Sys2Proof Sys2Proof.Machine

section Received

variable {s : State} (hw : s.works) {q f : Nat} {ref : SeekRef} {d : Dest}
include hw

theorem exec_claimReceived (hh : s.yard.line.head = some ⟨q, d, ref, .claim f⟩) {z : Yard}
    (hz : dropRecord s.env f (dropHead s.yard) = z) :
    exec .claimReceived s = .next { s with yard := settle s.env z } :=
  event_works hw rfl (by simp only [claimReceived, hh, hz])

theorem exec_cancelReceived (hh : s.yard.line.head = some ⟨q, d, ref, .cancel f⟩) {z : Yard}
    (hz : takeCancel s.env ref f (dropHead s.yard) = z) :
    exec .cancelReceived s = .next { s with yard := settle s.env z } :=
  event_works hw rfl (by simp only [cancelReceived, hh, hz])

theorem exec_repinReceived {pin : Option Pin} (hh : s.yard.line.head = some ⟨q, d, ref, .repin f pin⟩) {z : Yard}
    (hz : repin f pin (dropHead s.yard) = z) : exec .repinReceived s = .next { s with yard := z } :=
  event_works hw rfl (by simp only [repinReceived, hh, hz])

end Received

theorem repin_held {f : Nat} {pin : Option Pin} {y : Yard} {r : Record} (h : y.rec? f = some r) :
    repin f pin y = match r.state, r.loc with
      | .expected, .lane l => laneRepin l f (pin.map (·.release)) (onRec f (Record.setPin pin) y)
      | _, _ => onRec f (Record.setPin pin) y := by
  simp only [repin, h] <;> rfl

theorem repin_absent {f : Nat} {pin : Option Pin} {y : Yard} (h : y.rec? f = none) : repin f pin y = y := by
  simp only [repin, h]

/-- Settles O44: each frame by what it finds of its fleet; then the cancelled seek and the drop by state. -/
theorem claimCancelAndRepinActOnTheirFleet : Obligations.ClaimCancelAndRepinActOnTheirFleet := by
  refine ⟨fun s q f ref d hw => ⟨fun r hh hr => ?_, fun hh hr => ?_, fun o hh ho => ?_, fun o l hh hn ho hl => ?_,
      fun hh hn ho hx => ?_, fun a x b hh hn ho hy ha hr hf => ?_, fun pin r hh hr => ?_, fun pin hh hr => ?_⟩,
    fun e n y en h => ⟨cancelSeek_queued h, cancelSeek_idle h, fun ph f sv w => cancelSeek_handing h,
      fun w f => cancelSeek_awaiting h, cancelSeek_awaiting_unoffered h⟩,
    fun e f y => ⟨fun a en b sv => cancelBusSeek_first, cancelBusSeek_none⟩, fun e y r => ?_⟩
  · exact exec_claimReceived hw hh (dropRecord_held (y := dropHead s.yard) hr)
  · exact exec_claimReceived hw hh (dropRecord_absent (y := dropHead s.yard) hr)
  · exact exec_cancelReceived hw hh (takeCancel_held (y := dropHead s.yard) ho)
  · obtain ⟨href, hfleet⟩ := exitOffer?_is ho
    have ended := (takeCancel_exit (e := s.env) (y := dropHead s.yard) hn ho).trans (endCallOut_lane _ hl)
    rw [href, hfleet] at ended
    exact exec_cancelReceived hw hh ended
  · exact exec_cancelReceived hw hh
      ((takeCancel_lapsed (y := dropHead s.yard) hn ho).trans (dropLapsed_of_none (y := dropHead s.yard) hx))
  · exact exec_cancelReceived hw hh
      ((takeCancel_lapsed (y := dropHead s.yard) hn ho).trans (dropLapsed_first (y := dropHead s.yard) hy ha hr hf))
  · exact exec_repinReceived hw hh (repin_held (y := dropHead s.yard) hr)
  · exact exec_repinReceived hw hh (repin_absent (y := dropHead s.yard) hr)
  · refine ⟨endEntries_seeking, fun n h hl => ⟨fun o ho => ?_, fun ho => ?_⟩, fun n h hl => ?_, fun h hl => ?_,
      fun w h hl => ?_, fun h hn => ?_, fun a d b h hy hd ha => ?_, endEntries_queued,
      fun p u a b h hl hy hp hu hf ha => ?_, fun w h hl => ?_, endEntries_nothing⟩
    · exact (endEntries_parked h hl).trans (congrArg _ (dropExitOffer_some ho))
    · exact (endEntries_parked h hl).trans (congrArg _ (dropExitOffer_none ho))
    · exact (endEntries_expected h (by rw [hl]; rfl)).trans (by rw [hl]; rfl)
    · exact (endEntries_expected h (by rw [hl]; rfl)).trans (by rw [hl]; rfl)
    · exact (endEntries_expected h (by rw [hl]; rfl)).trans (by rw [hl]; rfl)
    · exact (endEntries_outbound h).trans (recallFor_none (by simpa using hn))
    · exact (endEntries_outbound h).trans (recallFor_first (by simpa using hy) hd ha)
    · exact (endEntries_called h).trans ((congrArg (endCall e · _ y) hl).trans (endCall_apron hy hp hu hf ha))
    · exact (endEntries_called h).trans ((congrArg (endCall e · _ y) hl).trans (endCall_wash ..))

end Sys2Proof.Proofs.Custody
end

section
/-! SUPPORT. The day turn (R20, R98, R183): how the duties expire, and that with no pin left and no duty left the
awaited minutes of the same change reach no record and no duty. -/

namespace Sys2Proof.Machine

/-! ## The duties expire in list order (R183) -/

/-- The bus named with an expired duty: the one that is OUTBOUND for it, else the one pinned. -/
def expiryFleet (pinned : Nat → Option Nat) (d : Duty) : Option Nat :=
  match d.state with
  | .outbound f => some f
  | _ => pinned d.number

/-- The notice of an expired duty. -/
def expiryNotice (e : Env) (pinned : Nat → Option Nat) (d : Duty) : Notice :=
  ⟨.dutyExpired, if e.clockValid then e.minute else 0, expiryFleet pinned d, none, [d.number]⟩

theorem expireDuty_eq (e : Env) (y : Yard) (d : Duty) :
    expireDuty e y d
      = notify e .dutyExpired (expiryFleet y.pinnedFleet d) none [d.number] (removeDuty d.number y) := rfl

/-- The duty in front is the one that leaves. -/
theorem expireDuty_gate {e : Env} {y : Yard} {d : Duty} {l : List Duty} (h : y.gate.duties = d :: l) :
    (expireDuty e y d).gate = { y.gate with duties := l } := by
  simp [expireDuty_eq, removeDuty, h, dropFirst]

theorem expireDuty_notices {e : Env} {y : Yard} (d : Duty) (h : y.notices.length < 32) :
    (expireDuty e y d).notices = y.notices ++ [expiryNotice e y.pinnedFleet d] ∧ (expireDuty e y d).lost = y.lost := by
  have room : (removeDuty d.number y).notices.length < Config.noticeCap := h
  simp only [expireDuty_eq, notify, if_pos room]
  exact ⟨rfl, rfl⟩

theorem pinnedFleet_expireDuty (e : Env) (y : Yard) (d : Duty) : (expireDuty e y d).pinnedFleet = y.pinnedFleet := by
  funext n
  simp [Yard.pinnedFleet]

/-- All of them leave. -/
theorem expireFold_gate (e : Env) (l : List Duty) (y : Yard) (h : y.gate.duties = l) :
    (l.foldl (expireDuty e) y).gate = { y.gate with duties := [] } := by
  induction l generalizing y with
  | nil => rw [List.foldl_nil, ← h]
  | cons d l ih =>
    have front := expireDuty_gate (e := e) h
    rw [List.foldl_cons, ih _ (by rw [front]), front]

/-- With room in the notice queue each of them is named there. -/
theorem expireFold_notices (e : Env) (l : List Duty) (y : Yard) (h : y.notices.length + l.length ≤ 32) :
    (l.foldl (expireDuty e) y).notices = y.notices ++ l.map (expiryNotice e y.pinnedFleet)
      ∧ (l.foldl (expireDuty e) y).lost = y.lost := by
  induction l generalizing y with
  | nil => simp
  | cons d l ih =>
    rw [List.length_cons] at h
    obtain ⟨notices, lost⟩ := expireDuty_notices (e := e) d (y := y) (by omega)
    have room : (expireDuty e y d).notices.length + l.length ≤ 32 := by
      simp only [notices, List.length_append, List.length_singleton]
      omega
    obtain ⟨notices', lost'⟩ := ih (expireDuty e y d) room
    rw [List.foldl_cons, notices', lost', notices, lost, pinnedFleet_expireDuty]
    simp

/-! ## Removing pins where there is none -/

theorem updFirst_of_fixed {α : Type} {p : α → Bool} {f : α → α} {l : List α} (h : ∀ x ∈ l, f x = x) :
    updFirst p f l = l := by
  induction l with
  | nil => rfl
  | cons x xs ih => simp [updFirst, h x (.head _), ih fun z hz => h z (.tail _ hz)]

/-- No record has a pin. -/
def Yard.pinless (y : Yard) : Prop := ∀ r ∈ y.records, r.bus.pin = none

theorem setPin_none_of_none {r : Record} (h : r.bus.pin = none) : r.setPin none = r := by
  rw [Record.setPin, ← h]

/-- Removing a pin changes nothing then. -/
theorem unpin_pinless {y : Yard} (h : y.pinless) (f : Nat) :
    updFirst (·.bus.fleet == f) (Record.setPin none) y.records = y.records :=
  updFirst_of_fixed fun r hr => setPin_none_of_none (h r hr)

theorem unpinFleet_records (e : Env) (f : Nat) (y : Yard) :
    (unpinFleet e f y).records = updFirst (·.bus.fleet == f) (Record.setPin none) y.records := by
  simp [unpinFleet, onRec]

theorem uncoverDuty_records (e : Env) (d : Nat) {y : Yard} (h : y.pinless) :
    (uncoverDuty e d y).records = y.records := by
  unfold uncoverDuty
  dsimp only
  cases y.dutySeek? d <;> cases y.pinnedFleet d <;> simp [unpinFleet_records, unpin_pinless h]

theorem enterCalling_records (e : Env) (d : Duty) {y : Yard} (h : y.pinless) :
    (enterCalling e d y).records = y.records := by
  unfold enterCalling
  dsimp only
  split
  · exact uncoverDuty_records e d.number (y := onDuty d.number _ y) h
  · rfl

/-- A duty's awaited minutes reach no record but through its pin. -/
theorem dutyMinute_records (e : Env) (a b n : Nat) {y : Yard} (h : y.pinless) :
    (dutyMinute e a b n y).records = y.records := by
  have calls : ∀ (d : Duty) (c : Bool), (if c = true then enterCalling e d y else y).records = y.records := by
    intro d c
    split
    · exact enterCalling_records e d h
    · rfl
  have uncovers : ∀ (g : Duty → Duty) (c : Bool),
      (if c = true then uncoverDuty e n (onDuty n g y) else onDuty n g y).records = y.records := by
    intro g c
    split
    · exact uncoverDuty_records e n (y := onDuty n g y) h
    · rfl
  unfold dutyMinute
  cases y.duty? n with
  | none => rfl
  | some d =>
    dsimp only
    cases d.state with
    | unpinned => exact calls d _
    | pinned => exact calls d _
    | outbound f => rfl
    | calling pending late =>
      dsimp only
      by_cases hr : reaches a b (uncoverMinute e d.release) = true
      · rw [if_pos hr]
        exact uncovers _ _
      · rw [if_neg hr]

theorem dutiesMinute_records (e : Env) (a b : Nat) {y : Yard} (h : y.pinless) :
    (dutiesMinute e a b y).records = y.records := by
  unfold dutiesMinute
  generalize y.gate.duties.map (·.number) = l
  induction l generalizing y with
  | nil => rfl
  | cons n l ih =>
    have step := dutyMinute_records e a b n h
    rw [List.foldl_cons, ih (by rwa [Yard.pinless, step]), step]

theorem dutiesMinute_of_no_duty {e : Env} {a b : Nat} {y : Yard} (h : y.gate.duties = []) :
    dutiesMinute e a b y = y := by
  rw [dutiesMinute, h]
  rfl

/-! ## The day turn (R20, R98, R183) -/

theorem dayTurn_records (e : Env) (y : Yard) : (dayTurn e y).records = y.records.map (Record.setPin none) := by
  unfold dayTurn
  split <;> simp

theorem dayTurn_pinless (e : Env) (y : Yard) : (dayTurn e y).pinless := by
  simp [Yard.pinless, dayTurn_records, Record.setPin]

theorem dayTurn_lanes (e : Env) (y : Yard) : (dayTurn e y).lanes = (lanesDayTurn y).lanes := by
  unfold dayTurn
  split
  · simp [lanesDayTurn]
  · rfl

/-- The yard from which the duties' seeks are cancelled: no pins, no stored releases, no duties, their notices
raised. -/
def dutiesExpired (e : Env) (y : Yard) : Yard :=
  y.gate.duties.foldl (expireDuty e) (lanesDayTurn { y with records := y.records.map (Record.setPin none) })

/-- The gate's day turn, after the records and the lanes have lost their pins. -/
theorem dayTurn_gate {e : Env} (h : e.layout.gate.isSome = true) (y : Yard) :
    dayTurn e y = withdraw e (fun t => match t with
      | .repin _ => true
      | _ => false) { y.gate.duties.foldl (cancelDutySeek e) (dutiesExpired e y) with
        gate := { (y.gate.duties.foldl (cancelDutySeek e) (dutiesExpired e y)).gate with pins := [] } } := by
  simp only [dayTurn, h, if_true]
  rfl

theorem dutiesExpired_gate (e : Env) (y : Yard) : (dutiesExpired e y).gate = { y.gate with duties := [] } :=
  expireFold_gate e y.gate.duties _ rfl

theorem dutiesExpired_notices (e : Env) {y : Yard} (h : y.notices.length + y.gate.duties.length ≤ 32) :
    (dutiesExpired e y).lost = y.lost
      ∧ (dutiesExpired e y).notices = y.notices ++ y.gate.duties.map (expiryNotice e y.pinnedFleet) :=
  (expireFold_notices e y.gate.duties (lanesDayTurn { y with records := y.records.map (Record.setPin none) }) h).symm

theorem dayTurn_gate_empty {e : Env} (h : e.layout.gate.isSome = true) (y : Yard) :
    (dayTurn e y).gate.duties = [] ∧ (dayTurn e y).gate.pins = [] := by
  simp [dayTurn_gate h, dutiesExpired_gate]

section MinuteChange

variable {e : Env} {a b : Nat} (h : b < a) (y : Yard)
include h

theorem minuteChange_eq :
    minuteChange e a b y = if e.running then dutiesMinute e a b (dayTurn e y) else dayTurn e y := by
  simp only [minuteChange, if_pos h]

theorem minuteChange_records : (minuteChange e a b y).records = y.records.map (Record.setPin none) := by
  rw [minuteChange_eq h, ← dayTurn_records e]
  split
  · exact dutiesMinute_records e a b (dayTurn_pinless e y)
  · rfl

theorem minuteChange_lanes : (minuteChange e a b y).lanes = (lanesDayTurn y).lanes := by
  rw [minuteChange_eq h, ← dayTurn_lanes e]
  split <;> simp

/-- At a gate station no duty is left for the awaited minutes (log 7). -/
theorem minuteChange_gate (hg : e.layout.gate.isSome = true) : minuteChange e a b y = dayTurn e y := by
  rw [minuteChange_eq h, dutiesMinute_of_no_duty (dayTurn_gate_empty hg y).1, ite_self]

end MinuteChange

/-! ## The end of an event with nothing in the arrival FIFO -/

theorem settle_of_no_arrival {e : Env} {y : Yard} (h : y.gate.fifo = []) : settle e y = giveEntries e y := by
  rw [settle, fifoTimes_fixed (fifoStep_empty h)]

theorem giveEntry_no_duty {e : Env} {y : Yard} (h : y.gate.duties = []) : (giveEntry e y).gate.duties = [] := by
  unfold giveEntry
  (repeat' split) <;> simp [callGiven, updFirst, h]

theorem giveEntries_no_duty {e : Env} {y : Yard} (h : y.gate.duties = []) : (giveEntries e y).gate.duties = [] := by
  have times : ∀ n y, y.gate.duties = [] → (giveTimes e n y).gate.duties = [] := by
    intro n
    induction n with
    | zero => exact fun y hy => hy
    | succ n ih => exact fun y hy => ih _ (giveEntry_no_duty hy)
  unfold giveEntries
  split
  · exact times _ y h
  · exact h

end Sys2Proof.Machine
end

section
/-! The statement on the day turn. -/

namespace Sys2Proof.Proofs.Custody

open Sys2Proof Sys2Proof.Machine

/-- Settles O47: the day turn writes the records, the lanes and the gate; what follows it at the same change of minute
finds no pin and, at a gate station, no duty. -/
theorem theDayTurnRemovesEveryPin : Obligations.TheDayTurnRemovesEveryPin := by
  intro s c hlt hfifo
  have fifo : ∀ e : Env, (minuteChange e s.clock.minute c.minute s.yard).gate.fifo = [] := fun e => by simpa using hfifo
  have ends (e : Env) : settle e (minuteChange e s.clock.minute c.minute s.yard)
      = giveEntries e (minuteChange e s.clock.minute c.minute s.yard) := settle_of_no_arrival (fifo e)
  refine ⟨_, rfl, rfl, ?_, ?_, fun hg => ?_, ?_, ?_, ?_, ?_, rfl,
    fun hg => ⟨dutiesExpired ({ s with clock := c } : State).env s.yard, ?_, ?_, dutiesExpired_gate _ _,
      fun hn => ?_, ?_⟩⟩
  · simp only [State.changeMinute, ends, giveEntries_frame, minuteChange_records hlt]
    rfl
  · simp only [State.changeMinute, settle_frame, minuteChange_lanes hlt]
    rfl
  · obtain ⟨duties, pins⟩ := dayTurn_gate_empty (e := ({ s with clock := c } : State).env) hg s.yard
    rw [State.changeMinute, minuteChange_gate hlt _ hg, settle_of_no_arrival (by simpa using hfifo)]
    exact ⟨giveEntries_no_duty duties, by simpa using pins⟩
  · simp [State.changeMinute]
  · simp [State.changeMinute]
  · simp [State.changeMinute]
  · simp [State.changeMinute]
  · simp [dutiesExpired]
  · simp [dutiesExpired]
  · exact dutiesExpired_notices _ hn
  · rw [State.changeMinute, minuteChange_gate hlt _ hg, dayTurn_gate hg]
    rfl

end Sys2Proof.Proofs.Custody
end

section
/-! SUPPORT. The yard clock: what SET CLOCK, a received TIME and a rollover leave, the minutes that a duty waits for, and
what an uncovered duty takes away. -/

namespace Sys2Proof.Machine

/-! ## Notices and the transmit queue with room -/

/-- With room a notice joins the tail. -/
theorem notify_room (e : Env) (k : NoticeKind) (f : Option Nat) (r : Option NoticeRes) (d : List Nat) {y : Yard}
    (h : y.notices.length < 32) : notify e k f r d y
      = { y with notices := y.notices ++ [⟨k, if e.clockValid then e.minute else 0, f, r, d⟩] } := by
  have room : y.notices.length < Config.noticeCap := h
  simp only [notify, if_pos room]

/-- With a free place and nothing waiting, a request whose frame is formed joins the queue's tail. -/
theorem send_line {e : Env} {y : Yard} {r : TxReq} {f : Frame} (hq : y.line.queue.length < 8)
    (hw : y.line.waiting = []) (hf : buildFrame e y r = some f) :
    send e r y = { y with line.queue := y.line.queue ++ [⟨r, f, 0, false, false⟩] } := by
  have room : y.line.queue.length < Config.txCap ∧ y.line.waiting = [] := ⟨hq, hw⟩
  simp only [send, if_pos room, enterTx, hf]

/-! ## The minutes a duty waits for (R174, R176) -/

theorem reaches_iff {a b w : Nat} :
    reaches a b w = true ↔ (w = b ∨ (laterThan w a = true ∧ laterThan b w = true)) := by
  simp [reaches]

/-- The duty goes to CALLING with its call pending; with its grace over it is uncovered at once. -/
theorem enterCalling_eq (e : Env) (d : Duty) (y : Yard) :
    enterCalling e d y
      = if graceOverNow e d.release
        then uncoverDuty e d.number (onDuty d.number (fun x => { x with state := .calling true true }) y)
        else onDuty d.number (fun x => { x with state := .calling true false }) y := by
  unfold enterCalling
  cases graceOverNow e d.release <;> rfl

theorem dutyMinute_uncalled {e : Env} {a b n : Nat} {y : Yard} {d : Duty} (h : y.duty? n = some d)
    (hs : d.state = .unpinned ∨ d.state = .pinned) :
    dutyMinute e a b n y = if reaches a b (callMinute e d.release) then enterCalling e d y else y := by
  rcases hs with hs | hs <;> simp only [dutyMinute, h, hs]

/-- The entry of a CALLING duty leaves it waiting: in WAIT_RETRY, or not there with the call pending. -/
def Yard.dutyWaits (y : Yard) (n : Nat) (pending : Bool) : Bool :=
  match y.dutySeek? n with
  | some en => en.state == .waitRetry
  | none => pending

theorem dutyWaits_iff {y : Yard} {n : Nat} {pending : Bool} :
    y.dutyWaits n pending = true
      ↔ (∃ en, y.dutySeek? n = some en ∧ en.state = .waitRetry) ∨ (y.dutySeek? n = none ∧ pending = true) := by
  unfold Yard.dutyWaits
  cases y.dutySeek? n <;> simp

theorem dutyMinute_calling {e : Env} {a b n : Nat} {y : Yard} {d : Duty} (h : y.duty? n = some d) {p o : Bool}
    (hs : d.state = .calling p o) :
    dutyMinute e a b n y
      = if reaches a b (uncoverMinute e d.release) then
          if y.dutyWaits n p then uncoverDuty e n (onDuty n (fun x => { x with state := .calling p true }) y)
          else onDuty n (fun x => { x with state := .calling p true }) y
        else y := by
  simp only [dutyMinute, h, hs]
  rfl

theorem dutyMinute_outbound {e : Env} {a b n f : Nat} {y : Yard} {d : Duty} (h : y.duty? n = some d)
    (hs : d.state = .outbound f) : dutyMinute e a b n y = y := by
  simp only [dutyMinute, h, hs]

/-- A duty found has the number searched. -/
theorem duty?_number {y : Yard} {n : Nat} {d : Duty} (h : y.duty? n = some d) : d.number = n := by
  simpa using List.find?_some h

/-! ## An uncovered duty (R176) -/

/-- The duty's entry leaves the seek table. -/
def endDutySeek (d : Nat) (y : Yard) : Yard :=
  match y.dutySeek? d with
  | some en => removeSeek en.number y
  | none => y

/-- The bus pinned for the duty loses its pin. -/
def unpinFor (e : Env) (pinned : Option Nat) (y : Yard) : Yard :=
  match pinned with
  | some f => unpinFleet e f y
  | none => y

theorem uncoverDuty_eq (e : Env) (d : Nat) (y : Yard) :
    uncoverDuty e d y = removeDuty d (unpinFor e (y.pinnedFleet d)
      (unpair d (notify e .dutyUncovered (y.pinnedFleet d) none [d] (endDutySeek d y)))) := rfl

theorem endDutySeek_some {d : Nat} {y : Yard} {en : SeekEntry} (h : y.dutySeek? d = some en) :
    endDutySeek d y = removeSeek en.number y := by simp only [endDutySeek, h]

theorem endDutySeek_none {d : Nat} {y : Yard} (h : y.dutySeek? d = none) : endDutySeek d y = y := by
  simp only [endDutySeek, h]

@[simp] theorem endDutySeek_frame (d : Nat) (y : Yard) :
    (endDutySeek d y).records = y.records ∧ (endDutySeek d y).line = y.line ∧ (endDutySeek d y).gate = y.gate ∧
      (endDutySeek d y).notices = y.notices ∧ (endDutySeek d y).lost = y.lost := by
  unfold endDutySeek
  split <;> exact ⟨rfl, rfl, rfl, rfl, rfl⟩

@[simp] theorem unpinFor_frame (e : Env) (f : Option Nat) (y : Yard) :
    (unpinFor e f y).gate = y.gate ∧ (unpinFor e f y).seek = y.seek ∧ (unpinFor e f y).notices = y.notices := by
  unfold unpinFor
  split <;> simp

theorem uncoverDuty_gate (e : Env) (d : Nat) (y : Yard) :
    (uncoverDuty e d y).gate = { y.gate with
      duties := dropFirst (·.number == d) y.gate.duties
      pins := y.gate.pins.filter (·.duty != d) } := by
  simp [uncoverDuty_eq, removeDuty, unpair]

theorem uncoverDuty_seek (e : Env) (d : Nat) (y : Yard) : (uncoverDuty e d y).seek = (endDutySeek d y).seek := by
  simp [uncoverDuty_eq]

theorem uncoverDuty_notices {e : Env} {y : Yard} (h : y.notices.length < 32) (d : Nat) :
    (uncoverDuty e d y).notices = y.notices
      ++ [⟨.dutyUncovered, if e.clockValid then e.minute else 0, y.pinnedFleet d, none, [d]⟩] := by
  simp [uncoverDuty_eq, notify_room, h]

/-- With no bus pinned for the duty the records and the line stay. -/
theorem uncoverDuty_unpinned {e : Env} {d : Nat} {y : Yard} (h : y.pinnedFleet d = none) :
    (uncoverDuty e d y).records = y.records ∧ (uncoverDuty e d y).line = y.line := by
  simp [uncoverDuty_eq, unpinFor, h]

theorem uncoverDuty_pinned_records {e : Env} {d f : Nat} {y : Yard} (h : y.pinnedFleet d = some f) :
    (uncoverDuty e d y).records = updFirst (·.bus.fleet == f) (Record.setPin none) y.records := by
  simp [uncoverDuty_eq, unpinFor, h, unpinFleet_records]

/-- The pinned bus has no other pair: its REPIN says that it has no pin. -/
theorem uncoverDuty_pinned_line {e : Env} {d f : Nat} {y : Yard} (h : y.pinnedFleet d = some f)
    (hq : y.line.queue.length < 8) (hw : y.line.waiting = [])
    (hp : ∀ p ∈ y.gate.pins.filter (·.duty != d), p.fleet ≠ f) :
    (uncoverDuty e d y).line = { y.line with queue := y.line.queue ++
      [⟨.repin f, ⟨e.layout.own, .all, ⟨e.layout.own, 0⟩, .repin f none⟩, 0, false, false⟩] } := by
  let z := onRec f (Record.setPin none)
    (unpair d (notify e .dutyUncovered (some f) none [d] (endDutySeek d y)))
  have zline : z.line = y.line := by simp [z]
  have zpins : z.gate.pins = y.gate.pins.filter (·.duty != d) := by simp [z, unpair]
  have unpinned : z.tablePin f = none := by
    have absent : z.pairedDuty f = none :=
      Option.map_eq_none_iff.2 (List.find?_eq_none.2 fun p hp' => by simpa using hp p (zpins ▸ hp'))
    simp only [Yard.tablePin, absent]
  have formed : buildFrame e z (.repin f) = some ⟨e.layout.own, .all, ⟨e.layout.own, 0⟩, .repin f none⟩ := by
    rw [buildFrame, unpinned]
  have sent : (uncoverDuty e d y).line = (send e (.repin f) z).line := by
    simp [uncoverDuty_eq, unpinFor, h, unpinFleet, sendRepin, z]
  rw [sent, send_line (by rw [zline]; exact hq) (by rw [zline]; exact hw) formed, zline]

theorem uncoverDuty_parts (e : Env) (d : Nat) (y : Yard) :
    uncoverDuty e d y = { y with
      records := (uncoverDuty e d y).records
      gate := (uncoverDuty e d y).gate
      seek := (uncoverDuty e d y).seek
      line := (uncoverDuty e d y).line
      notices := (uncoverDuty e d y).notices
      lost := (uncoverDuty e d y).lost } := by
  apply yard_eq_of_parts <;> simp

end Sys2Proof.Machine
end

section
/-! The statements on the yard clock. -/

namespace Sys2Proof.Proofs.Clock

open Sys2Proof Sys2Proof.Machine

/-! ## SET CLOCK (R43, R44) -/

theorem exec_setClock {s : State} (h : s.ready) (hp : s.phase = .config ∨ s.phase = .locked) (m sec : Nat) :
    exec (.setClock m sec) s = .next ((cmdSetClock m sec s).give 10 s) :=
  congrArg Host.Outcome.next (hostRow_taken h (by rcases hp with hp | hp <;> rw [hp] <;> rfl) _ _)

/-- A minute of the day and a second of the minute reach the comparison with the clock. -/
theorem cmdSetClock_inRange {m sec : Nat} (hm : m ≤ 1439) (hs : sec ≤ 59) (s : State) :
    cmdSetClock m sec s
      = if s.clock.valid = false ∨ m = s.clock.minute then .ok { s with clock := ⟨m, sec, true, none, 0⟩ }
        else if laterThan m s.clock.minute then .ok (s.changeMinute ⟨m, sec, true, none, 0⟩)
        else .no .range := by
  have inRange : (minuteOk m && decide (sec ≤ 59)) = true := by simp [minuteOk, hm, hs]
  simp only [cmdSetClock, if_pos inRange]

theorem cmdSetClock_outOfRange {m sec : Nat} (h : 1439 < m ∨ 59 < sec) (s : State) :
    cmdSetClock m sec s = .no .range := by
  have outOfRange : ¬ (minuteOk m && decide (sec ≤ 59)) = true := by
    simp only [minuteOk, Bool.and_eq_true, decide_eq_true_eq]
    omega
  simp only [cmdSetClock, if_neg outOfRange]

/-- Settles O21: the range test, then the three cases of the comparison with the clock. -/
theorem setClockFollowsItsThreeCases : Obligations.SetClockFollowsItsThreeCases := by
  intro s m sec h hp
  rw [exec_setClock h hp]
  refine ⟨fun hm hs hv => ?_, fun hm hs hv he => ?_, fun hm hs hv hne hl => ?_, fun hm hs hv hne hl => ?_,
    fun hr => ?_, fun hl hv => ?_⟩
  · rw [cmdSetClock_inRange hm hs, if_pos (.inl hv), give_ok]
  · rw [cmdSetClock_inRange hm hs, if_pos (.inr he), give_ok]
  · rw [cmdSetClock_inRange hm hs, if_neg (by simp [hv, hne]), if_pos hl, give_ok]
  · rw [cmdSetClock_inRange hm hs, if_neg (by simp [hv, hne]), if_neg (by simp [hl]), give_no]
  · rw [cmdSetClock_outOfRange hr, give_no]
  · have refused : cmdStart s = .no .conflict := by simp [cmdStart, hv]
    have row : exec .start s = .next ((cmdStart s).give 14 s) :=
      congrArg Host.Outcome.next (hostRow_taken h (by rw [hl]; rfl) _ _)
    rw [row, refused, give_no]

/-! ## TIME (R47) -/

/-- At a station that works a TIME leaves the pool for the yard clock. -/
theorem exec_timeReceived {s : State} (hw : s.works) {q m : Nat} {ref : SeekRef} {d : Dest}
    (hh : s.yard.line.head = some ⟨q, d, ref, .time m⟩) :
    exec .timeReceived s = .next (State.takeTime m { s with yard := dropHead s.yard }) := by
  have taken : s.timeReceived = State.takeTime m { s with yard := dropHead s.yard } := by
    simp only [State.timeReceived, hw.1, hw.2, hh]
    rfl
  exact congrArg Host.Outcome.next taken

/-- The seen minute after a TIME. -/
theorem see_eq (m : Nat) (c : Clock) :
    c.see m = { c with seen := (match c.seen with
      | none => some m
      | some v => if laterThan m v then some m else some v) } := by
  cases c with
  | mk minute seconds valid seen subMs =>
    cases seen with
    | none => rfl
    | some v =>
      simp only [Clock.see]
      split <;> rfl

/-- Settles O45: the minute of the TIME is the current one, a later one or an earlier one. -/
theorem timeIsSeenAdoptedOrIgnored : Obligations.TimeIsSeenAdoptedOrIgnored := by
  intro s q m ref d hw hh own seen
  rw [exec_timeReceived hw hh]
  refine ⟨fun he => ?_, fun hne hl => ?_, fun hne hl => ?_⟩
  · simp only [State.takeTime, if_pos he, see_eq]
    rfl
  · simp only [State.takeTime, if_neg hne, if_pos hl, see_eq]
    rfl
  · have earlier : ¬ laterThan m s.clock.minute = true := by simp [hl]
    simp only [State.takeTime, if_neg hne, if_neg earlier]

/-! ## Seconds and rollover (R43, R45, R46) -/

/-- A clock that is valid rolls over: the announcement in the RUNNING phase, then the change of minute. -/
theorem rollover_valid {s : State} (hr : s.inReset = false) (hv : s.clock.valid = true) :
    s.rollover = State.changeMinute ⟨(s.clock.minute + 1) % 1440, 0, true, none, 0⟩
      (if s.phase = .running then
        { s with yard := announce s.env s.clock.seen ((s.clock.minute + 1) % 1440) s.yard } else s) := by
  have acts : ¬ (s.inReset || !s.clock.valid) = true := by simp [hr, hv]
  simp only [State.rollover, if_neg acts]
  split <;> simp only [hv]

/-- A minute that is known, by a TIME of it or of a later one, is not announced. -/
theorem announce_known {e : Env} {seen : Option Nat} {n : Nat} (h : ∃ v, seen = some v ∧ (v = n ∨ laterThan v n = true))
    (y : Yard) : announce e seen n y = y := by
  obtain ⟨v, rfl, hv⟩ := h
  simp [announce, hv]

theorem announce_unknown {e : Env} {seen : Option Nat} {n : Nat}
    (h : ¬ ∃ v, seen = some v ∧ (v = n ∨ laterThan v n = true)) (y : Yard) :
    announce e seen n y = send e (.time n) (withdraw e TxReq.isTime y) := by
  cases seen with
  | none => rfl
  | some v => simp_all [announce]

theorem exec_secondsCount {s : State} (hr : s.inReset = false) (hv : s.clock.valid = true) (hs : s.clock.seconds < 59) :
    exec .secondsCount s = .next { s with clock := { s.clock with seconds := s.clock.seconds + 1, subMs := 0 } } := by
  have counts : s.countSecond = { s with clock := { s.clock with seconds := s.clock.seconds + 1, subMs := 0 } } := by
    simp [State.countSecond, hr, hv, hs]
  exact congrArg Host.Outcome.next counts

/-- The clock's part: it counts and rolls over while it is valid. -/
theorem clock_counts {s : State} (hr : s.inReset = false) :
    let n := (s.clock.minute + 1) % 1440
    let c : Clock := ⟨n, 0, true, none, 0⟩
    let known : Prop := ∃ v, s.clock.seen = some v ∧ (v = n ∨ laterThan v n = true)
    (s.clock.valid = true → s.clock.seconds < 59 → exec .secondsCount s
      = .next { s with clock := { s.clock with seconds := s.clock.seconds + 1, subMs := 0 } })
    ∧ (s.clock.valid = true → (s.phase ≠ .running ∨ known) → exec .minuteRollover s = .next (State.changeMinute c s))
    ∧ (s.clock.valid = true → s.phase = .running → ¬ known → exec .minuteRollover s
      = .next (State.changeMinute c { s with yard := send s.env (.time n) (withdraw s.env TxReq.isTime s.yard) }))
    ∧ (s.clock.valid = false → exec .secondsCount s = .next s ∧ exec .minuteRollover s = .next s) := by
  intro n c known
  have rolls (hv : s.clock.valid = true) : exec .minuteRollover s = .next (State.changeMinute c
      (if s.phase = .running then { s with yard := announce s.env s.clock.seen n s.yard } else s)) :=
    congrArg Host.Outcome.next (rollover_valid hr hv)
  refine ⟨exec_secondsCount hr, fun hv hk => ?_, fun hv hp hk => ?_, fun hv => ⟨?_, ?_⟩⟩
  · rw [rolls hv]
    rcases hk with hp | hk
    · rw [if_neg hp]
    · rw [announce_known hk, ite_self]
  · rw [rolls hv, if_pos hp, announce_unknown hk]
  · have still : s.countSecond = s := by simp [State.countSecond, hv]
    exact congrArg Host.Outcome.next still
  · have still : s.rollover = s := by simp [State.rollover, hv]
    exact congrArg Host.Outcome.next still

/-- A change of minute that is no day turn reaches the duties alone, in the RUNNING phase. -/
theorem changeMinute_of_le {s : State} {c : Clock} (h : s.clock.minute ≤ c.minute) :
    let t : State := { s with clock := c }
    State.changeMinute c s = { t with yard := settle t.env (
      if s.phase = .running then (s.yard.gate.duties.map (·.number)).foldl
        (fun y n => dutyMinute t.env s.clock.minute c.minute n y) s.yard
      else s.yard) } := by
  intro t
  have changed : minuteChange t.env s.clock.minute c.minute s.yard
      = if s.phase = .running then (s.yard.gate.duties.map (·.number)).foldl
          (fun y n => dutyMinute t.env s.clock.minute c.minute n y) s.yard
        else s.yard := by
    have phase : t.env.running = true ↔ s.phase = .running := by simp [t, State.env]
    simp only [minuteChange, if_neg (Nat.not_lt.2 h), dutiesMinute]
    exact if_congr phase rfl rfl
  rw [← changed]
  rfl

/-! ## A minute that a duty waits for (R174, R176) -/

/-- A duty not yet called at a change of minute. -/
theorem duty_called {e : Env} {a b n : Nat} {y : Yard} {d : Duty} (h : y.duty? n = some d)
    (hs : d.state = .unpinned ∨ d.state = .pinned) :
    let calling (late : Bool) : Yard := onDuty n (fun x => { x with state := .calling true late }) y
    let reached := callMinute e d.release = b
      ∨ (laterThan (callMinute e d.release) a = true ∧ laterThan b (callMinute e d.release) = true)
    (¬ reached → dutyMinute e a b n y = y)
    ∧ (reached → graceOverNow e d.release = false → dutyMinute e a b n y = calling false)
    ∧ (reached → graceOverNow e d.release = true → dutyMinute e a b n y = uncoverDuty e n (calling true)) := by
  intro calling reached
  have number := duty?_number h
  rw [dutyMinute_uncalled h hs, enterCalling_eq, number]
  refine ⟨fun hn => if_neg (mt reaches_iff.1 hn), fun hr hg => ?_, fun hr hg => ?_⟩
  · rw [if_pos (reaches_iff.2 hr), hg]
    rfl
  · rw [if_pos (reaches_iff.2 hr), hg]
    rfl

/-- A CALLING duty at a change of minute. -/
theorem duty_uncovered {e : Env} {a b n : Nat} {y : Yard} {d : Duty} (h : y.duty? n = some d) {p o : Bool}
    (hs : d.state = .calling p o) :
    let calling : Yard := onDuty n (fun x => { x with state := .calling p true }) y
    let reached := uncoverMinute e d.release = b
      ∨ (laterThan (uncoverMinute e d.release) a = true ∧ laterThan b (uncoverMinute e d.release) = true)
    let waits := (∃ en, y.dutySeek? n = some en ∧ en.state = .waitRetry) ∨ (y.dutySeek? n = none ∧ p = true)
    (¬ reached → dutyMinute e a b n y = y)
    ∧ (reached → ¬ waits → dutyMinute e a b n y = calling)
    ∧ (reached → waits → dutyMinute e a b n y = uncoverDuty e n calling) := by
  intro calling reached waits
  rw [dutyMinute_calling h hs]
  refine ⟨fun hn => if_neg (mt reaches_iff.1 hn), fun hr hw => ?_, fun hr hw => ?_⟩
  · rw [if_pos (reaches_iff.2 hr), if_neg (mt dutyWaits_iff.1 hw)]
  · rw [if_pos (reaches_iff.2 hr), if_pos (dutyWaits_iff.2 hw)]

/-- Settles O46: the clock's count, the change of minute, one duty's minutes, and what uncovering takes away. -/
theorem theClockCountsAndRollsOver : Obligations.TheClockCountsAndRollsOver := by
  refine ⟨fun s hr => clock_counts hr, fun s c h => changeMinute_of_le h, fun e a b n y d h => ?_, fun e n y => ?_⟩
  · exact ⟨fun hs => duty_called h hs, fun p o hs => duty_uncovered h hs, fun f hs => dutyMinute_outbound h hs⟩
  · exact ⟨uncoverDuty_gate e n y,
      fun en hen => by rw [uncoverDuty_seek, endDutySeek_some hen]; rfl,
      fun hen => by rw [uncoverDuty_seek, endDutySeek_none hen],
      fun hn => uncoverDuty_notices hn n,
      uncoverDuty_unpinned,
      fun f hf => ⟨uncoverDuty_pinned_records hf, fun hq hw hp => uncoverDuty_pinned_line hf hq hw hp⟩,
      uncoverDuty_parts e n y⟩

end Sys2Proof.Proofs.Clock
end

section
/-! The statement on flags, notices and RESET. -/

namespace Sys2Proof.Proofs.Flags

open Sys2Proof Sys2Proof.Machine

/-- The codes 23 to 26 are taken in every phase (R210). -/
theorem takenIn_always {code : Nat} (h : 23 ≤ code) (h' : code ≤ 26) (p : Phase) : takenIn code p = true := by
  cases p <;> simp [takenIn, h, h']
  omega

/-- A command of such a code sends its block's reply. -/
theorem reply_sent {s : State} (h : s.ready) {code : Nat} (hc : 23 ≤ code) (hc' : code ≤ 26) {i : Instr}
    {f : State → Reply} (hi : exec i s = .next (s.hostRow i code f)) : exec i s = .next ((f s).give code s) := by
  rw [hi, hostRow_taken h (takenIn_always hc hc' s.phase)]

/-! ## CLEAR FLAGS (R218) -/

theorem exec_clearFlags {s : State} (h : s.ready) (f : ClearFields) :
    exec (.clearFlags f) s = .next (State.answer 24 .done [] { s with
      yard := clearYard f s.yard
      host := { s.host with discarded := if f.station then 0 else s.host.discarded } }) :=
  reply_sent (f := cmdClearFlags f) h (by decide) (by decide) rfl

theorem clear_eq (m : BitVec 5) (f : LineFlags) :
    f.clear m = ⟨f.poolFull && !m[0], f.txFail && !m[1], f.rxMalformed && !m[2], f.noTaker && !m[3],
      f.unrelated && !m[4]⟩ := rfl

theorem clearFlags_clears {s : State} (h : s.ready) (f : ClearFields) : ∃ t, exec (.clearFlags f) s = .next t
     ∧ t.host = { s.host with
         answer := some ⟨24, .done, []⟩
         txd := (HostAnswer.mk 24 .done []).bytes
         discarded := if f.station then 0 else s.host.discarded }
     ∧ t.yard.line.flags = ⟨s.yard.line.flags.poolFull && !f.flags[0], s.yard.line.flags.txFail && !f.flags[1],
         s.yard.line.flags.rxMalformed && !f.flags[2], s.yard.line.flags.noTaker && !f.flags[3],
         s.yard.line.flags.unrelated && !f.flags[4]⟩
     ∧ t.yard.line.cnt = (if f.line then ⟨0, 0, 0, 0, 0, 0, 0, 0, 0⟩ else s.yard.line.cnt)
     ∧ t.yard.cnt = (if f.station then ⟨0, 0, 0, 0, 0, 0⟩ else s.yard.cnt)
     ∧ t.yard.saturated = (s.yard.saturated && !f.cost)
     ∧ t.yard.lost = (if f.lost then 0 else s.yard.lost)
     ∧ t = { s with
         host := t.host
         yard := { s.yard with
           line := { s.yard.line with flags := t.yard.line.flags, cnt := t.yard.line.cnt }
           cnt := t.yard.cnt, saturated := t.yard.saturated, lost := t.yard.lost } } := by
  have saturated : (if f.cost then false else s.yard.saturated) = (s.yard.saturated && !f.cost) := by
    cases f.cost <;> simp
  exact ⟨_, exec_clearFlags h f, rfl, clear_eq _ _, rfl, rfl, saturated, rfl, rfl⟩

/-! ## TAKE NOTICE and RESET (R221, R223) -/

theorem exec_takeNotice {s : State} (h : s.ready) : exec .takeNotice s = .next ((cmdTakeNotice s).give 25 s) :=
  reply_sent h (by decide) (by decide) rfl

theorem takeNotice_empty {s : State} (h : s.ready) (hn : s.yard.notices = []) :
    exec .takeNotice s = .next (s.answer 25 .done (b1 0 ++ b1 s.yard.lost)) ∧ s.yard.noticeOut = false := by
  refine ⟨?_, by simp [Yard.noticeOut, hn]⟩
  rw [exec_takeNotice h]
  simp only [cmdTakeNotice, hn, give_done]

theorem takeNotice_oldest {s : State} (h : s.ready) {n : Notice} {rest : List Notice}
    (hn : s.yard.notices = n :: rest) : s.yard.noticeOut = true ∧ exec .takeNotice s
      = .next (State.answer 25 .done (n.bytes ++ b1 rest.length ++ b1 s.yard.lost)
          { s with yard := { s.yard with notices := rest } }) := by
  refine ⟨by simp [Yard.noticeOut, hn], ?_⟩
  rw [exec_takeNotice h]
  simp only [cmdTakeNotice, hn, give_done]

theorem exec_reset {s : State} (h : s.ready) : exec .reset s
    = .next (State.answer 26 .done [] { s with host := { s.host with resetPending := true } }) :=
  reply_sent (f := cmdReset) h (by decide) (by decide) rfl

/-! ## How notices are raised (R40, R219, R220) -/

theorem notify_lost (e : Env) (k : NoticeKind) (fleet : Option Nat) (res : Option NoticeRes) (detail : List Nat)
    {y : Yard} (h : 32 ≤ y.notices.length) :
    notify e k fleet res detail y = { y with lost := min 255 (y.lost + 1) } := by
  have full : ¬ y.notices.length < Config.noticeCap := Nat.not_lt.2 h
  simp only [notify, if_neg full]
  rfl

theorem get_set_self (f : LineFlags) (g : LineFlag) : (f.set g).get g = true := by cases g <;> rfl

theorem get_set_other (f : LineFlags) {g k : LineFlag} (h : k ≠ g) : (f.set g).get k = f.get k := by
  cases g <;> cases k <;> simp_all [LineFlags.set, LineFlags.get]

theorem setFlag_set (e : Env) {f : LineFlag} {y : Yard} (h : y.line.flags.get f = true) : setFlag e f y = y :=
  if_pos h

theorem setFlag_clear (e : Env) {f : LineFlag} {y : Yard} (h : y.line.flags.get f = false) :
    setFlag e f y = notify e .lineError none none [f.code]
      { y with line := { y.line with flags := y.line.flags.set f } } :=
  if_neg (by simp [h])

/-- Settles O30: the commands' replies, the two outcomes of a notice, and a flag set anew or again. -/
theorem flagsNoticesAndResetCommand : Obligations.FlagsNoticesAndResetCommand :=
  ⟨fun _ f h => clearFlags_clears h f,
    fun _ h => ⟨takeNotice_empty h, fun _ _ hn => takeNotice_oldest h hn, exec_reset h⟩,
    fun e k fleet res detail _ => ⟨notify_room e k fleet res detail, notify_lost e k fleet res detail⟩,
    fun e f y => ⟨setFlag_set e,
      fun h => ⟨y.line.flags.set f, get_set_self _ f, fun _ hg => get_set_other _ hg, setFlag_clear e h⟩⟩⟩

end Sys2Proof.Proofs.Flags
end

section
/-! SUPPORT. The openings of the line: the frame put forward (R25), how an opening ends (R30, R32), and the round with
no offer (R54, R154, R176). -/

namespace Sys2Proof.Machine

/-! ## The frame put forward (R25) -/

theorem eligible_iff (offer : Option SeekRef) (x : TxSlot) : x.eligible offer = true ↔ match x.req with
    | .offer ref _ _ _ _ => offer = some ref
    | _ => True := by
  unfold TxSlot.eligible
  cases x.req <;> simp

theorem bestSlot_mem {offer : Option SeekRef} {l : List TxSlot} {x : TxSlot} (h : bestSlot offer l = some x) :
    x ∈ l ∧ x.eligible offer = true := by
  induction l generalizing x with
  | nil => cases h
  | cons t ts ih =>
    unfold bestSlot at h
    cases hb : bestSlot offer ts with
    | none =>
      rw [hb] at h
      obtain ⟨he, ht⟩ := Option.ite_none_right_eq_some.1 h
      cases ht
      exact ⟨.head _, he⟩
    | some b =>
      simp only [hb] at h
      split at h
      next hc =>
        cases h
        exact ⟨.head _, (Bool.and_eq_true_iff.1 hc).1⟩
      next =>
        cases h
        exact ⟨.tail _ (ih hb).1, (ih hb).2⟩

theorem bestSlot_none {offer : Option SeekRef} {l : List TxSlot} (h : ∀ x ∈ l, x.eligible offer = false) :
    bestSlot offer l = none := by
  cases hb : bestSlot offer l with
  | none => rfl
  | some x =>
    obtain ⟨hm, he⟩ := bestSlot_mem hb
    simp [h x hm] at he

/-- The lowest key is put forward, and among equal ones the frame that entered first. -/
theorem bestSlot_append {offer : Option SeekRef} {a b : List TxSlot} {x : TxSlot} (hx : x.eligible offer = true)
    (ha : ∀ z ∈ a, z.eligible offer = true → x.frame.key < z.frame.key)
    (hb : ∀ z ∈ b, z.eligible offer = true → x.frame.key ≤ z.frame.key) : bestSlot offer (a ++ x :: b) = some x := by
  induction a with
  | nil =>
    rw [List.nil_append, bestSlot]
    cases h : bestSlot offer b with
    | none => simp [hx]
    | some z =>
      obtain ⟨hz, he⟩ := bestSlot_mem h
      simp [hx, hb z hz he]
  | cons t ts ih =>
    rw [List.cons_append, bestSlot, ih fun z hz => ha z (.tail _ hz)]
    have behind : ¬ (t.eligible offer && decide (t.frame.key ≤ x.frame.key)) = true := by
      simp only [Bool.and_eq_true, decide_eq_true_eq, not_and]
      exact fun he => BitVec.not_le.2 (ha t (.head _) he)
    simp only [if_neg behind]

/-! ## Openings (R23 to R25, R30) -/

theorem buildFrame_line (e : Env) (y : Yard) (l : LineIf) (r : TxReq) :
    buildFrame e { y with line := l } r = buildFrame e y r := by
  cases r <;> rfl

/-- A frame sent again is formed from the blocks, not from the line. -/
theorem refresh_line (e : Env) (y : Yard) (l : LineIf) (x : TxSlot) :
    x.refresh e { y with line := l } = x.refresh e y := by
  simp only [TxSlot.refresh, buildFrame_line]

/-- The place of the frame put forward is the one that goes on the line. -/
theorem beginSend_append {e : Env} {y : Yard} {a b : List TxSlot} {x : TxSlot} (hq : y.line.queue = a ++ x :: b)
    (ha : ∀ z ∈ a, z ≠ x) : beginSend e x y = { y with
      line := { y.line with
        queue := a ++ { x.refresh e y with sending := true } :: b
        txBits := ({ x.refresh e y with sending := true } : TxSlot).frame.raw.lineBits } } := by
  have place : updFirst (fun z => z == x) (fun _ => { x.refresh e y with sending := true }) y.line.queue
      = a ++ { x.refresh e y with sending := true } :: b := by
    rw [hq, updFirst_append _ (fun z hz => by simpa using ha z hz) (by simp)]
  simp only [beginSend, place]

/-- The line interface at an opening: the offer opening due is this one. -/
def LineIf.opened (l : LineIf) : LineIf := { l with curOffer := l.nextOffer, nextOffer := none }

section Opening

variable {e : Env} {y : Yard} (hf : y.line.following = true) (hs : y.line.sendingSlot = none)
include hf hs

/-- A station that follows the line and sends nothing contends. -/
theorem opening_eq (others : Option ArbKey) : opening e others y
    = match bestSlot y.line.nextOffer y.line.queue, others with
      | some t, none => beginSend e t { y with line := y.line.opened }
      | some t, some k => if t.frame.key ≤ k then beginSend e t { y with line := y.line.opened }
          else { y with line := y.line.opened }
      | none, some _ => { y with line := y.line.opened }
      | none, none => settle e (endOpening e none false { y with line := y.line.opened }) := by
  have contends : ¬ (y.line.following = false ∨ y.line.sendingSlot.isSome = true) := by simp [hf, hs]
  simp only [opening, if_neg contends]
  rfl

theorem opening_wins {others : Option ArbKey} {x : TxSlot} (hb : bestSlot y.line.nextOffer y.line.queue = some x)
    (hk : ∀ k ∈ others, x.frame.key ≤ k) :
    opening e others y = beginSend e x { y with line := y.line.opened } := by
  rw [opening_eq hf hs, hb]
  cases others with
  | none => rfl
  | some k => exact if_pos (hk k rfl)

theorem opening_loses {k : ArbKey} {x : TxSlot} (hb : bestSlot y.line.nextOffer y.line.queue = some x)
    (hk : k < x.frame.key) : opening e (some k) y = { y with line := y.line.opened } := by
  rw [opening_eq hf hs, hb]
  exact if_neg (BitVec.not_le.2 hk)

theorem opening_yields (hb : bestSlot y.line.nextOffer y.line.queue = none) (k : ArbKey) :
    opening e (some k) y = { y with line := y.line.opened } := by
  rw [opening_eq hf hs, hb]

theorem opening_empty (hb : bestSlot y.line.nextOffer y.line.queue = none) :
    opening e none y = settle e (endOpening e none false { y with line := y.line.opened }) := by
  rw [opening_eq hf hs, hb]

end Opening

/-! ## The end of an opening (R30, R32) -/

/-- The opening is over: the OFFERs and the pending choice are gone, and the next opening is given. -/
def openingDone (e : Env) (next : Option SeekRef) (y : Yard) : Yard :=
  refillTx e { y with
    line := { y.line with
      queue := y.line.queue.filter fun x => !x.req.isOffer
      curOffer := none, nextOffer := next, checkSlot := false }
    seek := { y.seek with choice := none } }

@[simp] theorem openingDone_table (e : Env) (next : Option SeekRef) (y : Yard) :
    (openingDone e next y).seek.table = y.seek.table := by
  simp [openingDone]

/-- The OPEN seek entry of this station whose offer opening is under way. -/
def OffersFor (e : Env) (y : Yard) (en : SeekEntry) : Prop :=
  ∃ n, (y.line.curOffer <|> y.line.nextOffer) = some ⟨e.layout.own, n⟩ ∧ y.seekEntry? n = some en ∧ en.state = .opened

theorem seekEntry?_number {y : Yard} {n : Nat} {en : SeekEntry} (h : y.seekEntry? n = some en) : en.number = n := by
  simpa using List.find?_some h

theorem endOpening_eq (e : Env) (next : Option SeekRef) (pooled : Bool) (y : Yard) :
    endOpening e next pooled y = match y.line.offerRef with
      | some ref =>
        if ref.station = e.layout.own ∧ pooled = false then
          match (openingDone e next y).seekEntry? ref.number with
          | some en => if en.state = .opened then noOffer e ref.number (openingDone e next y) else openingDone e next y
          | none => openingDone e next y
        else openingDone e next y
      | none => openingDone e next y := rfl

theorem endOpening_noOffer {e : Env} {next : Option SeekRef} {y : Yard} {en : SeekEntry} (h : OffersFor e y en) :
    endOpening e next false y = noOffer e en.number (openingDone e next y) := by
  obtain ⟨n, href, hen, hs⟩ := h
  have number := seekEntry?_number hen
  have found : (openingDone e next y).seekEntry? n = some en := by rwa [Yard.seekEntry?, openingDone_table]
  have offer : y.line.offerRef = some ⟨e.layout.own, n⟩ := href
  simp [endOpening_eq, offer, found, hs, number]

theorem endOpening_quiet {e : Env} {next : Option SeekRef} {pooled : Bool} {y : Yard}
    (h : pooled = true ∨ ∀ en, ¬ OffersFor e y en) : endOpening e next pooled y = openingDone e next y := by
  rw [endOpening_eq]
  cases hr : y.line.offerRef with
  | none => rfl
  | some ref =>
    by_cases hc : ref.station = e.layout.own ∧ pooled = false
    · obtain ⟨hown, rfl⟩ := hc
      have no := h.resolve_left (by simp)
      simp only [hown, and_self, if_true, Yard.seekEntry?, openingDone_table]
      cases hen : y.seek.table.find? (·.number == ref.number) with
      | none => rfl
      | some en => exact if_neg fun hs => no en ⟨ref.number, by rw [← hown]; exact hr, hen, hs⟩
    · exact if_neg hc

/-! ## A round with no offer (R54, R154, R176) -/

/-- The entry waits for its retry, and NO_TAKER is set. -/
def roundLost (e : Env) (n : Nat) (y : Yard) : Yard :=
  setFlag e .noTaker (onSeek n (fun x =>
    { x with state := .waitRetry, timer := some (1000 * e.layout.params.retry), reported := true }) y)

/-- An entry that has not reported before names its bus or duty and the service. -/
def roundTold (e : Env) (n : Nat) (en : SeekEntry) (y : Yard) : Yard :=
  if en.reported then roundLost e n y else notifyNoOffer e en.subject (roundLost e n y)

@[simp] theorem roundTold_frame (e : Env) (n : Nat) (en : SeekEntry) (y : Yard) :
    (roundTold e n en y).wash = y.wash ∧ (roundTold e n en y).gate = y.gate ∧
      (roundTold e n en y).records = y.records := by
  unfold roundTold roundLost notifyNoOffer
  (repeat' split) <;> simp

theorem noOffer_eq {e : Env} {n : Nat} {y : Yard} {en : SeekEntry} (h : y.seekEntry? n = some en) :
    noOffer e n y = match en.subject with
      | .bus f .wash =>
        if y.wash.faultList.contains f then endFaultReseek e n f (roundTold e n en y) else roundTold e n en y
      | .bus _ _ => roundTold e n en y
      | .duty d =>
        match y.duty? d with
        | some x => if x.state.isOver then uncoverDuty e d (roundTold e n en y) else roundTold e n en y
        | none => roundTold e n en y := by
  have told : noOffer e n y = match en.subject with
      | .bus f .wash =>
        if (roundTold e n en y).wash.faultList.contains f then endFaultReseek e n f (roundTold e n en y)
        else roundTold e n en y
      | .bus _ _ => roundTold e n en y
      | .duty d =>
        match (roundTold e n en y).duty? d with
        | some x => if x.state.isOver then uncoverDuty e d (roundTold e n en y) else roundTold e n en y
        | none => roundTold e n en y := by
    simp only [noOffer, h]
    rfl
  rw [told]
  simp [Yard.duty?]

theorem noOffer_bus {e : Env} {n : Nat} {y : Yard} {en : SeekEntry} (h : y.seekEntry? n = some en) {f : Nat}
    {sv : Service} (hs : en.subject = .bus f sv) (hw : sv ≠ .wash ∨ f ∉ y.wash.faultList) :
    noOffer e n y = roundTold e n en y := by
  rw [noOffer_eq h, hs]
  cases sv with
  | wash => exact if_neg (by simpa using hw)
  | fuel => rfl
  | berth => rfl
  | exit => rfl

theorem noOffer_faultReseek {e : Env} {n : Nat} {y : Yard} {en : SeekEntry} (h : y.seekEntry? n = some en) {f : Nat}
    (hs : en.subject = .bus f .wash) (hw : f ∈ y.wash.faultList) :
    noOffer e n y = endFaultReseek e n f (roundTold e n en y) := by
  rw [noOffer_eq h, hs]
  exact if_pos (by simpa using hw)

theorem isOver_iff {s : DutyState} : s.isOver = true ↔ ∃ p, s = .calling p true := by
  cases s <;> simp [DutyState.isOver]

theorem noOffer_duty {e : Env} {n : Nat} {y : Yard} {en : SeekEntry} (h : y.seekEntry? n = some en) {d : Nat}
    (hs : en.subject = .duty d) (hd : ∀ x p, y.duty? d = some x → x.state ≠ .calling p true) :
    noOffer e n y = roundTold e n en y := by
  rw [noOffer_eq h, hs]
  dsimp only
  cases hx : y.duty? d with
  | none => rfl
  | some x => exact if_neg fun ho => (isOver_iff.1 ho).elim fun p hp => hd x p hx hp

theorem noOffer_uncovered {e : Env} {n : Nat} {y : Yard} {en : SeekEntry} (h : y.seekEntry? n = some en) {d : Nat}
    {x : Duty} {p : Bool} (hs : en.subject = .duty d) (hx : y.duty? d = some x) (hp : x.state = .calling p true) :
    noOffer e n y = uncoverDuty e d (roundTold e n en y) := by
  rw [noOffer_eq h, hs]
  simp only [hx, hp, DutyState.isOver, if_true]

/-- The record that a fault re-seek leaves: WASH is off its itinerary, and its mark is SKIPPED. -/
theorem popWash_eq (x : Record) :
    (let r := x.popHead .wash
     { r with bus.itinerary := if r.bus.itinerary = [] then [.berth] else r.bus.itinerary, bus.washMark := .skipped })
      = ({ x with
          bus.itinerary := match x.bus.itinerary with
            | [] => [.berth]
            | [.wash] => [.berth]
            | .wash :: rest => rest
            | it => it
          bus.washMark := .skipped } : Record) := by
  unfold Record.popHead
  rcases hi : x.bus.itinerary with _ | ⟨s, _ | ⟨s', rest⟩⟩
  · simp [hi]
  · cases s <;> simp [hi]
  · cases s <;> simp [hi]

/-- The wash unit's part: the entry, the bus's place in the list and its wash go, and WASH_SKIPPED names its lane. -/
theorem endFaultReseek_eq {e : Env} {n f w : Nat} {y : Yard} {r : Record} (hr : y.rec? f = some r)
    (hl : r.loc = .wash w) :
    endFaultReseek e n f y = notify e .washSkipped (some f) (some (.wash w)) [2] (onRec f (fun x => { x with
        bus.itinerary := match x.bus.itinerary with
          | [] => [.berth]
          | [.wash] => [.berth]
          | .wash :: rest => rest
          | it => it
        bus.washMark := .skipped })
      { y with
        seek := { y.seek with table := dropFirst (·.number == n) y.seek.table }
        wash := { y.wash with faultList := y.wash.faultList.filter (· != f) } }) := by
  have lane : ((y.rec? f).bind fun r => r.loc.washRes) = some (.wash w) := by simp [hr, hl, Loc.washRes]
  simp only [endFaultReseek, lane, popWash_eq]
  rfl

end Sys2Proof.Machine
end

section
/-! The statement on the openings of the line. -/

namespace Sys2Proof.Proofs.Line

open Sys2Proof Sys2Proof.Machine

/-- An opening at a station that works. -/
theorem exec_opening {s : State} (hw : s.works) (others : Option ArbKey) {z : Yard}
    (hz : opening s.env others s.yard = z) : exec (.opening others) s = .next { s with yard := z } :=
  event_works hw rfl hz

/-- Settles O31: the frame put forward is sent, waits, or is none; then the end of the opening and the round with no
offer. -/
theorem anOpeningPutsForwardTheLowestKey : Obligations.AnOpeningPutsForwardTheLowestKey := by
  intro s others hw hf hs offer opened
  refine ⟨eligible_iff offer, fun a x b hq hx ha hb => ?_,
    fun hn => ⟨fun k ho => ?_, fun ho => ?_⟩, fun e next pooled y => ⟨fun en hen hp => ?_, endOpening_quiet⟩,
    fun e n y en hen => ⟨fun f sv => noOffer_bus hen, fun f w r hsub hfl hr hl => ?_, fun d => noOffer_duty hen,
      fun d x p => noOffer_uncovered hen⟩⟩
  · have best : bestSlot s.yard.line.nextOffer s.yard.line.queue = some x := hq ▸ bestSlot_append hx ha hb
    have apart : ∀ z ∈ a, z ≠ x := fun z hz he => BitVec.lt_irrefl _ (he ▸ ha z hz (he ▸ hx))
    refine ⟨fun hk => exec_opening hw others ((opening_wins hf hs best hk).trans ?_), fun k ho hk => ?_⟩
    · rw [beginSend_append (y := { s.yard with line := s.yard.line.opened }) hq apart, refresh_line]
      rfl
    · subst ho
      exact exec_opening hw _ (opening_loses hf hs best hk)
  · subst ho
    exact exec_opening hw _ (opening_yields hf hs (bestSlot_none hn) k)
  · subst ho
    exact exec_opening hw _ (opening_empty hf hs (bestSlot_none hn))
  · subst hp
    exact endOpening_noOffer hen
  · refine (noOffer_faultReseek hen hsub hfl).trans ?_
    obtain ⟨wash, _, records⟩ := roundTold_frame e n en y
    rw [endFaultReseek_eq (r := r) (by rwa [Yard.rec?, records]) hl, wash]
    rfl

end Sys2Proof.Proofs.Line
end

section
/-! SUPPORT. Damaged frames (R37, R38): five equal bits in a row are a stuff error, and what a damaged frame leaves. -/

namespace Sys2Proof.Machine

/-! ## Stuff errors (R225) -/

/-- A run that reaches five equal bits is a stuff error. -/
theorem unstuff_run (b : Bool) (rest : List Bool) {run n : Nat} (hr : run ≤ 4) (h : 5 ≤ run + n) :
    unstuff b run (List.replicate n b ++ rest) = none := by
  induction n generalizing run with
  | zero => omega
  | succ n ih =>
    rw [List.replicate_succ, List.cons_append, unstuff]
    by_cases h4 : run = 4
    · simp [h4]
    · simp [h4, ih (run := run + 1) (by omega) (by omega)]

/-- So are five equal bits behind any bit. -/
theorem unstuff_five (last b : Bool) (rest : List Bool) {run : Nat} (hr : run ≤ 4) :
    unstuff last run (List.replicate 5 b ++ rest) = none := by
  by_cases hb : b = last
  · exact hb ▸ unstuff_run b rest hr (by omega)
  · have begun : unstuff b 1 (List.replicate 4 b ++ rest) = none := unstuff_run b rest (by omega) (by omega)
    rw [List.replicate_succ, List.cons_append, unstuff, if_neg hb, if_neg hb, begun]
    exact ite_self _

/-- At any place. -/
theorem unstuff_five_inside (b : Bool) (rest : List Bool) (pre : List Bool) (last : Bool) {run : Nat} (hr : run ≤ 4) :
    unstuff last run (pre ++ (List.replicate 5 b ++ rest)) = none := by
  induction pre generalizing last run with
  | nil => exact unstuff_five last b rest hr
  | cons c pre ih =>
    have longer : (if c = last then run + 1 else 1) ≤ 4 ∨ run = 4 := by split <;> omega
    rw [List.cons_append, unstuff]
    by_cases h4 : run = 4
    · rw [if_pos h4, ih c (by omega), ite_self]
    · rw [if_neg h4, ih c (longer.resolve_right h4), Option.map_none]

/-- No receiver reads a frame from them. -/
theorem receiveFrame_five (pre : List Bool) (b : Bool) (rest : List Bool) :
    receiveFrame (pre ++ List.replicate 5 b ++ rest) = none := by
  rw [List.append_assoc]
  cases pre with
  | nil =>
    cases b with
    | true => rfl
    | false =>
      have bad : unstuff false 1 (List.replicate 4 false ++ rest) = none := unstuff_run false rest (by omega) (by omega)
      simp only [List.nil_append, List.replicate_succ (n := 4), List.cons_append, receiveFrame, bad]
      rfl
  | cons c pre =>
    cases c with
    | true => rfl
    | false =>
      have bad : unstuff false 1 (pre ++ (List.replicate 5 b ++ rest)) = none := unstuff_five_inside b rest pre false (by omega)
      simp only [List.cons_append, receiveFrame, bad]
      rfl

/-! ## What the events of the line leave as it was -/

/-- The units with lanes, pumps and wash lanes, the points and the signs are as before. -/
def SameUnits (y z : Yard) : Prop :=
  z.lanes = y.lanes ∧ z.fuel = y.fuel ∧ z.wash.lanes = y.wash.lanes ∧ z.points = y.points ∧ z.signs = y.signs

theorem SameUnits.trans {x y z : Yard} (h : SameUnits x y) (h' : SameUnits y z) : SameUnits x z :=
  ⟨h'.1.trans h.1, h'.2.1.trans h.2.1, h'.2.2.1.trans h.2.2.1, h'.2.2.2.1.trans h.2.2.2.1, h'.2.2.2.2.trans h.2.2.2.2⟩

/-- What ends an event of the line. -/
theorem settle_endOpening_units (e : Env) (next : Option SeekRef) (pooled : Bool) (y : Yard) :
    SameUnits y (settle e (endOpening e next pooled y)) := by
  simp [SameUnits]

theorem settle_endOpening_line (e : Env) (next : Option SeekRef) (pooled : Bool) (y : Yard) :
    (settle e (endOpening e next pooled y)).line.pool = y.line.pool
      ∧ (settle e (endOpening e next pooled y)).line.cnt = y.line.cnt
      ∧ (settle e (endOpening e next pooled y)).line.txBits = y.line.txBits
      ∧ (settle e (endOpening e next pooled y)).line.checkSlot = false := by
  simp

/-- What DROPPED tells a block reaches the seek engine, the gate and the notices (R38, R54). -/
theorem reportDropped_units (e : Env) (r : TxReq) (y : Yard) : SameUnits y (reportDropped e r y) := by
  unfold reportDropped SameUnits
  (repeat' split) <;> simp

theorem reportDropped_line (e : Env) (r : TxReq) (y : Yard) :
    (reportDropped e r y).line.txBits = y.line.txBits ∧ (reportDropped e r y).line.cnt = y.line.cnt := by
  unfold reportDropped
  (repeat' split) <;> simp

/-! ## A damaged frame of another station (R37) -/

/-- A damaged frame that the station follows is discarded: it is counted when it is found damaged here, and the check
slot of a complete one is driven. -/
theorem frameDamaged_eq {e : Env} {d : Damage} {y : Yard} (hf : y.line.following = true)
    (hs : y.line.sendingSlot = none) (hd : d.real = true) :
    frameDamaged e d y = settle e { endOpening e none false (if d.found then countCrcBad y else y) with
      line.checkSlot := d.drives } := by
  have heard : ¬ (y.line.following = false ∨ y.line.sendingSlot.isSome = true ∨ d.real = false) := by
    simp [hf, hs, hd]
  simp only [frameDamaged, if_neg heard]

theorem frameDamaged_units {e : Env} {d : Damage} {y : Yard} (hf : y.line.following = true)
    (hs : y.line.sendingSlot = none) (hd : d.real = true) : SameUnits y (frameDamaged e d y) := by
  rw [frameDamaged_eq hf hs hd]
  split <;> simp [SameUnits, countCrcBad]

theorem frameDamaged_line {e : Env} {d : Damage} {y : Yard} (hf : y.line.following = true)
    (hs : y.line.sendingSlot = none) (hd : d.real = true) :
    (frameDamaged e d y).line.pool = y.line.pool
      ∧ (frameDamaged e d y).line.cnt = (if d.found then
          { y.line.cnt with crcBad := min 65535 (y.line.cnt.crcBad + 1) } else y.line.cnt)
      ∧ (frameDamaged e d y).line.checkSlot = d.drives := by
  rw [frameDamaged_eq hf hs hd]
  split <;> simp [countCrcBad, sat]

/-! ## A damaged frame of this station (R38) -/

/-- The frame being sent is the one place that is on the line. -/
theorem sendingSlot_append {l : LineIf} {a b : List TxSlot} {x : TxSlot} (hq : l.queue = a ++ x :: b)
    (ha : ∀ z ∈ a, z.sending = false) (hx : x.sending = true) : l.sendingSlot = some x := by
  rw [LineIf.sendingSlot, hq]
  exact find?_append_first ha hx

/-- The yard with the damaged send counted and the line left. -/
def sendStopped (queue : List TxSlot) (y : Yard) : Yard :=
  { y with line := { y.line with
    queue := queue, txBits := []
    cnt := { y.line.cnt with txDamaged := min 65535 (y.line.cnt.txDamaged + 1) } } }

section SendDamaged

variable {e : Env} {y : Yard} {a b : List TxSlot} {x : TxSlot} (hq : y.line.queue = a ++ x :: b)
  (ha : ∀ z ∈ a, z.sending = false) (hx : x.sending = true)
include hq ha hx

/-- The place leaves the queue, and the oldest waiting request takes it. -/
theorem dropSending_damaged : dropSending e (countTxDamaged y) = refillTx e (sendStopped (a ++ b) y) := by
  have left : dropFirst (·.sending) y.line.queue = a ++ b := hq ▸ dropFirst_append ha hx
  exact congrArg (fun q => refillTx e (sendStopped q y)) left

theorem sendDamaged_resends (hw : x.withdrawn = false) (ho : x.req.isOffer = false) (hn : x.sends < 2) :
    sendDamaged e y = settle e (endOpening e none false
      (sendStopped (a ++ { x with sends := x.sends + 1, sending := false } :: b) y)) := by
  have place : updFirst (·.sending) (fun x => { x with sends := x.sends + 1, sending := false }) y.line.queue
      = a ++ { x with sends := x.sends + 1, sending := false } :: b := hq ▸ updFirst_append _ ha hx
  have third : x.sends + 1 < 3 := by omega
  simp only [sendDamaged, sendingSlot_append hq ha hx, hw, ho, if_pos third, Bool.false_eq_true, if_false, countTxDamaged,
    place]
  rfl

theorem sendDamaged_third (hw : x.withdrawn = false) (ho : x.req.isOffer = false) (hn : 2 ≤ x.sends) :
    sendDamaged e y = settle e (endOpening e none false (reportDropped e x.req (setFlag e .txFail
      (countTxDropped (refillTx e (sendStopped (a ++ b) y)))))) := by
  have third : ¬ x.sends + 1 < 3 := by omega
  simp only [sendDamaged, sendingSlot_append hq ha hx, hw, ho, if_neg third, Bool.false_eq_true, if_false,
    dropSending_damaged hq ha hx]

theorem sendDamaged_offer (hw : x.withdrawn = false) (ho : x.req.isOffer = true) :
    sendDamaged e y = settle e (endOpening e none false
      (countTxDropped (refillTx e (sendStopped (a ++ b) y)))) := by
  simp only [sendDamaged, sendingSlot_append hq ha hx, hw, ho, Bool.false_eq_true, if_false, if_true,
    dropSending_damaged hq ha hx]

theorem sendDamaged_withdrawn (hw : x.withdrawn = true) :
    sendDamaged e y = settle e (endOpening e none false (refillTx e (sendStopped (a ++ b) y))) := by
  simp only [sendDamaged, sendingSlot_append hq ha hx, hw, if_true, dropSending_damaged hq ha hx]

end SendDamaged

end Sys2Proof.Machine
end

section
/-! The statement on damaged frames. -/

namespace Sys2Proof.Proofs.Line

open Sys2Proof Sys2Proof.Machine

/-- The station with the yard that an event leaves differs in the units not at all. -/
theorem kept_of_units {s : State} {z : Yard} (h : SameUnits s.yard z) :
    let t : State := { s with yard := z }
    t.yard.lanes = s.yard.lanes ∧ t.yard.fuel = s.yard.fuel ∧ t.yard.wash.lanes = s.yard.wash.lanes
      ∧ t.yard.points = s.yard.points ∧ t.yard.signs = s.yard.signs ∧ t = { s with yard := t.yard } := by
  obtain ⟨lanes, fuel, wash, points, signs⟩ := h
  exact ⟨lanes, fuel, wash, points, signs, rfl⟩

section FrameDamaged

variable {s : State} (hw : s.works) (hf : s.yard.line.following = true) (hs : s.yard.line.sendingSlot = none)
include hw hf hs

/-- A damaged frame of another station, counted or not, and its check slot driven or not. -/
theorem exec_frameDamaged {d : Damage} (hd : d.real = true) :
    ∃ t, exec (.frameDamaged d) s = .next t
      ∧ (t.yard.lanes = s.yard.lanes ∧ t.yard.fuel = s.yard.fuel ∧ t.yard.wash.lanes = s.yard.wash.lanes
        ∧ t.yard.points = s.yard.points ∧ t.yard.signs = s.yard.signs ∧ t = { s with yard := t.yard })
      ∧ t.yard.line.pool = s.yard.line.pool
      ∧ t.yard.line.cnt = (if d.found then
          { s.yard.line.cnt with crcBad := min 65535 (s.yard.line.cnt.crcBad + 1) } else s.yard.line.cnt)
      ∧ t.yard.line.checkSlot = d.drives :=
  ⟨_, event_works hw rfl rfl, kept_of_units (frameDamaged_units hf hs hd), frameDamaged_line hf hs hd⟩

end FrameDamaged

/-- An own damaged frame ends the opening, on a yard that differs from the one before in the line, the seek engine, the
gate and the notices alone. -/
theorem exec_sendDamaged {s : State} (hw : s.works) {y : Yard} (hu : SameUnits s.yard y) (hb : y.line.txBits = [])
    (h : sendDamaged s.env s.yard = settle s.env (endOpening s.env none false y)) :
    let t : State := { s with yard := settle s.env (endOpening s.env none false y) }
    exec .sendDamaged s = .next t
      ∧ (t.yard.lanes = s.yard.lanes ∧ t.yard.fuel = s.yard.fuel ∧ t.yard.wash.lanes = s.yard.wash.lanes
        ∧ t.yard.points = s.yard.points ∧ t.yard.signs = s.yard.signs ∧ t = { s with yard := t.yard })
      ∧ t.yard.line.txBits = [] ∧ t.yard.line.cnt = y.line.cnt := by
  obtain ⟨_, cnt, bits, _⟩ := settle_endOpening_line s.env none false y
  exact ⟨event_works hw rfl h, kept_of_units (hu.trans (settle_endOpening_units s.env none false y)), bits.trans hb, cnt⟩

/-- Settles O34: a damaged frame of another station, of this one, five equal bits, and the begin of following. -/
theorem followingBeginsAndDamagedFramesAreCounted : Obligations.FollowingBeginsAndDamagedFramesAreCounted := by
  refine ⟨fun s hw hf => ⟨fun hs => ⟨fun bits driven hr => ?_, ?_, fun bits r hr => ?_⟩, fun a x b hq ha hx => ?_⟩,
    fun pre b rest => receiveFrame_five pre b rest, fun s hw => event_works hw rfl rfl⟩
  · simpa [Damage.found, Damage.drives, hr]
      using exec_frameDamaged hw hf hs (d := .complete bits driven) (by simp [Damage.real, hr])
  · exact exec_frameDamaged hw hf hs (d := .cutOff) rfl
  · simpa [Damage.found, Damage.drives, hr]
      using exec_frameDamaged hw hf hs (d := .complete bits true) (by simp [Damage.real])
  · refine ⟨fun hwd ho hn => ?_, fun hwd ho hn => ?_, fun hwd ho => ?_, fun hwd => ?_⟩
    · exact exec_sendDamaged hw ⟨rfl, rfl, rfl, rfl, rfl⟩ rfl (sendDamaged_resends hq ha hx hwd ho hn)
    · refine exec_sendDamaged hw ?_ ?_ (sendDamaged_third hq ha hx hwd ho hn)
      · refine SameUnits.trans ?_ (reportDropped_units ..)
        simp [SameUnits]
      · simp [(reportDropped_line ..).1]
    · exact exec_sendDamaged hw (by simp [SameUnits])
        (by simp) (sendDamaged_offer hq ha hx hwd ho)
    · exact exec_sendDamaged hw (by simp [SameUnits]) (by simp)
        (sendDamaged_withdrawn hq ha hx hwd)

end Sys2Proof.Proofs.Line
end

section
/-! SUPPORT. Bit fields (R26), bit stuffing (R225) and the frame that a receiver reads from the bits of its sender. -/

namespace Sys2Proof.Machine

/-! ## Bit fields -/

@[simp] theorem natBits_length (w n : Nat) : (natBits w n).length = w := by
  induction w with
  | zero => rfl
  | succ w ih => simp [natBits, ih]

/-- The bits that follow are binary digits behind a number. -/
theorem foldl_natBits (w n a : Nat) :
    (natBits w n).foldl (fun a b => 2 * a + b.toNat) a = a * 2 ^ w + n % 2 ^ w := by
  induction w generalizing a with
  | zero => simp [natBits, Nat.mod_one]
  | succ w ih =>
    have top : n % 2 ^ (w + 1) = n % 2 ^ w + 2 ^ w * (n.testBit w).toNat := by rw [Nat.mod_pow_succ, Nat.toNat_testBit]
    rw [natBits, List.foldl_cons, ih, top, Nat.pow_succ]
    ring

theorem bitsNat_natBits {w n : Nat} (h : n < 2 ^ w) : bitsNat (natBits w n) = n := by
  rw [bitsNat, foldl_natBits, Nat.zero_mul, Nat.zero_add, Nat.mod_eq_of_lt h]

theorem bitsNat_lt (bs : List Bool) : bitsNat bs < 2 ^ bs.length := by
  have grows : ∀ (bs : List Bool) (a : Nat),
      bs.foldl (fun a b => 2 * a + b.toNat) a < (a + 1) * 2 ^ bs.length := by
    intro bs
    induction bs with
    | nil => simp
    | cons b bs ih =>
      intro a
      have digit : b.toNat ≤ 1 := Bool.toNat_le b
      calc (b :: bs).foldl (fun a b => 2 * a + b.toNat) a
          < (2 * a + b.toNat + 1) * 2 ^ bs.length := ih _
        _ ≤ (2 * (a + 1)) * 2 ^ bs.length := Nat.mul_le_mul_right _ (by omega)
        _ = (a + 1) * 2 ^ (b :: bs).length := by rw [List.length_cons, Nat.pow_succ]; ring
  simpa [bitsNat] using grows bs 0

/-- A field's value lies below the power of its width. -/
theorem takeField_lt (w : Nat) (bs : List Bool) : (takeField w bs).1 < 2 ^ w := by
  have width : ((bs ++ List.replicate w false).take w).length = w := by simp
  have bound := bitsNat_lt ((bs ++ List.replicate w false).take w)
  rwa [width] at bound

/-- A field is read back, with the bits behind it. -/
theorem takeField_natBits {w n : Nat} (h : n < 2 ^ w) (rest : List Bool) :
    takeField w (natBits w n ++ rest) = (n, rest) := by
  simp only [takeField, List.append_assoc]
  rw [List.take_left' (natBits_length w n), List.drop_left' (natBits_length w n), bitsNat_natBits h]

/-- So is one that ends the bits. -/
theorem takeField_natBits_end {w n : Nat} (h : n < 2 ^ w) : takeField w (natBits w n) = (n, []) := by
  simpa using takeField_natBits h []

/-- An optional field is read back. -/
theorem takeOpt_optBits {w : Nat} {o : Option Nat} (h : ∀ n ∈ o, n < 2 ^ w) (rest : List Bool) :
    takeOpt w (optBits w o ++ rest) = (o, rest) := by
  have presence (b : Bool) (l : List Bool) : takeField 1 (b :: l) = (b.toNat, l) := by cases b <;> rfl
  cases o with
  | none =>
    have absent : optBits w none ++ rest = false :: (natBits w 0 ++ rest) := by simp [optBits, natBits]
    simp [takeOpt, absent, presence, takeField_natBits]
  | some n =>
    have present : optBits w (some n) ++ rest = true :: (natBits w n ++ rest) := rfl
    simp [takeOpt, present, presence, takeField_natBits (h n rfl)]

/-- A list of up to four items is read back. -/
theorem takeList_listBits {w : Nat} {l : List Nat} (hl : l.length ≤ 4) (h : ∀ n ∈ l, n < 2 ^ w) (rest : List Bool) :
    takeList w (listBits w l ++ rest) = (l.length, l, rest) := by
  have count {n : Nat} (hn : n ≤ 4) (r : List Bool) : takeField 3 (natBits 3 n ++ r) = (n, r) :=
    takeField_natBits (by omega) r
  have slot {n : Nat} (hn : n ∈ l) (r : List Bool) : takeField w (natBits w n ++ r) = (n, r) :=
    takeField_natBits (h n hn) r
  have blank (r : List Bool) : takeField w (natBits w 0 ++ r) = (0, r) := takeField_natBits (Nat.two_pow_pos w) r
  rcases l with _ | ⟨a, _ | ⟨b, _ | ⟨c, _ | ⟨d, _ | ⟨e, l⟩⟩⟩⟩⟩
  · simp [takeList, listBits, List.append_assoc, count, blank, List.replicate]
  · simp [takeList, listBits, List.append_assoc, count, blank, slot, List.replicate]
  · simp [takeList, listBits, List.append_assoc, count, blank, slot, List.replicate]
  · simp [takeList, listBits, List.append_assoc, count, blank, slot, List.replicate]
  · simp [takeList, listBits, List.append_assoc, count, slot, List.replicate]
  · simp only [List.length_cons] at hl
    omega

@[simp] theorem optBits_length (w : Nat) (o : Option Nat) : (optBits w o).length = w + 1 := by
  cases o <;> simp [optBits]

@[simp] theorem listBits_length (w : Nat) (l : List Nat) : (listBits w l).length = 3 + 4 * w := by
  have slots : ∀ l : List Nat, (l.flatMap (natBits w)).length = l.length * w := by
    intro l
    induction l with
    | nil => simp
    | cons n l ih => simp [ih, Nat.succ_mul, Nat.add_comm]
  simp [listBits, slots]

/-! ## Bytes -/

@[simp] theorem bytesBits_length (l : List Byte) : (bytesBits l).length = 8 * l.length := by
  induction l with
  | nil => rfl
  | cons b l ih => simp [bytesBits, ih]; omega

@[simp] theorem bitsBytes_length (n : Nat) (bs : List Bool) : (bitsBytes n bs).length = n := by
  induction n generalizing bs with
  | zero => rfl
  | succ n ih => simp [bitsBytes, ih]

/-- Bytes are read back from their bits. -/
theorem bitsBytes_bytesBits (l : List Byte) (rest : List Bool) : bitsBytes l.length (bytesBits l ++ rest) = l := by
  induction l with
  | nil => rfl
  | cons b l ih =>
    have byte : ((bytesBits (b :: l) ++ rest) ++ List.replicate 8 false).take 8 = natBits 8 b.toNat := by
      simp only [bytesBits, List.append_assoc]
      exact List.take_left' (natBits_length 8 _)
    have behind : (bytesBits (b :: l) ++ rest).drop 8 = bytesBits l ++ rest := by
      simp only [bytesBits, List.append_assoc]
      exact List.drop_left' (natBits_length 8 _)
    rw [List.length_cons, bitsBytes, byte, behind, ih, bitsNat_natBits b.isLt, BitVec.ofNat_toNat, BitVec.setWidth_eq]

theorem natBits_succ_snoc (w n : Nat) : natBits (w + 1) n = natBits w (n / 2) ++ [n.testBit 0] := by
  induction w with
  | zero => rfl
  | succ w ih => rw [natBits, ih, natBits, Nat.testBit_succ, List.cons_append]

/-- The digits of the number that a run of bits spells are those bits. -/
theorem natBits_bitsNat (bs : List Bool) : natBits bs.length (bitsNat bs) = bs := by
  induction bs using List.reverseRecOn with
  | nil => rfl
  | append_singleton bs b ih =>
    have spelled : bitsNat (bs ++ [b]) = 2 * bitsNat bs + b.toNat := by simp [bitsNat]
    have half : (2 * bitsNat bs + b.toNat) / 2 = bitsNat bs := by cases b <;> simp; omega
    have low : (2 * bitsNat bs + b.toNat).testBit 0 = b := by cases b <;> simp
    rw [List.length_append, List.length_singleton, spelled, natBits_succ_snoc, half, low, ih]

/-- Bits are read back from their bytes, up to the 0s that fill them. -/
theorem bytesBits_bitsBytes {n : Nat} {bs : List Bool} (h : bs.length ≤ 8 * n) :
    bytesBits (bitsBytes n bs) = bs ++ List.replicate (8 * n - bs.length) false := by
  induction n generalizing bs with
  | zero =>
    have empty : bs = [] := List.length_eq_zero_iff.1 (by omega)
    simp [empty, bitsBytes, bytesBits]
  | succ n ih =>
    let chunk := (bs ++ List.replicate 8 false).take 8
    have width : chunk.length = 8 := by simp [chunk]
    have small : bitsNat chunk < 2 ^ 8 := width ▸ bitsNat_lt chunk
    have byte : natBits 8 (BitVec.ofNat 8 (bitsNat chunk)).toNat = chunk := by
      rw [BitVec.toNat_ofNat, Nat.mod_eq_of_lt small]
      simpa [width] using natBits_bitsNat chunk
    have behind : (bs.drop 8).length ≤ 8 * n := by rw [List.length_drop]; omega
    rw [bitsBytes, bytesBits, byte, ih behind, ← List.append_assoc, List.length_drop]
    rcases Nat.le_total 8 bs.length with hb | hb
    · have head : chunk = bs.take 8 := List.take_append_of_le_length hb
      rw [head, List.take_append_drop]
      congr 2
      omega
    · have head : chunk = bs ++ List.replicate (8 - bs.length) false := by
        change (bs ++ List.replicate 8 false).take 8 = _
        rw [List.take_append, List.take_of_length_le hb, List.take_replicate, Nat.min_eq_left (Nat.sub_le ..)]
      rw [head, List.drop_eq_nil_of_le hb, List.append_nil, List.append_assoc, List.replicate_append_replicate]
      congr 2
      omega

/-! ## Stuffing (R225) -/

/-- The receiver takes out the bits that the sender stuffed. -/
theorem unstuff_stuff (bs : List Bool) (last : Bool) {run : Nat} (h : run ≤ 4) :
    unstuff last run (stuff last run bs) = some bs := by
  induction bs generalizing last run with
  | nil => by_cases h4 : run = 4 <;> simp [stuff, unstuff, h4]
  | cons b bs ih =>
    by_cases h4 : run = 4
    · by_cases hb : b = !last
      · simp [stuff, unstuff, h4, hb, ih]
      · have same : b = last := by cases b <;> cases last <;> simp_all
        simp [stuff, unstuff, h4, same, ih]
    · by_cases hb : b = last
      · subst hb
        simp [stuff, unstuff, h4, ih (run := run + 1) b (by omega)]
      · simp [stuff, unstuff, h4, hb, ih]

/-! ## The frame read from its bits (R26, R37) -/

/-- The fields 2 to 9 and the CRC are read back. -/
theorem frameFields_bits {r : RawFrame} (h : r.payload.length < 32) {crc : Nat} (hc : crc < 2 ^ 16) :
    frameFields (r.bits ++ natBits 16 crc) = some (r, crc) := by
  have size : (r.bits ++ natBits 16 crc).length = 60 + 8 * r.payload.length := by
    simp [RawFrame.bits]
    omega
  have tail : (bytesBits r.payload ++ natBits 16 crc).drop (8 * r.payload.length) = natBits 16 crc :=
    List.drop_left' (bytesBits_length _)
  have count : takeField 5 (natBits 5 r.payload.length ++ (bytesBits r.payload ++ natBits 16 crc))
      = (r.payload.length, bytesBits r.payload ++ natBits 16 crc) := takeField_natBits h _
  have field {w : Nat} (v : BitVec w) (rest : List Bool) : takeField w (natBits w v.toNat ++ rest) = (v.toNat, rest) :=
    takeField_natBits v.isLt rest
  unfold frameFields
  rw [size]
  simp only [RawFrame.bits, List.append_assoc, field, count, if_true, tail, takeField_natBits_end hc,
    bitsBytes_bytesBits, BitVec.ofNat_toNat, BitVec.setWidth_eq]

/-- A receiver reads the frame that its sender put on the line. -/
theorem receiveFrame_stuffed {r : RawFrame} (h : r.payload.length ≤ 24) : receiveFrame r.stuffed = some r := by
  have fields : frameFields (r.bits ++ natBits 16 (crc16 r.bits).toNat) = some (r, (crc16 r.bits).toNat) :=
    frameFields_bits (by omega) (crc16 r.bits).isLt
  simp only [RawFrame.stuffed, receiveFrame, unstuff_stuff _ false (by omega : 1 ≤ 4), Option.bind_some, fields, if_true]

end Sys2Proof.Machine
end

section
/-! SUPPORT. A frame's codes and payload (R26, R39): what the sender forms is read back, and what is read is
well-formed. -/

namespace Sys2Proof.Machine

/-! ## Codes -/

theorem Fuel.code_lt (f : Fuel) : f.code < 2 ^ 2 := by cases f <;> decide
theorem Prog.code_lt (p : Prog) : p.code < 2 ^ 2 := by cases p <;> decide
theorem Service.code_lt (s : Service) : s.code < 2 ^ 2 := by cases s <;> decide
theorem FuelMark.code_lt (m : FuelMark) : m.code < 2 ^ 2 := by cases m <;> decide
theorem WashMark.code_lt (m : WashMark) : m.code < 2 ^ 2 := by cases m <;> decide

@[simp] theorem fuelOf_code (f : Fuel) : fuelOf f.code = some f := by cases f <;> rfl
@[simp] theorem progOf_code (p : Prog) : progOf p.code = some p := by cases p <;> rfl
@[simp] theorem serviceOf_code (s : Service) : serviceOf s.code = some s := by cases s <;> rfl
@[simp] theorem fuelMarkOf_code (m : FuelMark) : fuelMarkOf m.code = some m := by cases m <;> rfl
@[simp] theorem washMarkOf_code (m : WashMark) : washMarkOf m.code = some m := by cases m <;> rfl

theorem mapM_serviceOf (l : List Service) : (l.map Service.code).mapM serviceOf = some l := by
  induction l with
  | nil => rfl
  | cons s l ih => simp [List.mapM_cons, ih]

/-- A destination's code names it. -/
theorem destOf_code {d : Dest} (h : ∀ n, d = .station n → n < 32) : destOf d.code = some d := by
  cases d with
  | station n => simp [destOf, Dest.code, h n rfl]
  | fuelGroup => rfl
  | washGroup => rfl
  | berthGroup => rfl
  | all => rfl

theorem Dest.code_lt {d : Dest} (h : ∀ n, d = .station n → n < 32) : d.code < 64 := by
  cases d with
  | station n => exact Nat.lt_of_lt_of_le (h n rfl) (by decide)
  | fuelGroup => decide
  | washGroup => decide
  | berthGroup => decide
  | all => decide

theorem destOf_eq_some {n : Nat} {d : Dest} (h : destOf n = some d) :
    d.code = n ∧ ∀ m, d = .station m → m < 32 := by
  unfold destOf at h
  split_ifs at h with h1 h2 h3 h4 h5 <;> cases h
  · exact ⟨rfl, fun m hm => by cases hm; exact h1⟩
  · exact ⟨h2.symm, fun m hm => by cases hm⟩
  · exact ⟨h3.symm, fun m hm => by cases hm⟩
  · exact ⟨h4.symm, fun m hm => by cases hm⟩
  · exact ⟨h5.symm, fun m hm => by cases hm⟩

/-! ## Ranges -/

theorem fleetOk_iff {n : Nat} : fleetOk n = true ↔ 1 ≤ n ∧ n ≤ 4095 := by simp [fleetOk]
theorem dutyOk_iff {n : Nat} : dutyOk n = true ↔ 1 ≤ n ∧ n ≤ 9999 := by simp [dutyOk]
theorem minuteOk_iff {n : Nat} : minuteOk n = true ↔ n ≤ 1439 := by simp [minuteOk]
theorem capacityOk_iff {n : Nat} : capacityOk n = true ↔ 50 ≤ n ∧ n ≤ 600 := by simp [capacityOk]

/-- Duty and release of a pin are both sent, or neither. -/
theorem pinOf_parts {p : Option Pin} (h : ∀ q ∈ p, q.inRange) :
    pinOf (p.map (·.duty)) (p.map (·.release)) = some p := by
  cases p with
  | none => rfl
  | some q =>
    obtain ⟨low, high, minute⟩ := h q rfl
    simp [pinOf, dutyOk_iff, minuteOk_iff, low, high, minute]

theorem pinOf_eq_some {d r : Option Nat} {p : Option Pin} (h : pinOf d r = some p) : ∀ q ∈ p, q.inRange := by
  unfold pinOf at h
  split at h
  next => cases h; simp
  next d r =>
    split at h
    next hc =>
      simp only [Bool.and_eq_true, dutyOk_iff, minuteOk_iff] at hc
      cases h
      rintro q ⟨⟩
      exact ⟨hc.1.1, hc.1.2, hc.2⟩
    next => cases h
  next => cases h

/-! ## What a payload carries is read back (R26, R39) -/

theorem optBits_map_lt {α : Type} {w : Nat} {o : Option α} {g : α → Nat} (h : ∀ x ∈ o, g x < 2 ^ w) :
    ∀ n ∈ o.map g, n < 2 ^ w := by
  intro n hn
  obtain ⟨x, hx, rfl⟩ := Option.mem_map.1 hn
  exact h x hx

theorem parseHandover_bits {b : Carried} (h : b.inRange) (pad : List Bool) :
    parseHandover ((Body.handover b).bits ++ pad) = some (.handover b) := by
  obtain ⟨f1, f2, cls, c1, c2, lev, pin, il, ind, arr⟩ := h
  have duties : ∀ n ∈ b.pin.map (·.duty), n < 2 ^ 14 := optBits_map_lt fun p hp =>
    lt_of_le_of_lt (pin p hp).2.1 (by decide)
  have releases : ∀ n ∈ b.pin.map (·.release), n < 2 ^ 11 := optBits_map_lt fun p hp =>
    lt_of_le_of_lt (pin p hp).2.2 (by decide)
  have count : (b.itinerary.map Service.code).length ≤ 4 := by simpa using il
  have services : ∀ n ∈ b.itinerary.map Service.code, n < 2 ^ 2 := by
    intro n hn
    obtain ⟨s, _, rfl⟩ := List.mem_map.1 hn
    exact s.code_lt
  have checks : (fleetOk b.fleet && capacityOk b.capacity && decide (b.level ≤ 100) && minuteOk b.arrival
      && decide ((b.itinerary.map Service.code).length ≤ 4) && decide b.itinerary.Nodup) = true := by
    simp [fleetOk_iff, capacityOk_iff, minuteOk_iff, f1, f2, c1, c2, lev, arr, il, ind]
  simp only [parseHandover, Body.bits, List.append_assoc, takeField_natBits (by omega : b.fleet < 2 ^ 12),
    takeField_natBits (by omega : b.cls < 2 ^ 3), takeField_natBits b.fuel.code_lt,
    takeField_natBits (by omega : b.capacity < 2 ^ 10), takeField_natBits (by omega : b.level < 2 ^ 7),
    takeField_natBits b.fuelMark.code_lt, takeField_natBits b.wash.code_lt, takeField_natBits b.washMark.code_lt,
    takeOpt_optBits duties, takeOpt_optBits releases, takeList_listBits count services,
    takeField_natBits (by omega : b.arrival < 2 ^ 11), 
    fuelOf_code, fuelMarkOf_code, progOf_code, washMarkOf_code, pinOf_parts pin, mapM_serviceOf, checks, if_true]

/-- The bits of a SEEK before its summary. -/
theorem takeHead_seek {area v dir : Nat} {excl : List Nat} (ha : area ≤ 7) (hv : v < 2 ^ 2) (hd : dir < 2 ^ 1)
    (hl : excl.length ≤ 4) (hx : ∀ n ∈ excl, n < 32) (rest : List Bool) :
    let bs := natBits 3 area ++ (natBits 2 v ++ (natBits 1 dir ++ (listBits 5 excl ++ rest)))
    takeField 3 bs = (area, natBits 2 v ++ (natBits 1 dir ++ (listBits 5 excl ++ rest)))
      ∧ takeField 2 (natBits 2 v ++ (natBits 1 dir ++ (listBits 5 excl ++ rest)))
        = (v, natBits 1 dir ++ (listBits 5 excl ++ rest))
      ∧ takeField 1 (natBits 1 dir ++ (listBits 5 excl ++ rest)) = (dir, listBits 5 excl ++ rest)
      ∧ takeList 5 (listBits 5 excl ++ rest) = (excl.length, excl, rest) :=
  ⟨takeField_natBits (by omega) _, takeField_natBits hv _, takeField_natBits hd _, takeList_listBits hl hx _⟩

theorem parseSeek_push {dest : Dest} {area : Nat} {excl : List Nat} {s : Service} {b : BusSummary} (ha : area ≤ 7)
    (hl : excl.length ≤ 4) (hn : excl.Nodup) (hx : ∀ n ∈ excl, n < 32) (h : (Summary.push s b).inRange dest)
    (pad : List Bool) :
    parseSeek dest 10 ((Body.seek area excl (.push s b)).bits ++ pad) = some (.seek area excl (.push s b)) := by
  obtain ⟨hs, hdest, f1, f2, cls, c1, c2, lev, rel⟩ := h
  have releases : ∀ n ∈ b.release, n < 2 ^ 11 := fun n hr => lt_of_le_of_lt (rel n hr) (by decide)
  have minutes : b.release.all minuteOk = true := by
    cases hb : b.release with
    | none => rfl
    | some r => simpa [minuteOk_iff] using rel r hb
  obtain ⟨h1, h2, h3, h4⟩ := takeHead_seek (dir := 0) ha s.code_lt (by decide) hl hx
    (natBits 12 b.fleet ++ (natBits 3 b.cls ++ (natBits 2 b.fuel.code ++ (natBits 10 b.capacity ++ (natBits 7 b.level
      ++ (natBits 2 b.wash.code ++ (optBits 11 b.release ++ pad)))))))
  simp only [parseSeek, Body.bits, List.append_assoc, h1, h2, h3, h4, serviceOf_code, hl, hn, decide_true,
    Bool.and_self, if_true, takeField_natBits (by omega : b.fleet < 2 ^ 12),
    takeField_natBits (by omega : b.cls < 2 ^ 3), takeField_natBits b.fuel.code_lt,
    takeField_natBits (by omega : b.capacity < 2 ^ 10), takeField_natBits (by omega : b.level < 2 ^ 7),
    takeField_natBits b.wash.code_lt, takeOpt_optBits releases, fuelOf_code, progOf_code, minutes]
  cases s with
  | exit => exact absurd rfl hs
  | _ => simp [hdest, seekDest, fleetOk_iff, capacityOk_iff, f1, f2, c1, c2, lev]

theorem parseSeek_pull {dest : Dest} {area : Nat} {excl : List Nat} {d : DutySummary} (ha : area ≤ 7)
    (hl : excl.length ≤ 4) (hn : excl.Nodup) (hx : ∀ n ∈ excl, n < 32) (h : (Summary.pull d).inRange dest)
    (pad : List Bool) :
    parseSeek dest 11 ((Body.seek area excl (.pull d)).bits ++ pad) = some (.seek area excl (.pull d)) := by
  obtain ⟨hdest, d1, d2, rel, mask, lev, pinned⟩ := h
  have fleets : ∀ n ∈ d.pinned, n < 2 ^ 12 := fun n hp => lt_of_le_of_lt (pinned n hp).2 (by decide)
  have pinnedOk : d.pinned.all fleetOk = true := by
    cases hb : d.pinned with
    | none => rfl
    | some r => simpa [fleetOk_iff] using pinned r hb
  have maskOk : d.mask.toNat ≠ 0 := fun h0 => mask (BitVec.eq_of_toNat_eq h0)
  obtain ⟨h1, h2, h3, h4⟩ := takeHead_seek (v := 3) (dir := 1) ha (by decide) (by decide) hl hx
    (natBits 14 d.duty ++ (natBits 11 d.release ++ (natBits 8 d.mask.toNat ++ (natBits 2 d.fuel.code
      ++ (natBits 7 d.minLevel ++ (optBits 12 d.pinned ++ pad))))))
  simp only [parseSeek, Body.bits, List.append_assoc, h1, h2, h3, h4, hl, hn, decide_true,
    Bool.and_self, if_true, takeField_natBits (by omega : d.duty < 2 ^ 14),
    takeField_natBits (by omega : d.release < 2 ^ 11), takeField_natBits d.mask.isLt, takeField_natBits d.fuel.code_lt,
    takeField_natBits (by omega : d.minLevel < 2 ^ 7), takeOpt_optBits fleets, serviceOf, fuelOf_code, pinnedOk]
  simp [dutyOk_iff, minuteOk_iff, hdest, d1, d2, rel, maskOk, lev]

theorem parseOffer_bits {c a : Nat} {s : Service} {g : Option Nat} (ha : a ≤ 7)
    (hg : if s = .exit then ∃ x, g = some x ∧ 1 ≤ x ∧ x ≤ 4095 else g = none) (pad : List Bool) :
    parseOffer c (Body.offer c s a g).length ((Body.offer c s a g).bits ++ pad) = some (.offer c s a g) := by
  have area (r : List Bool) : takeField 3 (natBits 3 a ++ r) = (a, r) := takeField_natBits (by omega) r
  by_cases hs : s = .exit
  · subst hs
    obtain ⟨x, rfl, h1, h2⟩ := (if_pos rfl).mp hg
    simp only [parseOffer, Body.bits, List.append_assoc, takeField_natBits Service.exit.code_lt, area, serviceOf_code,
      takeField_natBits (by omega : x < 2 ^ 12)]
    simp [Body.length, fleetOk_iff, h1, h2]
  · obtain rfl : g = none := by simpa [hs] using hg
    have bits : (Body.offer c s a none).bits = natBits 2 s.code ++ natBits 3 a := by cases s <;> simp [Body.bits]
    simp only [parseOffer, bits, List.append_assoc, takeField_natBits s.code_lt, area, serviceOf_code]
    cases s <;> simp_all [Body.length]

theorem parseRepin_bits {f : Nat} {p : Option Pin} (h1 : 1 ≤ f) (h2 : f ≤ 4095) (hp : ∀ q ∈ p, q.inRange)
    (pad : List Bool) : parseRepin ((Body.repin f p).bits ++ pad) = some (.repin f p) := by
  have duties : ∀ n ∈ p.map (·.duty), n < 2 ^ 14 := optBits_map_lt fun q hq =>
    lt_of_le_of_lt (hp q hq).2.1 (by decide)
  have releases : ∀ n ∈ p.map (·.release), n < 2 ^ 11 := optBits_map_lt fun q hq =>
    lt_of_le_of_lt (hp q hq).2.2 (by decide)
  simp only [parseRepin, Body.bits, List.append_assoc, takeField_natBits (by omega : f < 2 ^ 12),
    takeOpt_optBits duties, takeOpt_optBits releases, pinOf_parts hp, if_pos (fleetOk_iff.2 ⟨h1, h2⟩)]

theorem parseFleet_bits {f : Nat} (h1 : 1 ≤ f) (h2 : f ≤ 4095) (k : Nat → Body) (pad : List Bool) :
    parseFleet 2 (natBits 12 f ++ pad) k = some (k f) := by
  simp [parseFleet, takeField_natBits (by omega : f < 2 ^ 12), fleetOk_iff, h1, h2]

/-! ## A frame's raw form is parsed as that frame -/

/-- The kinds' payloads fit their lengths. -/
theorem bits_fit (b : Body) : b.bits.length ≤ 8 * b.length := by
  cases b with
  | offer c s a g => cases s <;> cases g <;> simp [Body.bits, Body.length]
  | seek a excl what => cases what <;> simp [Body.bits, Body.length]
  | _ => simp [Body.bits, Body.length]

/-- The payload of a frame, read as bits, is the body's fields and the 0s that fill the last byte. -/
theorem raw_payload (f : Frame) : ∃ pad, bytesBits f.raw.payload = f.body.bits ++ pad :=
  ⟨_, bytesBits_bitsBytes (bits_fit f.body)⟩

@[simp] theorem raw_payload_length (f : Frame) : f.raw.payload.length = f.body.length := bitsBytes_length _ _

theorem Body.rank_lt (b : Body) : b.rank < 2 ^ 3 := by cases b <;> simp [Body.rank]

theorem rank_raw (f : Frame) : f.raw.rank.toNat = f.body.rank :=
  (BitVec.toNat_ofNat ..).trans (Nat.mod_eq_of_lt f.body.rank_lt)

theorem Frame.wellFormed.value_lt {f : Frame} (h : f.wellFormed) : f.body.value < 2 ^ 12 := by
  obtain ⟨_, _, _, _, h⟩ := h
  cases hb : f.body with
  | offer c s a g =>
    rw [hb] at h
    exact lt_of_le_of_lt h.1 (by decide)
  | answer a x => cases a <;> simp [Body.value, Answer.value]
  | time m =>
    rw [hb] at h
    exact lt_of_le_of_lt h (by decide)
  | _ => simp [Body.value]

theorem Frame.wellFormed.value_raw {f : Frame} (h : f.wellFormed) : f.raw.value.toNat = f.body.value :=
  (BitVec.toNat_ofNat ..).trans (Nat.mod_eq_of_lt h.value_lt)

/-- The body of a well-formed frame is read from its payload. -/
theorem Frame.wellFormed.parseBody_raw {f : Frame} (h : f.wellFormed) :
    parseBody f.dest f.body.rank f.body.value f.raw.payload = some f.body := by
  obtain ⟨_, _, _, _, h⟩ := h
  obtain ⟨pad, hpad⟩ := raw_payload f
  unfold parseBody
  rw [hpad, raw_payload_length]
  cases hb : f.body with
  | offer c s a g =>
    rw [hb] at h
    exact parseOffer_bits h.2.1 h.2.2 pad
  | answer a x =>
    rw [hb] at h
    cases a <;> exact parseFleet_bits h.1 h.2 _ pad
  | claim x =>
    rw [hb] at h
    exact parseFleet_bits h.1 h.2 _ pad
  | cancel x =>
    rw [hb] at h
    exact (if_pos rfl).trans <| parseFleet_bits h.1 h.2 _ pad
  | handover b =>
    rw [hb] at h
    exact (if_pos ⟨rfl, rfl⟩).trans (parseHandover_bits h pad)
  | seek a excl what =>
    rw [hb] at h
    obtain ⟨_, ha, hl, hn, hx, hw⟩ := h
    cases what with
    | push s b => exact (if_pos rfl).trans (parseSeek_push ha hl hn hx hw pad)
    | pull d => exact (if_pos rfl).trans (parseSeek_pull ha hl hn hx hw pad)
  | repin x p =>
    rw [hb] at h
    exact (if_pos ⟨rfl, rfl⟩).trans (parseRepin_bits h.1 h.2.1 h.2.2 pad)
  | time m =>
    rw [hb] at h
    have minute : m ≤ 1439 := h
    simp [Body.rank, Body.value, Body.length, minute]

/-- A well-formed frame of another station is parsed as itself. -/
theorem Frame.wellFormed.parse_raw {f : Frame} (h : f.wellFormed) {own : Nat} (ho : f.source ≠ own) :
    f.raw.parse own = some f := by
  have body := h.parseBody_raw
  have value := h.value_raw
  obtain ⟨hsrc, hdest, hst, hnum, hbody⟩ := h
  have dest : f.raw.dest.toNat = f.dest.code :=
    (BitVec.toNat_ofNat ..).trans (Nat.mod_eq_of_lt (Dest.code_lt hdest))
  have source : f.raw.source.toNat = f.source := (BitVec.toNat_ofNat ..).trans (Nat.mod_eq_of_lt hsrc)
  have station : f.raw.seekStation.toNat = f.ref.station := (BitVec.toNat_ofNat ..).trans (Nat.mod_eq_of_lt hst)
  have number : f.raw.seekNumber.toNat = f.ref.number := (BitVec.toNat_ofNat ..).trans (Nat.mod_eq_of_lt hnum)
  have ours : ¬ (f.body.rank = 4 ∧ f.raw.seekStation ≠ f.raw.source) := by
    rintro ⟨hr, hne⟩
    cases hb : f.body with
    | seek a excl what =>
      rw [hb] at hbody
      exact hne (congrArg (BitVec.ofNat 5) hbody.1)
    | _ => simp [hb, Body.rank] at hr
  simp only [RawFrame.parse, dest, destOf_code hdest, source, if_neg ho, rank_raw, if_neg ours, value, body, station, number]

end Sys2Proof.Machine
end

section
/-! SUPPORT. What the check of R39 lets through is well-formed, and its raw form has the header that was read. -/

namespace Sys2Proof.Machine

/-! ## What a field and a list can hold -/

theorem takeList_length (w : Nat) (bs : List Bool) : (takeList w bs).2.1.length ≤ 4 :=
  List.length_take_le' ..

theorem takeField_three_le (bs : List Bool) : (takeField 3 bs).1 ≤ 7 := Nat.le_of_lt_succ (takeField_lt 3 bs)

theorem takeList_lt (w : Nat) (bs : List Bool) : ∀ n ∈ (takeList w bs).2.1, n < 2 ^ w := by
  intro n hn
  have slot := List.mem_of_mem_take hn
  simp only [List.mem_cons, List.not_mem_nil, or_false] at slot
  rcases slot with rfl | rfl | rfl | rfl <;> exact takeField_lt w _

theorem mapM_length {α β : Type} {g : α → Option β} {l : List α} {l' : List β} (h : l.mapM g = some l') :
    l'.length = l.length := by
  induction l generalizing l' with
  | nil => cases h; rfl
  | cons x xs ih =>
    rw [List.mapM_cons] at h
    obtain ⟨y, _, h⟩ := Option.bind_eq_some_iff.1 h
    obtain ⟨ys, hys, h⟩ := Option.bind_eq_some_iff.1 h
    cases h
    simp [ih hys]

/-! ## Bodies in their ranges -/

/-- The fields of a body lie in the ranges of R26 and R39. -/
def Body.inRange (dest : Dest) : Body → Prop
  | .offer c s a g => c ≤ 4095 ∧ a ≤ 7 ∧ (if s = .exit then ∃ x, g = some x ∧ 1 ≤ x ∧ x ≤ 4095 else g = none)
  | .answer _ x | .claim x | .cancel x => 1 ≤ x ∧ x ≤ 4095
  | .handover b => b.inRange
  | .seek a excl what =>
    a ≤ 7 ∧ excl.length ≤ 4 ∧ excl.Nodup ∧ (∀ n ∈ excl, n < 32) ∧ what.inRange dest
  | .repin x p => 1 ≤ x ∧ x ≤ 4095 ∧ ∀ q ∈ p, q.inRange
  | .time m => m ≤ 1439

/-- A frame is well-formed when its header and its body are in range, and a SEEK names its own station. -/
theorem wellFormed_iff {f : Frame} : f.wellFormed ↔ f.source < 32 ∧ (∀ n, f.dest = .station n → n < 32)
    ∧ f.ref.station < 32 ∧ f.ref.number < 256 ∧ (f.body.rank = 4 → f.ref.station = f.source)
    ∧ f.body.inRange f.dest := by
  unfold Frame.wellFormed
  cases f.body with
  | seek a excl what => simp [Body.rank, Body.inRange]
  | _ => simp [Body.rank, Body.inRange]

/-! ## What the readers of the payloads let through -/

theorem parseOffer_inRange {dest : Dest} {c len : Nat} {bs : List Bool} {b : Body} (hc : c ≤ 4095)
    (h : parseOffer c len bs = some b) : b.inRange dest ∧ b.rank = 0 ∧ b.value = c ∧ b.length = len := by
  unfold parseOffer at h
  dsimp only at h
  split at h
  next =>
    obtain ⟨hok, h⟩ := Option.ite_none_right_eq_some.1 h
    simp only [Bool.and_eq_true, decide_eq_true_eq, fleetOk_iff] at hok
    cases h
    exact ⟨⟨hc, takeField_three_le _, (if_pos rfl).mpr ⟨_, rfl, hok.2⟩⟩, rfl, rfl, hok.1.symm⟩
  next s hs hv =>
    obtain ⟨hok, h⟩ := Option.ite_none_right_eq_some.1 h
    cases h
    refine ⟨⟨hc, takeField_three_le _, (if_neg hs).mpr rfl⟩, rfl, rfl, ?_⟩
    cases s with
    | exit => exact absurd rfl hs
    | _ => exact hok.symm
  next => cases h

theorem parseFleet_eq_some {len : Nat} {bs : List Bool} {k : Nat → Body} {b : Body}
    (h : parseFleet len bs k = some b) : ∃ x, b = k x ∧ (1 ≤ x ∧ x ≤ 4095) ∧ len = 2 := by
  obtain ⟨hok, h⟩ := Option.ite_none_right_eq_some.1 h
  simp only [Bool.and_eq_true, decide_eq_true_eq, fleetOk_iff] at hok
  cases h
  exact ⟨_, rfl, hok.2, hok.1⟩

theorem parseHandover_inRange {bs : List Bool} {b : Body} (h : parseHandover bs = some b) :
    ∃ c, b = .handover c ∧ c.inRange := by
  unfold parseHandover at h
  dsimp only at h
  split at h
  next fu fmk pr wmk pin services _ _ _ _ hpin hserv =>
    obtain ⟨hok, h⟩ := Option.ite_none_right_eq_some.1 h
    simp only [Bool.and_eq_true, decide_eq_true_eq, fleetOk_iff, capacityOk_iff, minuteOk_iff] at hok
    obtain ⟨⟨⟨⟨⟨fleet, cap⟩, lev⟩, arr⟩, _⟩, nodup⟩ := hok
    cases h
    have count : services.length ≤ 4 := (mapM_length hserv).trans_le (takeList_length ..)
    refine ⟨_, rfl, ?_⟩
    simp only [Carried.inRange]
    exact ⟨fleet.1, fleet.2, takeField_three_le _, cap.1, cap.2, lev, pinOf_eq_some hpin, count, nodup, arr⟩
  next => cases h

theorem all_optional {p : Nat → Bool} {o : Option Nat} (h : o.all p = true) : ∀ n ∈ o, p n = true := by
  rintro n rfl
  exact h

theorem parseSeek_inRange {dest : Dest} {len : Nat} {bs : List Bool} {b : Body} (h : parseSeek dest len bs = some b) :
    b.inRange dest ∧ b.rank = 4 ∧ b.value = 0 ∧ b.length = len := by
  unfold parseSeek at h
  dsimp only at h
  obtain ⟨hex, h⟩ := Option.ite_none_right_eq_some.1 h
  simp only [Bool.and_eq_true, decide_eq_true_eq] at hex
  split at h
  next s _ _ =>
    split at h
    next fu pr _ _ =>
      obtain ⟨hok, h⟩ := Option.ite_none_right_eq_some.1 h
      simp only [Bool.and_eq_true, decide_eq_true_eq, fleetOk_iff, capacityOk_iff] at hok
      obtain ⟨⟨⟨⟨⟨group, hlen⟩, fleet⟩, cap⟩, lev⟩, rel⟩ := hok
      cases h
      have served : s ≠ .exit ∧ dest = seekDest s := by
        cases s with
        | exit => cases group
        | _ => exact ⟨by simp, of_decide_eq_true group⟩
      have release := fun r hr => minuteOk_iff.1 (all_optional rel r hr)
      refine ⟨?_, rfl, rfl, hlen.symm⟩
      simp only [Body.inRange, Summary.inRange]
      exact ⟨takeField_three_le _, takeList_length .., hex.2, takeList_lt 5 _, served.1, served.2, fleet.1, fleet.2,
        takeField_three_le _, cap.1, cap.2, lev, release⟩
    next => cases h
  next =>
    split at h
    next fu _ =>
      obtain ⟨hok, h⟩ := Option.ite_none_right_eq_some.1 h
      simp only [Bool.and_eq_true, decide_eq_true_eq, dutyOk_iff, minuteOk_iff] at hok
      obtain ⟨⟨⟨⟨⟨⟨hdest, hlen⟩, duty⟩, rel⟩, mask⟩, lev⟩, pinned⟩ := hok
      cases h
      have maskOk (n : Nat) (hn : n < 2 ^ 8) (h0 : n ≠ 0) : BitVec.ofNat 8 n ≠ 0#8 := by
        intro h
        have := congrArg BitVec.toNat h
        rw [BitVec.toNat_ofNat, Nat.mod_eq_of_lt hn] at this
        exact h0 this
      have fleets := fun f hf => fleetOk_iff.1 (all_optional pinned f hf)
      refine ⟨?_, rfl, rfl, hlen.symm⟩
      simp only [Body.inRange, Summary.inRange]
      exact ⟨takeField_three_le _, takeList_length .., hex.2, takeList_lt 5 _, hdest, duty.1, duty.2, rel,
        maskOk _ (takeField_lt 8 _) mask, lev, fleets⟩
    next => cases h
  next => cases h

theorem parseRepin_inRange {bs : List Bool} {b : Body} (h : parseRepin bs = some b) :
    ∃ x p, b = .repin x p ∧ 1 ≤ x ∧ x ≤ 4095 ∧ ∀ q ∈ p, q.inRange := by
  unfold parseRepin at h
  dsimp only at h
  split at h
  next pin hpin =>
    obtain ⟨hok, h⟩ := Option.ite_none_right_eq_some.1 h
    cases h
    exact ⟨_, _, rfl, (fleetOk_iff.1 hok).1, (fleetOk_iff.1 hok).2, pinOf_eq_some hpin⟩
  next => cases h

/-- What is read as a body lies in its ranges, and has the rank, the kind value and the length of the frame. -/
theorem parseBody_inRange {dest : Dest} {rank value : Nat} {payload : List Byte} {b : Body} (hv : value ≤ 4095)
    (h : parseBody dest rank value payload = some b) :
    b.inRange dest ∧ b.rank = rank ∧ b.value = value ∧ b.length = payload.length := by
  unfold parseBody at h
  dsimp only at h
  split at h
  next => exact parseOffer_inRange hv h
  next =>
    split at h
    next =>
      obtain ⟨x, rfl, hx, hl⟩ := parseFleet_eq_some h
      exact ⟨hx, rfl, rfl, hl.symm⟩
    next =>
      obtain ⟨x, rfl, hx, hl⟩ := parseFleet_eq_some h
      exact ⟨hx, rfl, rfl, hl.symm⟩
    next =>
      obtain ⟨x, rfl, hx, hl⟩ := parseFleet_eq_some h
      exact ⟨hx, rfl, rfl, hl.symm⟩
    next =>
      obtain ⟨x, rfl, hx, hl⟩ := parseFleet_eq_some h
      exact ⟨hx, rfl, rfl, hl.symm⟩
    next => cases h
  next =>
    obtain ⟨hc, h⟩ := Option.ite_none_right_eq_some.1 h
    obtain ⟨c, rfl, hr⟩ := parseHandover_inRange h
    exact ⟨hr, rfl, hc.1.symm, hc.2.symm⟩
  next =>
    obtain ⟨hc, h⟩ := Option.ite_none_right_eq_some.1 h
    obtain ⟨x, rfl, hx, hl⟩ := parseFleet_eq_some h
    exact ⟨hx, rfl, hc.symm, hl.symm⟩
  next =>
    obtain ⟨hc, h⟩ := Option.ite_none_right_eq_some.1 h
    obtain ⟨hr, hk, h0, hl⟩ := parseSeek_inRange h
    exact ⟨hr, hk, h0.trans hc.symm, hl⟩
  next =>
    obtain ⟨hc, h⟩ := Option.ite_none_right_eq_some.1 h
    obtain ⟨x, p, rfl, hr⟩ := parseRepin_inRange h
    exact ⟨hr, rfl, hc.1.symm, hc.2.symm⟩
  next =>
    obtain ⟨hc, h⟩ := Option.ite_none_right_eq_some.1 h
    cases h
    exact ⟨hc.1, rfl, rfl, hc.2.symm⟩
  next => cases h

/-- What is parsed is a well-formed frame of another station, with the header that was read. -/
theorem parse_eq_some {own : Nat} {r : RawFrame} {f : Frame} (h : r.parse own = some f) :
    f.wellFormed ∧ f.source ≠ own ∧ f.raw.key = r.key ∧ f.raw.dest = r.dest ∧ f.raw.seekStation = r.seekStation
      ∧ f.raw.seekNumber = r.seekNumber ∧ f.raw.payload.length = r.payload.length := by
  unfold RawFrame.parse at h
  split at h
  next => cases h
  next dest hdest =>
    obtain ⟨hown, h⟩ := Option.ite_none_left_eq_some.1 h
    obtain ⟨hst, h⟩ := Option.ite_none_left_eq_some.1 h
    split at h
    next body hbody =>
      cases h
      obtain ⟨code, range⟩ := destOf_eq_some hdest
      obtain ⟨hr, hrank, hvalue, hlen⟩ := parseBody_inRange (Nat.le_of_lt_succ r.value.isLt) hbody
      refine ⟨wellFormed_iff.2 ⟨r.source.isLt, range, r.seekStation.isLt, r.seekNumber.isLt, fun h4 => ?_, hr⟩, hown, ?_,
        ?_, ?_, ?_, ?_⟩
      · by_contra hne
        exact hst ⟨hrank ▸ h4, fun he => hne (congrArg BitVec.toNat he)⟩
      · simp [Frame.raw, RawFrame.key, hrank, hvalue]
      · simp [Frame.raw, code]
      · simp [Frame.raw]
      · simp [Frame.raw]
      · exact (raw_payload_length _).trans hlen
    next => cases h

end Sys2Proof.Machine
end

section
/-! SUPPORT. A frame of another station that is carried (R28, R29, R33, R34): the address filter, the receive pool, and
the flags of the line error summary, which no event of the line clears. -/

namespace Sys2Proof.Machine

/-! ## The address filter (R28, R29) -/

theorem passesDest_iff {l : Layout} {n : Nat} : l.passesDest (destOf n) = true ↔
    (n < 32 ∧ n = l.own ∨ n = 32 ∧ l.pumps ≠ [] ∨ n = 33 ∧ l.washes ≠ [] ∨ n = 34 ∧ l.lanes ≠ [] ∨ n = 63) := by
  by_cases h32 : n < 32
  · have others : n ≠ 32 ∧ n ≠ 33 ∧ n ≠ 34 ∧ n ≠ 63 := by omega
    simp [destOf, Layout.passesDest, h32, others]
  · simp only [destOf, if_neg h32]
    split_ifs with h1 h2 h3 h4
    · simp [Layout.passesDest, h1]
    · simp [Layout.passesDest, h2]
    · simp [Layout.passesDest, h3]
    · simp [Layout.passesDest, h4]
    · simp [Layout.passesDest, h32, h1, h2, h3, h4]

theorem passesArea_iff {l : Layout} {a : Nat} : l.passesArea a = true ↔
    a = 0 ∨ ∃ c, l.station = some c ∧ (a = c.area1 ∨ c.area2 = some a) := by
  unfold Layout.passesArea
  cases l.station with
  | none => simp
  | some c => simp [eq_comm (a := some a)]

theorem passes_iff {l : Layout} {r : RawFrame} : l.passes r = true ↔
    (r.dest.toNat < 32 ∧ r.dest.toNat = l.own ∨ r.dest.toNat = 32 ∧ l.pumps ≠ [] ∨ r.dest.toNat = 33 ∧ l.washes ≠ []
        ∨ r.dest.toNat = 34 ∧ l.lanes ≠ [] ∨ r.dest.toNat = 63)
      ∧ (r.rank.toNat = 4 → r.seekArea = 0
        ∨ ∃ c, l.station = some c ∧ (r.seekArea = c.area1 ∨ c.area2 = some r.seekArea)) := by
  have area : (decide (r.rank.toNat ≠ 4) || l.passesArea r.seekArea) = true
      ↔ (r.rank.toNat = 4 → l.passesArea r.seekArea = true) := by
    rw [Bool.or_eq_true, decide_eq_true_eq]
    exact imp_iff_not_or.symm
  rw [Layout.passes, Bool.and_eq_true, passesDest_iff, area, passesArea_iff]

/-- The high digits of a number stand in front of its low ones. -/
theorem natBits_add (u w n : Nat) : natBits (u + w) n = natBits u (n / 2 ^ w) ++ natBits w n := by
  induction u with
  | zero => simp [natBits]
  | succ u ih => rw [Nat.succ_add, natBits, ih, natBits, Nat.testBit_div_two_pow, List.cons_append]

/-- The area is the three high bits of the payload's first byte. -/
theorem seekArea_cons {r : RawFrame} {b : Byte} {rest : List Byte} (h : r.payload = b :: rest) :
    r.seekArea = b.toNat / 32 := by
  have split : natBits 8 b.toNat = natBits 3 (b.toNat / 32) ++ natBits 5 b.toNat := natBits_add 3 5 b.toNat
  have small : b.toNat / 32 < 2 ^ 3 := Nat.div_lt_of_lt_mul b.isLt
  rw [RawFrame.seekArea, h, bytesBits, split, List.append_assoc, takeField_natBits small]

/-! ## The flags of the line error summary -/

theorem setFlag_get {e : Env} {f g : LineFlag} {y : Yard} (h : y.line.flags.get f = true) :
    (setFlag e g y).line.flags.get f = true := by
  unfold setFlag
  split
  · exact h
  · by_cases hfg : f = g
    · subst hfg
      cases f <;> simp [LineFlags.get, LineFlags.set]
    · cases f <;> cases g <;> simp_all [LineFlags.get, LineFlags.set]

/-- A flag that is set. -/
theorem setFlag_self (e : Env) (f : LineFlag) (y : Yard) : (setFlag e f y).line.flags.get f = true := by
  unfold setFlag
  split
  next h => exact h
  next => cases f <;> simp [LineFlags.get, LineFlags.set]

theorem roundTold_get {e : Env} {n : Nat} {en : SeekEntry} {f : LineFlag} {y : Yard}
    (h : y.line.flags.get f = true) : (roundTold e n en y).line.flags.get f = true := by
  have lost : (roundLost e n y).line.flags.get f = true := setFlag_get h
  unfold roundTold notifyNoOffer
  (repeat' split) <;> simpa using lost

theorem noOffer_get {e : Env} {n : Nat} {f : LineFlag} {y : Yard} (h : y.line.flags.get f = true) :
    (noOffer e n y).line.flags.get f = true := by
  cases hen : y.seekEntry? n with
  | none => simpa only [noOffer, hen] using h
  | some en =>
    have told : (roundTold e n en y).line.flags.get f = true := roundTold_get h
    rw [noOffer_eq hen]
    (repeat' split) <;> simpa using told

/-- The end of an opening clears none. -/
theorem endOpening_get {e : Env} {next : Option SeekRef} {pooled : Bool} {f : LineFlag} {y : Yard}
    (h : y.line.flags.get f = true) : (endOpening e next pooled y).line.flags.get f = true := by
  have done : (openingDone e next y).line.flags.get f = true := by simpa [openingDone] using h
  rw [endOpening_eq]
  (repeat' split)
  · exact noOffer_get done
  all_goals exact done

/-! ## The receive pool (R33, R34, R39) -/

section PoolFrame

variable {e : Env} {r : RawFrame} {y : Yard}

theorem poolFrame_malformed (h : r.parse e.layout.own = none) :
    poolFrame e r y = setFlag e .rxMalformed (countMalformed y) := by
  simp only [poolFrame, h]

theorem poolFrame_pooled {f : Frame} (h : r.parse e.layout.own = some f) (hp : y.line.pool.length < 4) :
    poolFrame e r y = countReceived { y with line.pool := y.line.pool ++ [f] } := by
  have room : y.line.pool.length < Config.poolCap := hp
  simp only [poolFrame, h, if_pos room]

theorem poolFrame_lost {f : Frame} (h : r.parse e.layout.own = some f) (hp : 4 ≤ y.line.pool.length) :
    poolFrame e r y = setFlag e .poolFull (countRxLost y) := by
  have full : ¬ y.line.pool.length < Config.poolCap := Nat.not_lt.2 hp
  simp only [poolFrame, h, if_neg full]

end PoolFrame

/-- The yard after the frame has passed the filter or not. -/
def filterFrame (e : Env) (r : RawFrame) (y : Yard) : Yard := if e.layout.passes r then poolFrame e r y else y

/-- A followed frame of another station is filtered, and its opening ends. -/
theorem frameCarried_other {e : Env} {bits : List Bool} {r : RawFrame} {y : Yard} (hf : y.line.following = true)
    (hs : y.line.sendingSlot = none) (hr : receiveFrame bits = some r) :
    ∃ next pooled, frameCarried e bits y = settle e (endOpening e next pooled (filterFrame e r y)) := by
  have follows : ¬ y.line.following = false := by simp [hf]
  refine ⟨r.opensOffers, poolsOffer e r y.line.offerRef y, ?_⟩
  simp only [frameCarried, hr, if_neg follows, hs]
  rfl

theorem filterFrame_units (e : Env) (r : RawFrame) (y : Yard) : SameUnits y (filterFrame e r y) := by
  unfold filterFrame
  split <;> simp [SameUnits]

end Sys2Proof.Machine
end

section
/-! The statement on the frames of other stations. -/

namespace Sys2Proof.Proofs.Line

open Sys2Proof Sys2Proof.Machine

/-- What the filter and the check make of a carried frame stays when the event ends. -/
theorem carried_line {e : Env} {next : Option SeekRef} {pooled : Bool} {y z : Yard}
    (h : z = settle e (endOpening e next pooled y)) :
    z.line.pool = y.line.pool ∧ z.line.cnt = y.line.cnt
      ∧ ∀ f : LineFlag, y.line.flags.get f = true → z.line.flags.get f = true := by
  subst h
  obtain ⟨pool, cnt, _⟩ := settle_endOpening_line e next pooled y
  exact ⟨pool, cnt, fun f hf => by simpa using endOpening_get hf⟩

/-- Settles O32: the bits read back, the filter, the two directions of the parse, and the four fates of a carried
frame. -/
theorem aCarriedFrameIsPooledLostOrMalformed : Obligations.ACarriedFrameIsPooledLostOrMalformed := by
  refine ⟨fun r hr => ⟨receiveFrame_stuffed hr, rfl⟩, fun l r => ⟨passes_iff, fun b rest => seekArea_cons⟩,
    fun own f hf ho => hf.parse_raw ho, fun own r f => parse_eq_some, fun s bits r hw hf hs hr => ?_⟩
  obtain ⟨next, pooled, carried⟩ := frameCarried_other (e := s.env) hf hs hr
  obtain ⟨lanes, fuel, wash, points, signs⟩ :=
    (filterFrame_units s.env r s.yard).trans (settle_endOpening_units s.env next pooled _)
  obtain ⟨pool, cnt, flags⟩ := carried_line (e := s.env) (next := next) (pooled := pooled)
    (y := filterFrame s.env r s.yard) rfl
  refine ⟨_, event_works hw rfl carried, (settle_endOpening_line ..).2.2.2, lanes, fuel, wash, points, signs, rfl, fun hp => ?_, fun hp hm => ?_,
    fun f hp hm hl => ?_, fun f hp hm hl => ?_⟩
  · have out : filterFrame s.env r s.yard = s.yard := if_neg (by simp [State.env, hp])
    exact ⟨pool.trans (by rw [out]), cnt.trans (by rw [out])⟩
  · have out : filterFrame s.env r s.yard = _ := (if_pos hp).trans (poolFrame_malformed (e := s.env) (y := s.yard) hm)
    exact ⟨pool.trans (by simp [out]), flags .rxMalformed (by rw [out]; exact setFlag_self ..),
      cnt.trans (by simp [out]; rfl)⟩
  · have out : filterFrame s.env r s.yard = _ := (if_pos hp).trans (poolFrame_pooled (e := s.env) (y := s.yard) hm hl)
    exact ⟨pool.trans (by rw [out]; rfl), cnt.trans (by rw [out]; rfl)⟩
  · have out : filterFrame s.env r s.yard = _ := (if_pos hp).trans (poolFrame_lost (e := s.env) (y := s.yard) hm hl)
    exact ⟨pool.trans (by simp [out]), flags .poolFull (by rw [out]; exact setFlag_self ..),
      cnt.trans (by simp [out]; rfl)⟩

end Sys2Proof.Proofs.Line
end

section
/-! SUPPORT. This station's own frame carried (R31, R35, R52, R56, R59): what its block is told, what a won offer
reserves, and how requests pass through the transmit queue. -/

namespace Sys2Proof.Machine

/-! ## The end of an event keeps the seek entries that it finds -/

theorem seekEntry?_giveEntry {e : Env} {y : Yard} {n : Nat} {en : SeekEntry} (h : y.seekEntry? n = some en) :
    (giveEntry e y).seekEntry? n = some en := by
  by_cases hy : y.nothingToGive
  · rwa [giveEntry_idle hy]
  · rw [Yard.nothingToGive, not_or, Nat.not_le] at hy
    obtain ⟨w, hw⟩ := Option.ne_none_iff_exists'.1 hy.2
    have table : (giveEntry e y).seek.table
        = y.seek.table ++ [{ number := y.seek.nextNumber, subject := w }] := by simp [giveEntry_gives hy.1 hw]
    have found : y.seek.table.find? (·.number == n) = some en := h
    rw [Yard.seekEntry?, table, List.find?_append, found, Option.some_or]

theorem seekEntry?_giveTimes {e : Env} {k : Nat} {y : Yard} {n : Nat} {en : SeekEntry} (h : y.seekEntry? n = some en) :
    (giveTimes e k y).seekEntry? n = some en := by
  induction k generalizing y with
  | zero => exact h
  | succ k ih => exact ih (seekEntry?_giveEntry h)

theorem seekEntry?_settle {e : Env} {y : Yard} {n : Nat} {en : SeekEntry} (h : y.seekEntry? n = some en) :
    (settle e y).seekEntry? n = some en := by
  have fifo : (fifoTimes e Config.fifoCap y).seekEntry? n = some en := by
    simpa only [Yard.seekEntry?, fifoTimes_frame] using h
  unfold settle giveEntries
  split
  · exact seekEntry?_giveTimes fifo
  · exact fifo

/-! ## The frame carried (R31, R35) -/

/-- The frame has left the line and is counted. -/
def sentYard (e : Env) (y : Yard) : Yard := countSent (dropSending e y)

@[simp] theorem sentYard_frame (e : Env) (y : Yard) :
    (sentYard e y).records = y.records ∧ (sentYard e y).line.txBits = [] ∧ (sentYard e y).line.pool = y.line.pool ∧
      (sentYard e y).line.curOffer = y.line.curOffer ∧ (sentYard e y).line.nextOffer = y.line.nextOffer ∧
      (sentYard e y).line.cnt = { y.line.cnt with sent := min 65535 (y.line.cnt.sent + 1) } ∧
      (sentYard e y).seek = y.seek ∧ (sentYard e y).lanes = y.lanes ∧ (sentYard e y).fuel = y.fuel ∧
      (sentYard e y).wash = y.wash ∧ (sentYard e y).points = y.points := by
  simp [sentYard, countSent, sat]
  simp [dropSending]

theorem offerWon_offer (e : Env) (y : Yard) :
    (offerWon e y).line.curOffer = y.line.curOffer ∧ (offerWon e y).line.nextOffer = y.line.nextOffer := by
  unfold offerWon
  cases y.seek.choice with
  | none => exact ⟨rfl, rfl⟩
  | some c =>
    dsimp only
    by_cases hs : c.service = .exit
    · rw [if_pos hs]
      cases c.resource with
      | lane l =>
        dsimp only
        split <;> simp
      | apron f => exact ⟨rfl, rfl⟩
      | wash w => exact ⟨rfl, rfl⟩
    · rw [if_neg hs]
      cases hr : reserve e c { y with seek.choice := none } with
      | none => exact ⟨rfl, rfl⟩
      | some z =>
        have line : z.line = y.line := by
          unfold reserve at hr
          split at hr
          · obtain ⟨_, _, _, rfl⟩ := laneReserve_eq_some.1 hr
            rfl
          · obtain ⟨_, rfl⟩ := apronReserve_eq_some.1 hr
            rfl
          · obtain ⟨_, _, _, rfl⟩ := washReserve_eq_some.1 hr
            rfl
        simp [line]

theorem reportCarried_offerRef (e : Env) (r : TxReq) (y : Yard) :
    (reportCarried e r y).line.offerRef = y.line.offerRef := by
  obtain ⟨cur, next⟩ := offerWon_offer e y
  unfold reportCarried LineIf.offerRef
  split
  · rfl
  · rw [cur, next]
  · simp

/-- No own seek is given this opening: its end asks for no NO OFFER. -/
theorem not_offersFor {e : Env} {y : Yard} (h : ∀ r ∈ y.line.offerRef, r.station ≠ e.layout.own) (en : SeekEntry) :
    ¬ OffersFor e y en := by
  rintro ⟨n, href, _⟩
  exact h _ href rfl

/-- This station's own frame, carried and not withdrawn: its block learns of it, and the opening ends. -/
theorem frameCarried_own {e : Env} {y : Yard} {x : TxSlot} {bits : List Bool} (hf : y.line.following = true)
    (hs : y.line.sendingSlot = some x) (hr : receiveFrame bits = some x.frame.raw) (hw : x.withdrawn = false)
    (ho : ∀ r ∈ y.line.offerRef, r.station ≠ e.layout.own) :
    frameCarried e bits y
      = settle e (openingDone e x.frame.raw.opensOffers (reportCarried e x.req (sentYard e y))) := by
  have follows : ¬ y.line.following = false := by simp [hf]
  have offer : (reportCarried e x.req (sentYard e y)).line.offerRef = y.line.offerRef := by
    rw [reportCarried_offerRef]
    simp [LineIf.offerRef]
  have own : frameCarried e bits y = settle e (ownCarried e x y) := by
    simp only [frameCarried, hr, if_neg follows, hs, if_true]
  have told : ownCarried e x y
      = endOpening e x.frame.raw.opensOffers false (reportCarried e x.req (sentYard e y)) := by
    simp only [ownCarried, hw, Bool.false_eq_true, if_false]
    rfl
  rw [own, told, endOpening_quiet (.inr (not_offersFor (offer.symm ▸ ho)))]

/-- What is left at the end of the event of what the block made. -/
theorem settle_openingDone (e : Env) (next : Option SeekRef) (z : Yard) :
    let t := settle e (openingDone e next z)
    t.seek.choice = none ∧ t.seek.offers = z.seek.offers ∧ t.lanes = z.lanes ∧ t.fuel = z.fuel ∧ t.wash = z.wash
      ∧ t.points = z.points := by
  simp [openingDone]

theorem settle_openingDone_line (e : Env) (next : Option SeekRef) (z : Yard) :
    let t := settle e (openingDone e next z)
    t.line.cnt = z.line.cnt ∧ t.line.txBits = z.line.txBits ∧ t.line.pool = z.line.pool ∧ t.line.nextOffer = next := by
  simp [openingDone]

theorem seekEntry?_settle_openingDone {e : Env} {next : Option SeekRef} {z : Yard} {n : Nat} {en : SeekEntry}
    (h : z.seekEntry? n = some en) : (settle e (openingDone e next z)).seekEntry? n = some en :=
  seekEntry?_settle (by rwa [Yard.seekEntry?, openingDone_table])

/-! ## What the block is told of a frame that is no OFFER (R52, R59) -/

theorem reportCarried_of_not_offer {e : Env} {r : TxReq} {y : Yard} (h : r.isOffer = false) :
    (reportCarried e r y).line = y.line ∧ (reportCarried e r y).lanes = y.lanes
      ∧ (reportCarried e r y).fuel = y.fuel ∧ (reportCarried e r y).points = y.points := by
  unfold reportCarried
  split
  · exact ⟨rfl, rfl, rfl, rfl⟩
  · cases h
  · simp

theorem seekEntry?_onSeek {n : Nat} {g : SeekEntry → SeekEntry} {y : Yard} {en : SeekEntry}
    (hg : ∀ x, (g x).number = x.number) (h : y.seekEntry? n = some en) : (onSeek n g y).seekEntry? n = some (g en) :=
  (find?_updFirst_self _ _ (fun x => by simp [hg]) _).trans (congrArg (Option.map g) h)

theorem seekEntry?_carried_seek {e : Env} {n : Nat} {y : Yard} {en : SeekEntry} (h : y.seekEntry? n = some en)
    (hq : en.state = .queued) : (reportCarried e (.seek n) y).seekEntry? n = some { en with state := .opened } := by
  rw [reportCarried, seekEntry?_onSeek (fun x => by split <;> rfl) h, if_pos hq]

theorem seekEntry?_carried_handover {e : Env} {n : Nat} {y : Yard} {en : SeekEntry} (h : y.seekEntry? n = some en)
    (hq : en.state = .handing .sending) : (reportCarried e (.handover n) y).seekEntry? n = some { en with
      state := .handing .awaiting, attempts := en.attempts + 1, timer := some e.layout.params.answerTime } := by
  have told : reportCarried e (.handover n) y = onSeek n (fun x => if x.state = .handing .sending then
      { x with state := .handing .awaiting, attempts := x.attempts + 1, timer := some e.layout.params.answerTime }
      else x) y := rfl
  rw [told, seekEntry?_onSeek (fun x => by split <;> rfl) h, if_pos hq]

theorem exitOffer?_carried {e : Env} {ref : SeekRef} {f : Nat} {y : Yard} {o : OfferEntry}
    (h : y.exitOffer? ref f = some o) (hq : o.state = .sending) :
    (reportCarried e (.exitHandover ref f) y).exitOffer? ref f = some { o with
      attempts := o.attempts + 1, timer := some e.layout.params.answerTime } := by
  have kept (g : OfferEntry → OfferEntry) (hg : ∀ x, x.is false ref f = true → (g x).is false ref f = true) :
      (onOffer false ref f g y).exitOffer? ref f = some (g o) :=
    (find?_updFirst_self _ _ hg _).trans (congrArg (Option.map g) h)
  have told : reportCarried e (.exitHandover ref f) y = onOffer false ref f (fun x => if x.state = .sending then
      { x with attempts := x.attempts + 1, timer := some e.layout.params.answerTime } else x) y := rfl
  have stays (x : OfferEntry) (h : x.is false ref f = true) : (if x.state = .sending then
      { x with attempts := x.attempts + 1, timer := some e.layout.params.answerTime } else x).is false ref f = true := by
    split <;> exact h
  rw [told, kept _ stays, if_pos hq]

/-! ## What a won offer reserves (R56, R95, R96, R116, R117, R142, R143) -/

/-- The HELD entry of a won PUSH offer. -/
def Choice.held (e : Env) (c : Choice) : OfferEntry :=
  ⟨c.ref, c.service, c.fleet, c.resource, c.cost, .held, some (1000 * e.layout.params.offerHold), 0⟩

/-- The choice is taken from the seek engine. -/
def clearChoice (y : Yard) : Yard := { y with seek := { y.seek with choice := none } }

section OfferWon

variable {e : Env} {y : Yard} {c : Choice} (hc : y.seek.choice = some c)
include hc

theorem offerWon_reserved (hs : c.service ≠ .exit) {z : Yard} (hr : reserve e c (clearChoice y) = some z) :
    offerWon e y = { z with seek := { z.seek with offers := z.seek.offers ++ [c.held e] } } := by
  have reserved : reserve e c { y with seek.choice := none } = some z := hr
  simp only [offerWon, hc, if_neg hs, reserved]
  rfl

theorem offerWon_refused (hs : c.service ≠ .exit) (hr : reserve e c (clearChoice y) = none) :
    offerWon e y = clearChoice y := by
  have refused : reserve e c { y with seek.choice := none } = none := hr
  simp only [offerWon, hc, if_neg hs, refused]
  rfl

theorem offerWon_exit {n : Nat} {l : Lane} {rest : List Position} {r : Record} (hs : c.service = .exit)
    (hn : c.resource = .lane n) (hl : y.lane? n = some l) (hp : l.positions = ⟨c.fleet, .parked⟩ :: rest)
    (hr : y.rec? c.fleet = some r) (hst : r.state = .parked) (hloc : r.loc = .lane n) :
    offerWon e y = send e (.exitHandover c.ref c.fleet)
      (let z := setPosition e n c.fleet .calledOut (clearChoice y)
       { z with seek := { z.seek with offers := z.seek.offers
          ++ [⟨c.ref, .exit, c.fleet, .lane n, c.cost, .sending, none, 0⟩] } }) := by
  have stands : (((clearChoice y).lane? n).bind Lane.front = some ⟨c.fleet, .parked⟩
      ∧ (clearChoice y).heldAt c.fleet .parked (.lane n) = true) := by
    have lane : (clearChoice y).lane? n = some l := hl
    have held : (clearChoice y).rec? c.fleet = some r := hr
    simp [lane, held, Lane.front, hp, Yard.heldAt, hst, hloc]
  simp only [offerWon, hc, hn, hs]
  exact if_pos stands

/-- A choice at a resource other than a lane calls no bus out. -/
theorem offerWon_lanes_other {n m : Nat} (hn : c.resource = .lane n) (hm : m ≠ n) :
    (offerWon e y).lane? m = y.lane? m := by
  by_cases hs : c.service = .exit
  · simp only [offerWon, hc, if_pos hs, hn]
    split
    · simp only [Yard.lane?, send_frame]
      exact lane?_onPositions_other e _ (clearChoice y) hm
    · rfl
  · cases hr : reserve e c (clearChoice y) with
    | none => rw [offerWon_refused hc hs hr]; rfl
    | some z =>
      rw [offerWon_reserved hc hs hr]
      simp only [reserve, hn] at hr
      obtain ⟨_, _, _, rfl⟩ := laneReserve_eq_some.1 hr
      exact lane?_onLane_other _ _ (fun _ => rfl) hm

theorem offerWon_units {n : Nat} (hn : c.resource = .lane n) :
    (offerWon e y).fuel = y.fuel ∧ (offerWon e y).wash = y.wash ∧ (offerWon e y).points = y.points := by
  by_cases hs : c.service = .exit
  · simp only [offerWon, hc, if_pos hs, hn]
    split <;> simp
  · cases hr : reserve e c (clearChoice y) with
    | none => rw [offerWon_refused hc hs hr]; exact ⟨rfl, rfl, rfl⟩
    | some z =>
      rw [offerWon_reserved hc hs hr]
      simp only [reserve, hn] at hr
      obtain ⟨_, _, _, rfl⟩ := laneReserve_eq_some.1 hr
      exact ⟨rfl, rfl, rfl⟩

/-- A won BERTH offer. -/
theorem offerWon_lane {n : Nat} {l : Lane} (hs : c.service ≠ .exit) (hn : c.resource = .lane n)
    (hl : y.lane? n = some l) :
    if l.positions.length + l.reservs.length < l.cfg.depth then
      (offerWon e y).lane? n = some { l with
        reservs := l.reservs.filter (·.fleet != c.fleet)
          ++ [⟨c.ref, c.fleet, c.release, l.reservs.any fun q => q.committed && q.fleet == c.fleet⟩] }
      ∧ (offerWon e y).seek.offers = y.seek.offers ++ [c.held e]
    else (offerWon e y).lane? n = some l ∧ (offerWon e y).seek.offers = y.seek.offers := by
  split
  next hroom =>
    have reserved : reserve e c (clearChoice y) = some
        (onLane n (fun l => l.enter ⟨c.ref, c.fleet, c.release, l.committed c.fleet⟩) (clearChoice y)) := by
      simp only [reserve, hn]
      exact laneReserve_eq_some.2 ⟨l, hl, lane_room_iff.2 hroom, rfl⟩
    rw [offerWon_reserved hc hs reserved]
    have lane := lane?_onLane_self n (fun l => l.enter ⟨c.ref, c.fleet, c.release, l.committed c.fleet⟩) (clearChoice y)
      fun _ => rfl
    exact ⟨lane.trans (congrArg (Option.map _) hl), rfl⟩
  next hroom =>
    have refused : reserve e c (clearChoice y) = none := by
      simp only [reserve, hn]
      refine Option.eq_none_iff_forall_ne_some.2 fun z hz => ?_
      obtain ⟨l', hl', room, _⟩ := laneReserve_eq_some.1 hz
      cases hl.symm.trans hl'
      exact hroom (lane_room_iff.1 room)
    rw [offerWon_refused hc hs refused]
    exact ⟨hl, rfl⟩

/-- A won EXIT offer whose bus stands at the front. -/
theorem offerWon_calledOut {n : Nat} {l : Lane} {rest : List Position} {r : Record} (hs : c.service = .exit)
    (hn : c.resource = .lane n) (hl : y.lane? n = some l) (hp : l.positions = ⟨c.fleet, .parked⟩ :: rest)
    (hr : y.rec? c.fleet = some r) (hst : r.state = .parked) (hloc : r.loc = .lane n) :
    (offerWon e y).lane? n = some { l with positions := ⟨c.fleet, .calledOut⟩ :: rest }
      ∧ (offerWon e y).seek.offers = y.seek.offers
        ++ [⟨c.ref, .exit, c.fleet, .lane n, c.cost, .sending, none, 0⟩] := by
  have front : updFirst (fun p : Position => p.fleet == c.fleet && !p.state.isLeaving)
      (fun p => { p with state := .calledOut }) l.positions = ⟨c.fleet, .calledOut⟩ :: rest := by
    simp [hp, updFirst, PosState.isLeaving]
  rw [offerWon_exit hc hs hn hl hp hr hst hloc]
  refine ⟨?_, by simp [clearChoice]⟩
  simp only [Yard.lane?, send_frame]
  refine (lane?_onPositions_self e n _ (clearChoice y)).trans ?_
  have lane : (clearChoice y).lane? n = some l := hl
  rw [lane, Option.map_some, front]

/-- A won FUEL offer. -/
theorem offerWon_apron {f : Fuel} (hs : c.service ≠ .exit) (hn : c.resource = .apron f) :
    (offerWon e y).lanes = y.lanes ∧ (offerWon e y).wash = y.wash
      ∧ if y.fuel.queue.length + y.fuel.reservs.length < e.layout.islandCfg.capacity then
          (offerWon e y).fuel = { y.fuel with
            reservs := y.fuel.reservs.filter (·.fleet != c.fleet)
              ++ [⟨c.ref, c.fleet, f, y.fuel.reservs.any fun q => q.committed && q.fleet == c.fleet⟩] }
          ∧ (offerWon e y).seek.offers = y.seek.offers ++ [c.held e]
        else (offerWon e y).fuel = y.fuel ∧ (offerWon e y).seek.offers = y.seek.offers := by
  split
  next hroom =>
    have reserved : reserve e c (clearChoice y) = some
        (enterApron ⟨c.ref, c.fleet, f, (clearChoice y).apronCommitted c.fleet⟩ (clearChoice y)) := by
      simp only [reserve, hn]
      exact apronReserve_eq_some.2 ⟨apronRoom_iff.2 hroom, rfl⟩
    rw [offerWon_reserved hc hs reserved]
    exact ⟨rfl, rfl, rfl, rfl⟩
  next hroom =>
    have refused : reserve e c (clearChoice y) = none := by
      simp only [reserve, hn]
      exact Option.eq_none_iff_forall_ne_some.2 fun z hz => hroom (apronRoom_iff.1 (apronReserve_eq_some.1 hz).1)
    rw [offerWon_refused hc hs refused]
    exact ⟨rfl, rfl, rfl, rfl⟩

/-- A won WASH offer. -/
theorem offerWon_wash {w : Nat} {l : WashLane} (hs : c.service ≠ .exit) (hn : c.resource = .wash w)
    (hl : y.washLane? w = some l) :
    (offerWon e y).lanes = y.lanes ∧ (offerWon e y).fuel = y.fuel
      ∧ (∀ v, v ≠ w → (offerWon e y).washLane? v = y.washLane? v)
      ∧ if l.queue.length + l.reservs.length < l.cfg.depth then
          (offerWon e y).washLane? w = some { l with reservs := l.reservs ++ [⟨c.ref, c.fleet⟩] }
          ∧ (offerWon e y).seek.offers = y.seek.offers ++ [c.held e]
        else (offerWon e y).wash = y.wash ∧ (offerWon e y).seek.offers = y.seek.offers := by
  have room_iff : l.room = true ↔ l.queue.length + l.reservs.length < l.cfg.depth := by
    rw [WashLane.room, decide_eq_true_iff]
  split
  next hroom =>
    have reserved : reserve e c (clearChoice y) = some
        (onWash w (fun l => { l with reservs := l.reservs ++ [⟨c.ref, c.fleet⟩] }) (clearChoice y)) := by
      simp only [reserve, hn]
      exact washReserve_eq_some.2 ⟨l, hl, room_iff.2 hroom, rfl⟩
    rw [offerWon_reserved hc hs reserved]
    refine ⟨rfl, rfl, fun v hv => ?_, ?_, rfl⟩
    · refine find?_updFirst_other _ _ _ (fun l hl => ?_) _
      simp only [beq_iff_eq] at hl
      simp [hl, Ne.symm hv]
    · exact (find?_updFirst_self (fun l : WashLane => l.cfg.index == w)
        (fun l => { l with reservs := l.reservs ++ [⟨c.ref, c.fleet⟩] }) (fun _ h => h) _).trans
          (congrArg (Option.map _) hl)
  next hroom =>
    have refused : reserve e c (clearChoice y) = none := by
      simp only [reserve, hn]
      refine Option.eq_none_iff_forall_ne_some.2 fun z hz => ?_
      obtain ⟨l', hl', room, _⟩ := washReserve_eq_some.1 hz
      cases hl.symm.trans hl'
      exact hroom (room_iff.1 room)
    rw [offerWon_refused hc hs refused]
    exact ⟨rfl, rfl, fun _ _ => rfl, rfl, rfl⟩

end OfferWon

/-! ## The transmit queue (R35) -/

/-- The transmit queue and the requests that wait for a place in it. -/
def txQueued (q : List TxSlot) (w : List TxReq) (y : Yard) : Yard :=
  { y with line := { y.line with queue := q, waiting := w } }

theorem buildFrame_txQueued (e : Env) (q : List TxSlot) (w : List TxReq) (y : Yard) (r : TxReq) :
    buildFrame e (txQueued q w y) r = buildFrame e y r := buildFrame_line e y _ r

/-- The requests that wait are those handed on, not those noted before. -/
theorem fillTx_txQueued (e : Env) (l : List TxReq) (w : List TxReq) (y : Yard) :
    fillTx e l (txQueued y.line.queue w y) = fillTx e l y := by
  induction l generalizing y w with
  | nil => rfl
  | cons r rs ih =>
    rw [fillTx, fillTx]
    by_cases hq : y.line.queue.length < Config.txCap
    · have room : (txQueued y.line.queue w y).line.queue.length < Config.txCap := hq
      rw [if_pos hq, if_pos room]
      unfold enterTx
      rw [buildFrame_txQueued]
      cases buildFrame e y r with
      | none => exact ih w y
      | some f => exact ih w { y with line.queue := y.line.queue ++ [⟨r, f, 0, false, false⟩] }
    · have full : ¬ (txQueued y.line.queue w y).line.queue.length < Config.txCap := hq
      rw [if_neg hq, if_neg full]
      rfl

theorem send_queues {e : Env} {y : Yard} (hq : y.line.queue.length < 8) (hw : y.line.waiting = []) (r : TxReq) :
    send e r y = match buildFrame e y r with
      | some f => txQueued (y.line.queue ++ [⟨r, f, 0, false, false⟩]) [] y
      | none => y := by
  cases hf : buildFrame e y r with
  | some f => rw [send_line hq hw hf, ← hw]; rfl
  | none =>
    have room : y.line.queue.length < Config.txCap ∧ y.line.waiting = [] := ⟨hq, hw⟩
    simp only [send, if_pos room, enterTx, hf]

theorem send_waits {e : Env} {y : Yard} (h : 8 ≤ y.line.queue.length ∨ y.line.waiting ≠ []) (r : TxReq) :
    send e r y = txQueued y.line.queue (y.line.waiting ++ [r]) y := by
  have room : ¬ (y.line.queue.length < Config.txCap ∧ y.line.waiting = []) := by
    rintro ⟨hq, hw⟩
    exact h.elim (Nat.not_le.2 hq) fun hne => hne hw
  simp only [send, if_neg room]
  rfl

/-- A free place goes to the oldest waiting request. -/
theorem refillTx_cons {e : Env} {y : Yard} {r : TxReq} {rest : List TxReq} (hq : y.line.queue.length < 8)
    (hw : y.line.waiting = r :: rest) : refillTx e y = refillTx e (match buildFrame e y r with
      | some f => txQueued (y.line.queue ++ [⟨r, f, 0, false, false⟩]) rest y
      | none => txQueued y.line.queue rest y) := by
  have room : y.line.queue.length < Config.txCap := hq
  unfold refillTx
  rw [hw, fillTx, if_pos room, enterTx]
  cases hf : buildFrame e y r with
  | some f => exact (fillTx_txQueued e rest rest { y with
      line.queue := y.line.queue ++ [⟨r, f, 0, false, false⟩] }).symm
  | none => exact (fillTx_txQueued e rest rest y).symm

theorem refillTx_idle {e : Env} {y : Yard} (h : 8 ≤ y.line.queue.length ∨ y.line.waiting = []) : refillTx e y = y := by
  unfold refillTx
  cases hw : y.line.waiting with
  | nil => exact congrArg (txQueued y.line.queue · y) hw.symm
  | cons r rest =>
    have full : ¬ y.line.queue.length < Config.txCap := Nat.not_lt.2 (h.resolve_right (by simp [hw]))
    rw [fillTx, if_neg full]
    exact congrArg (txQueued y.line.queue · y) hw.symm

/-- A withdrawn request is marked while its frame is being sent, and leaves otherwise. -/
theorem withdraw_eq (e : Env) (p : TxReq → Bool) (y : Yard) : withdraw e p y = refillTx e (txQueued
    ((y.line.queue.filter fun x => x.sending || !p x.req).map fun x =>
      if p x.req then { x with withdrawn := true } else x)
    (y.line.waiting.filter fun r => !p r) y) := by
  have queue (q : List TxSlot) :
      (q.map fun t => if p t.req && t.sending then { t with withdrawn := true } else t).filter
        (fun t => !(p t.req && !t.sending))
      = (q.filter fun x => x.sending || !p x.req).map fun x => if p x.req then { x with withdrawn := true } else x := by
    induction q with
    | nil => rfl
    | cons x q ih =>
      rw [List.map_cons, List.filter_cons, List.filter_cons, ih]
      cases hp : p x.req <;> cases hx : x.sending <;> simp [hp, hx]
  simp only [withdraw, queue]
  rfl

/-! ## What a frame carries (R52, R59, R69, R79, R103, R174) -/

theorem buildFrame_seek_bus {e : Env} {y : Yard} {n f : Nat} {en : SeekEntry} {sv : Service} {r : Record}
    (h : y.seekEntry? n = some en) (hs : en.subject = .bus f sv) (hr : y.rec? f = some r) :
    buildFrame e y (.seek n) = some ⟨e.layout.own, seekDest sv, ⟨e.layout.own, n⟩,
      .seek (e.layout.seekArea sv) en.excl (.push sv (busSummary r))⟩ := by
  simp only [buildFrame, h, hs, hr, Option.map_some]

theorem buildFrame_seek_duty {e : Env} {y : Yard} {n d : Nat} {en : SeekEntry} {x : Duty}
    (h : y.seekEntry? n = some en) (hs : en.subject = .duty d) (hx : y.duty? d = some x) :
    buildFrame e y (.seek n) = some ⟨e.layout.own, .berthGroup, ⟨e.layout.own, n⟩,
      .seek (e.layout.seekArea .exit) en.excl
        (.pull ⟨x.number, x.release, x.mask, x.fuel, x.minLevel, y.pinnedFleet d⟩)⟩ := by
  simp only [buildFrame, h, hs, hx, Option.map_some]

theorem buildFrame_handover {e : Env} {y : Yard} {n f : Nat} {en : SeekEntry} {sv : Service} {r : Record} {w : Winner}
    (h : y.seekEntry? n = some en) (hs : en.subject = .bus f sv) (hr : y.rec? f = some r) (hw : en.winner = some w) :
    buildFrame e y (.handover n)
      = some ⟨e.layout.own, .station w.station, ⟨e.layout.own, n⟩, .handover r.bus⟩ := by
  simp only [buildFrame, h, hs, hw, hr, Option.map_some]

theorem buildFrame_exitHandover {e : Env} {y : Yard} {ref : SeekRef} {f : Nat} {r : Record} (hr : y.rec? f = some r) :
    buildFrame e y (.exitHandover ref f)
      = some ⟨e.layout.own, .station ref.station, ref, .handover { r.bus with itinerary := [.exit] }⟩ := by
  simp only [buildFrame, hr, Option.map_some]

theorem tablePin_listed {y : Yard} {f : Nat} {p : Pair} {x : Duty} (hp : y.gate.pins.find? (·.fleet == f) = some p)
    (hx : y.duty? p.duty = some x) : y.tablePin f = some ⟨x.number, x.release⟩ := by
  simp only [Yard.tablePin, Yard.pairedDuty, hp, Option.map_some, hx]

theorem tablePin_unlisted {y : Yard} {f : Nat} (hp : y.gate.pins.find? (·.fleet == f) = none) : y.tablePin f = none := by
  simp only [Yard.tablePin, Yard.pairedDuty, hp, Option.map_none]

/-- The seek area of a service stands in the station's item. -/
theorem seekArea_eq (l : Layout) (sv : Service) : l.seekArea sv = match l.station with
    | some c => (match sv with
      | .fuel => c.seekFuel | .wash => c.seekWash | .berth => c.seekBerth | .exit => c.seekExit)
    | none => 0 := by
  unfold Layout.seekArea
  cases l.station <;> rfl

end Sys2Proof.Machine
end

section
/-! The statement on this station's own frames. -/

namespace Sys2Proof.Proofs.Line

open Sys2Proof Sys2Proof.Machine

/-- What a frame that is no OFFER tells its block, at an opening that is no offer opening. -/
theorem ownFrame_reported {s : State} {x : TxSlot} {bits : List Bool} (hw : s.works)
    (hf : s.yard.line.following = true) (hs : s.yard.line.sendingSlot = some x)
    (hr : receiveFrame bits = some x.frame.raw) (hwd : x.withdrawn = false) (ho : x.req.isOffer = false)
    (hn : s.yard.line.offerRef = none) :
    ∃ t, exec (.frameCarried bits) s = .next t
       ∧ t.yard.line.cnt = { s.yard.line.cnt with sent := min 65535 (s.yard.line.cnt.sent + 1) }
       ∧ t.yard.line.txBits = [] ∧ t.yard.line.pool = s.yard.line.pool
       ∧ t.yard.line.nextOffer = x.frame.raw.opensOffers
       ∧ (∀ n en, x.req = .seek n → s.yard.seekEntry? n = some en → en.state = .queued →
           t.yard.seekEntry? n = some { en with state := .opened })
       ∧ (∀ n en, x.req = .handover n → s.yard.seekEntry? n = some en → en.state = .handing .sending →
           t.yard.seekEntry? n = some { en with
             state := .handing .awaiting, attempts := en.attempts + 1, timer := some s.layout.params.answerTime })
       ∧ (∀ ref f o, x.req = .exitHandover ref f → s.yard.exitOffer? ref f = some o → o.state = .sending →
           t.yard.exitOffer? ref f
             = some { o with attempts := o.attempts + 1, timer := some s.layout.params.answerTime })
       ∧ t.yard.lanes = s.yard.lanes ∧ t.yard.fuel = s.yard.fuel ∧ t.yard.points = s.yard.points
       ∧ t = { s with yard := t.yard } := by
  have carried := frameCarried_own (e := s.env) hf hs hr hwd (by simp [hn])
  obtain ⟨line, lanes, fuel, points⟩ := reportCarried_of_not_offer (e := s.env) (y := sentYard s.env s.yard) ho
  obtain ⟨_, offers, lanes', fuel', _, points'⟩ := settle_openingDone s.env x.frame.raw.opensOffers
    (reportCarried s.env x.req (sentYard s.env s.yard))
  obtain ⟨cnt, txBits, pool, next⟩ := settle_openingDone_line s.env x.frame.raw.opensOffers
    (reportCarried s.env x.req (sentYard s.env s.yard))
  have entries {n : Nat} {en : SeekEntry} (h : s.yard.seekEntry? n = some en) :
      (sentYard s.env s.yard).seekEntry? n = some en := by simpa [Yard.seekEntry?] using h
  refine ⟨_, event_works hw rfl carried, cnt.trans (by simp [line]), txBits.trans (by simp [line]),
    pool.trans (by simp [line]), next, fun n en hx hen hst => ?_, fun n en hx hen hst => ?_, fun ref f o hx hof hst => ?_,
    lanes'.trans (by simp [lanes]), fuel'.trans (by simp [fuel]), points'.trans (by simp [points]), rfl⟩
  · exact seekEntry?_settle_openingDone (hx ▸ seekEntry?_carried_seek (entries hen) hst)
  · exact seekEntry?_settle_openingDone (hx ▸ seekEntry?_carried_handover (entries hen) hst)
  · have found : (sentYard s.env s.yard).exitOffer? ref f = some o := by simpa [Yard.exitOffer?] using hof
    have told := exitOffer?_carried (e := s.env) found hst
    exact (congrArg (List.find? (OfferEntry.is false ref f)) (offers.trans (by rw [hx]))).trans told

section Won

variable {s : State} {x : TxSlot} {bits : List Bool} {c : Choice} (hw : s.works) (hf : s.yard.line.following = true)
  (hs : s.yard.line.sendingSlot = some x) (hr : receiveFrame bits = some x.frame.raw) (hwd : x.withdrawn = false)
  (ho : x.req.isOffer = true) (hc : s.yard.seek.choice = some c)
  (hn : ∀ r ∈ s.yard.line.offerRef, r.station ≠ s.layout.own)
include hw hf hs hr hwd ho hn

/-- A won OFFER leaves what offerWon makes, and no pending choice. -/
theorem exec_offerWon : ∃ t, exec (.frameCarried bits) s = .next t ∧ t.yard.seek.choice = none
    ∧ t.yard.seek.offers = (offerWon s.env (sentYard s.env s.yard)).seek.offers
    ∧ t.yard.lanes = (offerWon s.env (sentYard s.env s.yard)).lanes
    ∧ t.yard.fuel = (offerWon s.env (sentYard s.env s.yard)).fuel
    ∧ t.yard.wash = (offerWon s.env (sentYard s.env s.yard)).wash
    ∧ t.yard.points = (offerWon s.env (sentYard s.env s.yard)).points ∧ t = { s with yard := t.yard } := by
  have won : reportCarried s.env x.req (sentYard s.env s.yard) = offerWon s.env (sentYard s.env s.yard) := by
    cases hreq : x.req with
    | offer => rfl
    | _ => simp [hreq, TxReq.isOffer] at ho
  have carried := frameCarried_own (e := s.env) hf hs hr hwd hn
  rw [won] at carried
  obtain ⟨choice, offers, lanes, fuel, wash, points⟩ := settle_openingDone s.env x.frame.raw.opensOffers
    (offerWon s.env (sentYard s.env s.yard))
  exact ⟨_, event_works hw rfl carried, choice, offers, lanes, fuel, wash, points, rfl⟩

include hc

theorem laneOffer_won {n : Nat} {l : Lane} (hres : c.resource = .lane n) (hl : s.yard.lane? n = some l) :
    ∃ t, exec (.frameCarried bits) s = .next t ∧ t.yard.seek.choice = none
         ∧ (∀ m, m ≠ n → t.yard.lane? m = s.yard.lane? m)
         ∧ t.yard.fuel = s.yard.fuel ∧ t.yard.wash = s.yard.wash ∧ t.yard.points = s.yard.points
         ∧ t = { s with yard := t.yard }
         ∧ (c.service ≠ .exit →
             if l.positions.length + l.reservs.length < l.cfg.depth then
               t.yard.lane? n = some { l with
                 reservs := l.reservs.filter (·.fleet != c.fleet)
                   ++ [⟨c.ref, c.fleet, c.release, l.reservs.any fun q => q.committed && q.fleet == c.fleet⟩] }
               ∧ t.yard.seek.offers = s.yard.seek.offers
                 ++ [⟨c.ref, c.service, c.fleet, .lane n, c.cost, .held, some (1000 * s.layout.params.offerHold), 0⟩]
             else t.yard.lane? n = some l ∧ t.yard.seek.offers = s.yard.seek.offers)
         ∧ (∀ rest r, c.service = .exit → l.positions = ⟨c.fleet, .parked⟩ :: rest → s.yard.rec? c.fleet = some r →
             r.state = .parked → r.loc = .lane n →
             t.yard.lane? n = some { l with positions := ⟨c.fleet, .calledOut⟩ :: rest }
             ∧ t.yard.seek.offers = s.yard.seek.offers
                 ++ [⟨c.ref, .exit, c.fleet, .lane n, c.cost, .sending, none, 0⟩]) := by
  obtain ⟨t, run, choice, offers, lanes, fuel, wash, points, kept⟩ := exec_offerWon hw hf hs hr hwd ho hn
  have chosen : (sentYard s.env s.yard).seek.choice = some c := by simpa using hc
  have lane : (sentYard s.env s.yard).lane? n = some l := by simpa [Yard.lane?] using hl
  have same (m : Nat) : t.yard.lane? m = (offerWon s.env (sentYard s.env s.yard)).lane? m := by
    rw [Yard.lane?, Yard.lane?, lanes]
  obtain ⟨fuel', wash', points'⟩ := offerWon_units (e := s.env) chosen hres
  have held : c.held s.env
      = ⟨c.ref, c.service, c.fleet, .lane n, c.cost, .held, some (1000 * s.layout.params.offerHold), 0⟩ := by
    rw [Choice.held, hres]
    rfl
  refine ⟨t, run, choice, fun m hm => ?_, fuel.trans (by simpa using fuel'), wash.trans (by simpa using wash'),
    points.trans (by simpa using points'), kept, fun hsv => ?_, fun rest r hsv hp hrec hst hloc => ?_⟩
  · rw [same, offerWon_lanes_other chosen hres hm]
    simp [Yard.lane?]
  · rw [same, offers, ← held]
    simpa using offerWon_lane (e := s.env) chosen hsv hres lane
  · rw [same, offers]
    simpa using offerWon_calledOut (e := s.env) chosen hsv hres lane hp (by simpa [Yard.rec?] using hrec) hst hloc

theorem pushOffer_won (hsv : c.service ≠ .exit) :
    let entered : List OfferEntry := s.yard.seek.offers
      ++ [⟨c.ref, c.service, c.fleet, c.resource, c.cost, .held, some (1000 * s.layout.params.offerHold), 0⟩]
    ∃ t, exec (.frameCarried bits) s = .next t ∧ t.yard.seek.choice = none ∧ t = { s with yard := t.yard }
         ∧ (∀ f, c.resource = .apron f → t.yard.lanes = s.yard.lanes ∧ t.yard.wash = s.yard.wash
           ∧ (if s.yard.fuel.queue.length + s.yard.fuel.reservs.length < s.layout.islandCfg.capacity then
               t.yard.fuel = { s.yard.fuel with
                 reservs := s.yard.fuel.reservs.filter (·.fleet != c.fleet)
                   ++ [⟨c.ref, c.fleet, f, s.yard.fuel.reservs.any fun q => q.committed && q.fleet == c.fleet⟩] }
               ∧ t.yard.seek.offers = entered
             else t.yard.fuel = s.yard.fuel ∧ t.yard.seek.offers = s.yard.seek.offers))
         ∧ (∀ w l, c.resource = .wash w → s.yard.washLane? w = some l →
           t.yard.lanes = s.yard.lanes ∧ t.yard.fuel = s.yard.fuel
           ∧ (∀ v, v ≠ w → t.yard.washLane? v = s.yard.washLane? v)
           ∧ (if l.queue.length + l.reservs.length < l.cfg.depth then
               t.yard.washLane? w = some { l with reservs := l.reservs ++ [⟨c.ref, c.fleet⟩] }
               ∧ t.yard.seek.offers = entered
             else t.yard.wash = s.yard.wash ∧ t.yard.seek.offers = s.yard.seek.offers)) := by
  intro entered
  obtain ⟨t, run, choice, offers, lanes, fuel, wash, points, kept⟩ := exec_offerWon hw hf hs hr hwd ho hn
  have chosen : (sentYard s.env s.yard).seek.choice = some c := by simpa using hc
  refine ⟨t, run, choice, kept, fun f hres => ?_, fun w l hres hl => ?_⟩
  · rw [lanes, wash, fuel, offers]
    have won := offerWon_apron (e := s.env) chosen hsv hres
    simp only [sentYard_frame] at won
    exact won
  · have lane : (sentYard s.env s.yard).washLane? w = some l := by simpa [Yard.washLane?] using hl
    have same (v : Nat) : t.yard.washLane? v = (offerWon s.env (sentYard s.env s.yard)).washLane? v := by
      rw [Yard.washLane?, Yard.washLane?, wash]
    have before (v : Nat) : (sentYard s.env s.yard).washLane? v = s.yard.washLane? v := by simp [Yard.washLane?]
    have won := offerWon_wash (e := s.env) chosen hsv hres lane
    simp only [sentYard_frame, before] at won
    simp only [same, lanes, fuel, wash, offers]
    exact won

end Won

/-- Settles O33: the frame reported, the offers won, the transmit queue, and what the frames carry. -/
theorem ownFrameCarriedIsReportedAndReserves : Obligations.OwnFrameCarriedIsReportedAndReserves := by
  refine ⟨fun s x bits hw hf hs hr hwd ho hn => ownFrame_reported hw hf hs hr hwd ho hn,
    fun s x bits c n l hw hf hs hr hwd ho hc hn hres hl => laneOffer_won hw hf hs hr hwd ho hc hn hres hl,
    fun s x bits c hw hf hs hr hwd ho hc hsv hn => pushOffer_won hw hf hs hr hwd ho hc hn hsv,
    fun e y => ⟨fun r hq hw => send_queues hq hw r, fun r h => send_waits h r, fun r rest => refillTx_cons,
      refillTx_idle, fun p => withdraw_eq e p y⟩,
    fun e y => ⟨fun n en f sv r hen hs hr => ⟨?_, fun w => buildFrame_handover hen hs hr⟩,
      fun n en d x hen hs hx => ?_, fun ref f r => buildFrame_exitHandover, fun _ _ _ _ _ => rfl,
      fun _ _ _ _ => ⟨rfl, rfl, rfl⟩, fun f p x hp hx => ?_, fun f hp => ?_, fun _ => rfl⟩⟩
  · rw [buildFrame_seek_bus hen hs hr, seekArea_eq]
    cases sv <;> rfl
  · rw [buildFrame_seek_duty hen hs hx, seekArea_eq]
    rfl
  · rw [buildFrame, tablePin_listed hp hx]
  · rw [buildFrame, tablePin_unlisted hp]

end Sys2Proof.Proofs.Line
end

section
/-! SUPPORT. The bounds of the lists and the places of O9, their parts by name: the forms in which the proofs use
State.withinBounds and State.placesKept. -/

namespace Sys2Proof.Machine

/-! ## The bounds, by name -/

/-- What the seek table keeps: its length (R50), distinct numbers (R49), short exclusion lists (R51). -/
structure TableBounded (t : List SeekEntry) : Prop where
  length : t.length ≤ 8
  numbers : (t.map (·.number)).Nodup
  excl : ∀ en ∈ t, en.excl.length ≤ 4

/-- Yard.withinBounds, its parts by name. -/
structure Bounded (y : Yard) : Prop where
  queue : y.line.queue.length ≤ 8
  pool : y.line.pool.length ≤ 4
  table : TableBounded y.seek.table
  offers : y.seek.offers.length + y.seek.choice.toList.length ≤ 8
  lapsed : y.seek.lapsed.length ≤ 8
  taken : y.seek.taken.length ≤ 8
  fifo : y.gate.fifo.length ≤ 8
  duties : y.gate.duties.length ≤ 256
  notices : y.notices.length ≤ 32
  points : ∀ p ∈ y.points, p.queue.length ≤ 8
  lanes : ∀ l ∈ y.lanes, (l.reservs.map (·.fleet)).Nodup
  apron : (y.fuel.reservs.map (·.fleet)).Nodup

theorem withinBounds_iff {y : Yard} : y.withinBounds ↔ Bounded y := by
  constructor
  · rintro ⟨queue, pool, length, offers, lapsed, taken, fifo, duties, notices, numbers, excl, points, lanes, apron⟩
    exact ⟨queue, pool, ⟨length, numbers, excl⟩, offers, lapsed, taken, fifo, duties, notices, points, lanes, apron⟩
  · rintro ⟨queue, pool, ⟨length, numbers, excl⟩, offers, lapsed, taken, fifo, duties, notices, points, lanes, apron⟩
    exact ⟨queue, pool, length, offers, lapsed, taken, fifo, duties, notices, numbers, excl, points, lanes, apron⟩

/-! ## The places, by name -/

/-- What a HELD offer entry stands for: its resource, its seek reference and its fleet. -/
abbrev HeldKey := Resource × SeekRef × Nat

def OfferEntry.key (o : OfferEntry) : HeldKey := (o.resource, o.ref, o.fleet)

/-- The keys of the HELD entries of an offer table. -/
def heldKeys (l : List OfferEntry) : List HeldKey := (l.filter (·.state == .held)).map OfferEntry.key

/-- A fleet is expected at the point of a kind and index. -/
def ExpectedAt (ps : List Point) (k : PointKind) (i f : Nat) : Prop :=
  ∃ p, ps.find? (·.is k i) = some p ∧ ∃ x ∈ p.queue, x.fleet = f

/-- The fleets of all expectations. -/
def expectedFleets (ps : List Point) : List Nat := ps.flatMap fun p => p.queue.map (·.fleet)

/-- A lane lists a HELD reservation of a seek reference and a fleet. -/
def LaneHolds (ls : List Lane) (n : Nat) (ref : SeekRef) (f : Nat) : Prop :=
  ∃ l, ls.find? (·.cfg.number == n) = some l ∧ ∃ q ∈ l.reservs, q.committed = false ∧ q.ref = ref ∧ q.fleet = f

/-- A lane lists a commitment of a fleet. -/
def LaneCommits (ls : List Lane) (n f : Nat) : Prop :=
  ∃ l, ls.find? (·.cfg.number == n) = some l ∧ ∃ q ∈ l.reservs, q.fleet = f ∧ q.committed = true

def ApronHolds (rs : List ApronRes) (fuel : Fuel) (ref : SeekRef) (f : Nat) : Prop :=
  ∃ q ∈ rs, q.committed = false ∧ q.fuel = fuel ∧ q.ref = ref ∧ q.fleet = f

def ApronCommits (rs : List ApronRes) (f : Nat) : Prop := ∃ q ∈ rs, q.fleet = f ∧ q.committed = true

/-- The reservations of a seek reference and a fleet in a wash lane. -/
def washHolds (ls : List WashLane) (w : Nat) (ref : SeekRef) (f : Nat) : Nat :=
  (((ls.find? (·.cfg.index == w)).elim [] (·.reservs)).filter fun q => q.ref == ref && q.fleet == f).length

/-- A lane's positions and reservations stay within its depth (R95). -/
def Lane.fits (l : Lane) : Prop := l.positions.length + l.reservs.length ≤ l.cfg.depth

/-- A wash lane's queue and reservations stay within its queue depth (R142). -/
def WashLane.fits (l : WashLane) : Prop := l.queue.length + l.reservs.length ≤ l.cfg.depth

/-- State.placesKept's clauses on the yard, by name; cap is the apron's capacity. -/
structure Placed (cap : Nat) (y : Yard) : Prop where
  lanes : ∀ l ∈ y.lanes, l.fits
  apron : y.fuel.queue.length + y.fuel.reservs.length ≤ cap
  washes : ∀ l ∈ y.wash.lanes, l.fits
  laneHeld : ∀ n ref f, LaneHolds y.lanes n ref f → (.lane n, ref, f) ∈ heldKeys y.seek.offers
  apronHeld : ∀ fuel ref f, ApronHolds y.fuel.reservs fuel ref f → (.apron fuel, ref, f) ∈ heldKeys y.seek.offers
  washHeld : ∀ w ref f, (heldKeys y.seek.offers).count (.wash w, ref, f) = washHolds y.wash.lanes w ref f
  once : (expectedFleets y.points).Nodup
  laneExpected : ∀ n f, ExpectedAt y.points .laneIn n f → LaneCommits y.lanes n f
  apronExpected : ∀ i f, ExpectedAt y.points .apronIn i f → i = 0 ∧ ApronCommits y.fuel.reservs f

theorem mem_heldKeys {l : List OfferEntry} {k : HeldKey} :
    k ∈ heldKeys l ↔ ∃ o ∈ l.filter (·.state == .held), o.resource = k.1 ∧ o.ref = k.2.1 ∧ o.fleet = k.2.2 := by
  simp only [heldKeys, List.mem_map]
  refine exists_congr fun o => and_congr_right fun _ => ?_
  obtain ⟨r, ref, f⟩ := k
  simp [OfferEntry.key]

theorem count_heldKeys (l : List OfferEntry) (k : HeldKey) :
    (heldKeys l).count k = ((l.filter (·.state == .held)).filter fun o =>
      o.resource == k.1 && o.ref == k.2.1 && o.fleet == k.2.2).length := by
  obtain ⟨r, ref, f⟩ := k
  rw [heldKeys, List.count, List.countP_map, ← List.countP_eq_length_filter]
  congr 1
  funext o
  rw [Bool.eq_iff_iff]
  simp [OfferEntry.key, and_assoc]

theorem placesKept_iff {s : State} : s.placesKept ↔ Placed s.layout.islandCfg.capacity s.yard
    ∧ (s.phase = .config → s.yard.seek.offers = [] ∧ s.yard.fuel.queue = [] ∧ s.yard.fuel.reservs = []) := by
  constructor
  · rintro ⟨lanes, apron, washes, laneHeld, apronHeld, washHeld, once, laneExp, apronExp, config⟩
    refine ⟨⟨lanes, apron, washes, ?_, ?_, fun w ref f => ?_, once, ?_, ?_⟩, config⟩
    · rintro n ref f ⟨l, hl, q, hq, hc, rfl, rfl⟩
      exact mem_heldKeys.2 (laneHeld n l hl q hq hc)
    · rintro fuel ref f ⟨q, hq, hc, rfl, rfl, rfl⟩
      exact mem_heldKeys.2 (apronHeld q hq hc)
    · rw [count_heldKeys, washHeld w ref f, washHolds, Yard.washLane?]
      cases s.yard.wash.lanes.find? (·.cfg.index == w) <;> rfl
    · rintro n f ⟨p, hp, x, hx, rfl⟩
      exact laneExp n p hp x hx
    · rintro i f ⟨p, hp, x, hx, rfl⟩
      exact apronExp i p hp x hx
  · rintro ⟨⟨lanes, apron, washes, laneHeld, apronHeld, washHeld, once, laneExp, apronExp⟩, config⟩
    refine ⟨lanes, apron, washes, fun n l hl q hq hc => ?_, fun q hq hc => ?_, fun w ref f => ?_, once,
      fun n p hp x hx => ?_, fun i p hp x hx => ?_, config⟩
    · exact mem_heldKeys.1 (laneHeld n _ _ ⟨l, hl, q, hq, hc, rfl, rfl⟩)
    · exact mem_heldKeys.1 (apronHeld _ _ _ ⟨q, hq, hc, rfl, rfl, rfl⟩)
    · refine (count_heldKeys _ (.wash w, ref, f)).symm.trans ((washHeld w ref f).trans ?_)
      rw [washHolds, Yard.washLane?]
      cases s.yard.wash.lanes.find? (·.cfg.index == w) <;> rfl
    · exact laneExp n _ ⟨p, hp, x, hx, rfl⟩
    · exact apronExp i _ ⟨p, hp, x, hx, rfl⟩

end Sys2Proof.Machine
end

section
/-! SUPPORT. What keeps the bounds and the places: a yard where no list grows past its bound, no place is taken and nothing
that a place rests on goes (Shrinks), and the relation from yard to yard that every operation meets (Keeps). -/

namespace Sys2Proof.Machine

/-! ## Lists changed item by item -/

/-- A search by what related items share finds related items. -/
theorem find?_forall₂ {α : Type} {R : α → α → Prop} {q : α → Bool} (hq : ∀ a b, R a b → q b = q a) {l l' : List α}
    (h : List.Forall₂ R l l') : Option.Rel R (l.find? q) (l'.find? q) := by
  induction h with
  | nil => exact .none
  | @cons a b l l' hab hl ih =>
    rw [List.find?_cons, List.find?_cons, hq a b hab]
    cases q a with
    | true => exact .some hab
    | false => exact ih

theorem found_of_forall₂ {α : Type} {R : α → α → Prop} {q : α → Bool} (hq : ∀ a b, R a b → q b = q a) {l l' : List α}
    (h : List.Forall₂ R l l') {a : α} (ha : l.find? q = some a) : ∃ b, l'.find? q = some b ∧ R a b := by
  have rel := find?_forall₂ hq h
  rw [ha] at rel
  cases hb : l'.find? q with
  | none => rw [hb] at rel; cases rel
  | some b => rw [hb] at rel; cases rel with | some hab => exact ⟨b, rfl, hab⟩

theorem found_of_forall₂' {α : Type} {R : α → α → Prop} {q : α → Bool} (hq : ∀ a b, R a b → q b = q a) {l l' : List α}
    (h : List.Forall₂ R l l') {b : α} (hb : l'.find? q = some b) : ∃ a, l.find? q = some a ∧ R a b := by
  have rel := find?_forall₂ hq h
  rw [hb] at rel
  cases ha : l.find? q with
  | none => rw [ha] at rel; cases rel
  | some a => rw [ha] at rel; cases rel with | some hab => exact ⟨a, rfl, hab⟩

theorem mem_of_forall₂ {α : Type} {R : α → α → Prop} {l l' : List α} (h : List.Forall₂ R l l') {b : α} (hb : b ∈ l') :
    ∃ a ∈ l, R a b := by
  induction h with
  | nil => cases hb
  | cons hab _ ih =>
    rcases List.mem_cons.1 hb with rfl | hb
    · exact ⟨_, .head _, hab⟩
    · obtain ⟨a, ha, hr⟩ := ih hb
      exact ⟨a, .tail _ ha, hr⟩

/-- The change of the first item found, where it is one the relation allows. -/
theorem updFirst_forall₂ {α : Type} {R : α → α → Prop} (refl : ∀ a, R a a) {p : α → Bool} {f : α → α} {l : List α}
    (h : ∀ a, l.find? p = some a → R a (f a)) : List.Forall₂ R l (updFirst p f l) := by
  induction l with
  | nil => exact .nil
  | cons x xs ih =>
    unfold updFirst
    by_cases hx : p x = true
    · rw [if_pos hx]
      exact .cons (h x (by simp [hx])) (List.forall₂_same.2 fun a _ => refl a)
    · rw [if_neg hx]
      exact .cons (refl x) (ih fun a ha => h a (by simp [hx, ha]))

/-- The first item found is the one that changes. -/
theorem updFirst_found {α : Type} {p : α → Bool} {l : List α} {a : α} (h : l.find? p = some a) (f : α → α) :
    ∃ xs zs, l = xs ++ a :: zs ∧ updFirst p f l = xs ++ f a :: zs := by
  obtain ⟨hp, xs, zs, rfl, before⟩ := List.find?_eq_some_iff_append.1 h
  exact ⟨xs, zs, rfl, updFirst_append f (fun z hz => by simpa using before z hz) hp⟩

/-- What holds of every item holds after the change of the first item found, where the change keeps it. -/
theorem forall_updFirst {α : Type} {P : α → Prop} {p : α → Bool} {f : α → α} {l : List α} (h : ∀ x ∈ l, P x)
    (hf : ∀ a, l.find? p = some a → P a → P (f a)) : ∀ x ∈ updFirst p f l, P x := by
  have related : List.Forall₂ (fun a b => P a → P b) l (updFirst p f l) := updFirst_forall₂ (fun _ => id) hf
  intro x hx
  obtain ⟨a, ha, hax⟩ := mem_of_forall₂ related hx
  exact hax (h a ha)

theorem map_forall₂ {α : Type} {R : α → α → Prop} {f : α → α} (h : ∀ a, R a (f a)) (l : List α) :
    List.Forall₂ R l (l.map f) := by
  rw [List.forall₂_map_right_iff]
  exact List.forall₂_same.2 fun a _ => h a

/-! ## Expectations that only go -/

structure PointsShrink (ps ps' : List Point) : Prop where
  short : (∀ p ∈ ps, p.queue.length ≤ 8) → ∀ p ∈ ps', p.queue.length ≤ 8
  fleets : (expectedFleets ps').Subperm (expectedFleets ps)
  expected : ∀ {k i f}, ExpectedAt ps' k i f → ExpectedAt ps k i f

@[simp] theorem PointsShrink.refl (ps : List Point) : PointsShrink ps ps := ⟨id, .refl _, id⟩

/-- A point keeps its place in the layout, and its queue lists no fleet anew. -/
def Point.Shrinks (a b : Point) : Prop := b.cfg = a.cfg ∧ (b.queue.map (·.fleet)).Subperm (a.queue.map (·.fleet))

theorem Point.Shrinks.refl (a : Point) : a.Shrinks a := ⟨rfl, .refl _⟩

theorem PointsShrink.of_forall₂ {ps ps' : List Point} (h : List.Forall₂ Point.Shrinks ps ps') : PointsShrink ps ps' := by
  refine ⟨fun hs p hp => ?_, ?_, ?_⟩
  · obtain ⟨a, ha, -, hq⟩ := mem_of_forall₂ h hp
    have := hq.length_le
    simp only [List.length_map] at this
    exact this.trans (hs a ha)
  · induction h with
    | nil => exact .refl _
    | cons hab _ ih => exact hab.2.append ih
  · rintro k i f ⟨p, hp, x, hx, rfl⟩
    obtain ⟨a, ha, -, hq⟩ := found_of_forall₂' (fun a b hab => by simp [Point.is, hab.1]) h hp
    obtain ⟨z, hz, hf⟩ := List.mem_map.1 (hq.subset (List.mem_map_of_mem hx))
    exact ⟨a, ha, z, hz, hf⟩

/-! ## Lanes where no place is taken and no commitment goes -/

structure LanesShrink (ls ls' : List Lane) : Prop where
  nodup : (∀ l ∈ ls, (l.reservs.map (·.fleet)).Nodup) → ∀ l ∈ ls', (l.reservs.map (·.fleet)).Nodup
  fits : (∀ l ∈ ls, l.fits) → ∀ l ∈ ls', l.fits
  holds : ∀ {n ref f}, LaneHolds ls' n ref f → LaneHolds ls n ref f
  commits : ∀ {n f}, LaneCommits ls n f → LaneCommits ls' n f

@[simp] theorem LanesShrink.refl (ls : List Lane) : LanesShrink ls ls := ⟨id, id, id, id⟩

/-- A lane keeps its place in the layout, takes no place, holds nothing new and keeps its commitments. -/
structure Lane.Shrinks (a b : Lane) : Prop where
  cfg : b.cfg = a.cfg
  nodup : (a.reservs.map (·.fleet)).Nodup → (b.reservs.map (·.fleet)).Nodup
  fits : a.fits → b.fits
  holds : ∀ q ∈ b.reservs, q.committed = false → ∃ r ∈ a.reservs, r.committed = false ∧ r.ref = q.ref ∧ r.fleet = q.fleet
  commits : ∀ q ∈ a.reservs, q.committed = true → ∃ r ∈ b.reservs, r.fleet = q.fleet ∧ r.committed = true

theorem Lane.Shrinks.refl (a : Lane) : a.Shrinks a :=
  ⟨rfl, id, id, fun q hq hc => ⟨q, hq, hc, rfl, rfl⟩, fun q hq hc => ⟨q, hq, rfl, hc⟩⟩

/-- Fewer positions, the same reservations. -/
theorem Lane.Shrinks.of_reservs {a b : Lane} (cfg : b.cfg = a.cfg) (hp : b.positions.length ≤ a.positions.length)
    (hr : b.reservs = a.reservs) : a.Shrinks b := by
  refine ⟨cfg, by rw [hr]; exact id, ?_, fun q hq hc => ⟨q, hr ▸ hq, hc, rfl, rfl⟩,
    fun q hq hc => ⟨q, hr.symm ▸ hq, rfl, hc⟩⟩
  simp only [Lane.fits, cfg, hr]
  omega

theorem LanesShrink.of_forall₂ {ls ls' : List Lane} (h : List.Forall₂ Lane.Shrinks ls ls') : LanesShrink ls ls' := by
  have number : ∀ n (a b : Lane), a.Shrinks b → (b.cfg.number == n) = (a.cfg.number == n) := fun n a b hab => by
    rw [hab.cfg]
  refine ⟨fun hs l hl => ?_, fun hs l hl => ?_, ?_, ?_⟩
  · obtain ⟨a, ha, hab⟩ := mem_of_forall₂ h hl
    exact hab.nodup (hs a ha)
  · obtain ⟨a, ha, hab⟩ := mem_of_forall₂ h hl
    exact hab.fits (hs a ha)
  · rintro n ref f ⟨l, hl, q, hq, hc, rfl, rfl⟩
    obtain ⟨a, ha, hab⟩ := found_of_forall₂' (number n) h hl
    exact ⟨a, ha, hab.holds q hq hc⟩
  · rintro n f ⟨l, hl, q, hq, rfl, hc⟩
    obtain ⟨b, hb, hab⟩ := found_of_forall₂ (number n) h hl
    exact ⟨b, hb, hab.commits q hq hc⟩

/-! ## The apron -/

structure ApronShrink (q : List ApronEntry) (r : List ApronRes) (q' : List ApronEntry) (r' : List ApronRes) : Prop where
  nodup : (r.map (·.fleet)).Nodup → (r'.map (·.fleet)).Nodup
  fits : q'.length + r'.length ≤ q.length + r.length
  holds : ∀ {fuel ref f}, ApronHolds r' fuel ref f → ApronHolds r fuel ref f
  commits : ∀ {f}, ApronCommits r f → ApronCommits r' f

@[simp] theorem ApronShrink.refl (q : List ApronEntry) (r : List ApronRes) : ApronShrink q r q r :=
  ⟨id, Nat.le_refl _, id, id⟩

theorem ApronShrink.of_length {q q' : List ApronEntry} (h : q'.length ≤ q.length) (r : List ApronRes) :
    ApronShrink q r q' r := ⟨id, by omega, id, id⟩

/-! ## Wash lanes -/

structure WashesShrink (ls ls' : List WashLane) : Prop where
  fits : (∀ l ∈ ls, l.fits) → ∀ l ∈ ls', l.fits
  holds : ∀ w ref f, washHolds ls' w ref f = washHolds ls w ref f

@[simp] theorem WashesShrink.refl (ls : List WashLane) : WashesShrink ls ls := ⟨id, fun _ _ _ => rfl⟩

/-- A wash lane keeps its layout and its reservations, and its queue takes no place. -/
structure WashLane.Shrinks (a b : WashLane) : Prop where
  cfg : b.cfg = a.cfg
  fits : a.fits → b.fits
  reservs : b.reservs = a.reservs

theorem WashLane.Shrinks.refl (a : WashLane) : a.Shrinks a := ⟨rfl, id, rfl⟩

theorem WashLane.Shrinks.of_queue {a b : WashLane} (cfg : b.cfg = a.cfg) (hq : b.queue.length ≤ a.queue.length)
    (hr : b.reservs = a.reservs) : a.Shrinks b := by
  refine ⟨cfg, ?_, hr⟩
  simp only [WashLane.fits, cfg, hr]
  omega

theorem WashesShrink.of_forall₂ {ls ls' : List WashLane} (h : List.Forall₂ WashLane.Shrinks ls ls') :
    WashesShrink ls ls' := by
  refine ⟨fun hs l hl => ?_, fun w ref f => ?_⟩
  · obtain ⟨a, ha, hab⟩ := mem_of_forall₂ h hl
    exact hab.fits (hs a ha)
  · have rel := find?_forall₂ (q := fun l => l.cfg.index == w) (fun a b hab => by rw [hab.cfg]) h
    unfold washHolds
    generalize ls.find? _ = x at rel ⊢
    generalize ls'.find? _ = y at rel ⊢
    cases rel with
    | none => rfl
    | some hab => simp only [Option.elim, hab.reservs]

/-! ## What keeps the bounds and the places -/

/-- No bounded list grows past its bound, no place is taken, and nothing that a place or an expectation rests on goes. -/
structure Shrinks (y z : Yard) : Prop where
  queue : y.line.queue.length ≤ 8 → z.line.queue.length ≤ 8
  pool : y.line.pool.length ≤ 4 → z.line.pool.length ≤ 4
  table : TableBounded y.seek.table → TableBounded z.seek.table
  offers : y.seek.offers.length + y.seek.choice.toList.length ≤ 8 →
    z.seek.offers.length + z.seek.choice.toList.length ≤ 8
  held : heldKeys z.seek.offers = heldKeys y.seek.offers
  lapsed : y.seek.lapsed.length ≤ 8 → z.seek.lapsed.length ≤ 8
  taken : y.seek.taken.length ≤ 8 → z.seek.taken.length ≤ 8
  fifo : y.gate.fifo.length ≤ 8 → z.gate.fifo.length ≤ 8
  duties : y.gate.duties.length ≤ 256 → z.gate.duties.length ≤ 256
  notices : y.notices.length ≤ 32 → z.notices.length ≤ 32
  points : PointsShrink y.points z.points
  lanes : LanesShrink y.lanes z.lanes
  apron : ApronShrink y.fuel.queue y.fuel.reservs z.fuel.queue z.fuel.reservs
  washes : WashesShrink y.wash.lanes z.wash.lanes

theorem Shrinks.refl (y : Yard) : Shrinks y y :=
  ⟨id, id, id, id, rfl, id, id, id, id, id, .refl _, .refl _, .refl _ _, .refl _⟩

/-- The lists that the bounds and the places speak of. -/
def Yard.lists (y : Yard) : List TxSlot × List Frame × List SeekEntry × List OfferEntry × Option Choice ×
    List LapsedItem × List TakenItem × List FifoEntry × List Duty × List Notice × List Point × List Lane ×
    List ApronEntry × List ApronRes × List WashLane :=
  (y.line.queue, y.line.pool, y.seek.table, y.seek.offers, y.seek.choice, y.seek.lapsed, y.seek.taken, y.gate.fifo,
    y.gate.duties, y.notices, y.points, y.lanes, y.fuel.queue, y.fuel.reservs, y.wash.lanes)

theorem Shrinks.of_lists {y z : Yard} (h : z.lists = y.lists) : Shrinks y z := by
  simp only [Yard.lists, Prod.mk.injEq] at h
  obtain ⟨queue, pool, table, offers, choice, lapsed, taken, fifo, duties, notices, points, lanes, apron, reservs,
    washes⟩ := h
  constructor
  all_goals simp [queue, pool, table, offers, choice, lapsed, taken, fifo, duties, notices, points, lanes, apron,
    reservs, washes]

/-- From y to z the bounds are kept, and with them the places. -/
structure Keeps (e : Env) (y z : Yard) : Prop where
  bounded : Bounded y → Bounded z
  placed : Bounded y → Placed e.layout.islandCfg.capacity y → Placed e.layout.islandCfg.capacity z

variable {e : Env} {y z z' : Yard}

theorem Keeps.refl (e : Env) (y : Yard) : Keeps e y y := ⟨id, fun _ h => h⟩

theorem Keeps.trans (h : Keeps e y z) (h' : Keeps e z z') : Keeps e y z' :=
  ⟨fun b => h'.bounded (h.bounded b), fun b p => h'.placed (h.bounded b) (h.placed b p)⟩

theorem Shrinks.bounded (s : Shrinks y z) (b : Bounded y) : Bounded z where
  queue := s.queue b.queue
  pool := s.pool b.pool
  table := s.table b.table
  offers := s.offers b.offers
  lapsed := s.lapsed b.lapsed
  taken := s.taken b.taken
  fifo := s.fifo b.fifo
  duties := s.duties b.duties
  notices := s.notices b.notices
  points := s.points.short b.points
  lanes := s.lanes.nodup b.lanes
  apron := s.apron.nodup b.apron

theorem Shrinks.placed {cap : Nat} (s : Shrinks y z) (p : Placed cap y) : Placed cap z where
  lanes := s.lanes.fits p.lanes
  apron := s.apron.fits.trans p.apron
  washes := s.washes.fits p.washes
  laneHeld n ref f h := s.held ▸ p.laneHeld n ref f (s.lanes.holds h)
  apronHeld fuel ref f h := s.held ▸ p.apronHeld fuel ref f (s.apron.holds h)
  washHeld w ref f := by rw [s.held, s.washes.holds, p.washHeld]
  once := by
    obtain ⟨l, perm, sub⟩ := s.points.fleets
    exact perm.nodup (p.once.sublist sub)
  laneExpected n f h := s.lanes.commits (p.laneExpected n f (s.points.expected h))
  apronExpected i f h := (p.apronExpected i f (s.points.expected h)).imp id s.apron.commits

theorem Keeps.of_shrinks (s : Shrinks y z) : Keeps e y z := ⟨s.bounded, fun _ => s.placed⟩

theorem Keeps.shrinks (h : Keeps e y z) (s : Shrinks z z') : Keeps e y z' := h.trans (.of_shrinks s)

/-- What leaves those lists keeps the bounds and the places. -/
theorem Keeps.same (h : Keeps e y z) (lists : z'.lists = z.lists) : Keeps e y z' := h.shrinks (.of_lists lists)

end Sys2Proof.Machine
end

section
/-! SUPPORT. The rules of Keeps for records, notices, signs, the transmit queue, expectations that go, and lanes where no place
is taken. -/

namespace Sys2Proof.Machine

variable {e : Env} {y z z' : Yard}

/-! ## Records, notices, signs, flags and counters -/

theorem keeps_notify (k : NoticeKind) (f : Option Nat) (r : Option NoticeRes) (d : List Nat) (h : Keeps e y z) :
    Keeps e y (notify e k f r d z) := by
  unfold notify
  split
  · rename_i room
    refine h.shrinks { Shrinks.refl _ with notices := fun _ => ?_ }
    rw [List.length_append]
    exact room
  · exact h.same rfl

theorem keeps_onRec (f : Nat) (g : Record → Record) (h : Keeps e y z) : Keeps e y (onRec f g z) := h.same rfl

theorem keeps_placeRec (f : Nat) (st : RecState) (loc : Loc) (h : Keeps e y z) : Keeps e y (placeRec f st loc z) :=
  h.same rfl

theorem keeps_addRec (r : Record) (h : Keeps e y z) : Keeps e y (addRec r z) := h.same rfl

theorem keeps_enterSeeking (f : Nat) (h : Keeps e y z) : Keeps e y (enterSeeking f z) := h.same rfl

theorem keeps_nextStep (f : Nat) (h : Keeps e y z) : Keeps e y (nextStep f z) := h.same rfl

theorem keeps_removeRec (f : Nat) (h : Keeps e y z) : Keeps e y (removeRec f z) :=
  h.shrinks { Shrinks.refl _ with taken := (List.length_filter_le _ _).trans }

theorem keeps_loseRec (f : Nat) (st : RecState) (h : Keeps e y z) : Keeps e y (loseRec f st z) := h.same rfl

theorem keeps_setSign (n v : Nat) (h : Keeps e y z) : Keeps e y (setSign e n v z) :=
  h.same (by simp [Yard.lists])

theorem keeps_setFlag (fl : LineFlag) (h : Keeps e y z) : Keeps e y (setFlag e fl z) := by
  unfold setFlag
  split
  · exact h
  · exact keeps_notify _ _ _ _ (h.same rfl)

/-! ## The transmit queue (R35) -/

theorem keeps_enterTx (r : TxReq) (room : z.line.queue.length < Config.txCap) (h : Keeps e y z) :
    Keeps e y (enterTx e r z) := by
  unfold enterTx
  split
  · refine h.shrinks { Shrinks.refl _ with queue := fun _ => ?_ }
    rw [List.length_append]
    exact room
  · exact h

theorem keeps_fillTx (l : List TxReq) (h : Keeps e y z) : Keeps e y (fillTx e l z) := by
  induction l generalizing z with
  | nil =>
    unfold fillTx
    exact h.same rfl
  | cons r rs ih =>
    unfold fillTx
    split
    · exact ih (keeps_enterTx r ‹_› h)
    · exact h.same rfl

theorem keeps_refillTx (h : Keeps e y z) : Keeps e y (refillTx e z) := keeps_fillTx _ h

theorem keeps_send (r : TxReq) (h : Keeps e y z) : Keeps e y (send e r z) := by
  unfold send
  split
  · rename_i room
    exact keeps_enterTx r room.1 h
  · exact h.same rfl

theorem keeps_withdraw (p : TxReq → Bool) (h : Keeps e y z) : Keeps e y (withdraw e p z) :=
  keeps_refillTx (h.shrinks { Shrinks.refl _ with queue := ((List.length_filter_le _ _).trans (List.length_map _).le).trans })

/-! ## Expectations that go or stay (R195, R196) -/

theorem onQueue_points (e : Env) (k : PointKind) (i : Nat) (f : List Expect → List Expect) (y : Yard) :
    (onQueue e k i f y).points = updFirst (·.is k i) (fun p => { p with queue := f p.queue }) y.points := by
  simp [onQueue]

/-- A change of a queue that lists no fleet anew. -/
theorem keeps_onQueue {k : PointKind} {i : Nat} {f : List Expect → List Expect}
    (hf : ∀ q, ((f q).map (·.fleet)).Subperm (q.map (·.fleet))) (h : Keeps e y z) : Keeps e y (onQueue e k i f z) := by
  refine h.shrinks ?_
  constructor
  case points =>
    rw [onQueue_points]
    exact .of_forall₂ (updFirst_forall₂ Point.Shrinks.refl fun p _ => ⟨rfl, hf p.queue⟩)
  all_goals simp

theorem keeps_removeExpect (k : PointKind) (i f : Nat) (h : Keeps e y z) : Keeps e y (removeExpect e k i f z) :=
  keeps_onQueue (fun _ => (List.filter_sublist.map _).subperm) h

theorem keeps_tailExpect (k : PointKind) (i f : Nat) (h : Keeps e y z) : Keeps e y (tailExpect e k i f z) := by
  refine keeps_onQueue (fun q => ?_) h
  have perm : (q.filter (·.fleet != f) ++ q.filter (·.fleet == f)).Perm q :=
    List.perm_append_comm.trans (List.filter_append_perm (·.fleet == f) q)
  exact (perm.map _).subperm

/-- A change of the points that touches neither their places in the layout nor their queues. -/
theorem PointsShrink.of_map {g : Point → Point} (hc : ∀ p, (g p).cfg = p.cfg) (hq : ∀ p, (g p).queue = p.queue)
    (ps : List Point) : PointsShrink ps (ps.map g) :=
  .of_forall₂ (map_forall₂ (fun p => ⟨hc p, by rw [hq p]⟩) ps)

/-! ## Lanes: what takes no place (R94, R96, R98, R108) -/

theorem keeps_onLane {n : Nat} {f : Lane → Lane} (hf : ∀ l, z.lane? n = some l → l.Shrinks (f l)) (h : Keeps e y z) :
    Keeps e y (onLane n f z) :=
  h.shrinks { Shrinks.refl _ with lanes := .of_forall₂ (updFirst_forall₂ Lane.Shrinks.refl hf) }

theorem keeps_laneLight (n : Nat) (h : Keeps e y z) : Keeps e y (laneLight e n z) := by
  unfold laneLight
  split
  · exact keeps_setSign _ _ h
  · exact h

theorem keeps_onPositions {n : Nat} {f : List Position → List Position} (hf : ∀ q, (f q).length ≤ q.length)
    (h : Keeps e y z) : Keeps e y (onPositions e n f z) :=
  keeps_laneLight n (keeps_onLane (fun l _ => .of_reservs rfl (hf l.positions) rfl) h)

theorem keeps_setPosition (n f : Nat) (st : PosState) (h : Keeps e y z) : Keeps e y (setPosition e n f st z) :=
  keeps_onPositions (fun _ => (updFirst_length _ _ _).le) h

theorem keeps_leavePosition (n f : Nat) (h : Keeps e y z) : Keeps e y (leavePosition e n f z) := keeps_setPosition _ _ _ h

theorem keeps_laneDwell (n : Nat) (h : Keeps e y z) : Keeps e y (laneDwell e n z) := by
  unfold laneDwell
  (repeat' split)
  · exact h
  · exact keeps_notify _ _ _ _ (keeps_onLane (fun _ _ => .of_reservs rfl (Nat.le_refl _) rfl) h)
  · exact h

theorem keeps_laneEntryClear (n : Nat) (h : Keeps e y z) : Keeps e y (laneEntryClear n z) :=
  keeps_onLane (fun _ _ => .of_reservs rfl (Nat.le_refl _) rfl) h

/-- The releases that a list of reservations stores go or change, nothing else. -/
theorem Lane.Shrinks.of_map {a b : Lane} {g : LaneRes → LaneRes} (hg : ∀ q, (g q).ref = q.ref ∧ (g q).fleet = q.fleet
    ∧ (g q).committed = q.committed) (cfg : b.cfg = a.cfg) (hp : b.positions.length = a.positions.length)
    (hr : b.reservs = a.reservs.map g) : a.Shrinks b where
  cfg := cfg
  nodup := by
    rw [hr, List.map_map]
    exact fun h => (List.map_congr_left fun q _ => (hg q).2.1) ▸ h
  fits := by simp only [Lane.fits, cfg, hp, hr, List.length_map, imp_self]
  holds := by
    rw [hr]
    intro q hq hc
    obtain ⟨r, hr, rfl⟩ := List.mem_map.1 hq
    obtain ⟨ref, fleet, committed⟩ := hg r
    exact ⟨r, hr, committed ▸ hc, ref.symm, fleet.symm⟩
  commits := by
    rw [hr]
    intro q hq hc
    obtain ⟨ref, fleet, committed⟩ := hg q
    exact ⟨g q, List.mem_map_of_mem hq, fleet, committed ▸ hc⟩

theorem keeps_laneRepin (n f : Nat) (r : Option Nat) (h : Keeps e y z) : Keeps e y (laneRepin n f r z) :=
  keeps_onLane (fun _ _ => .of_map (fun q => by split <;> exact ⟨rfl, rfl, rfl⟩) rfl rfl rfl) h

theorem keeps_lanesDayTurn (h : Keeps e y z) : Keeps e y (lanesDayTurn z) :=
  h.shrinks { Shrinks.refl _ with lanes := .of_forall₂ (map_forall₂
    (fun l => .of_map (g := fun r => { r with release := none }) (fun _ => ⟨rfl, rfl, rfl⟩) rfl (by simp) rfl) _) }

end Sys2Proof.Machine
end

section
/-! SUPPORT. The rules of Keeps for the seek table (R49 to R52) and for the offer table where no HELD entry comes or goes. -/

namespace Sys2Proof.Machine

variable {e : Env} {y z z' : Yard}

/-! ## The seek table (R49 to R52) -/

theorem addExcl_length_le {l : List Nat} (h : l.length ≤ 4) (st : Nat) : (addExcl st l).length ≤ 4 := by
  unfold addExcl
  split
  · exact h
  · exact pushOldest_length_le (by decide) st l h

theorem TableBounded.updFirst {t : List SeekEntry} (h : TableBounded t) {p : SeekEntry → Bool} {g : SeekEntry → SeekEntry}
    (hn : ∀ x, (g x).number = x.number) (hx : ∀ x, x.excl.length ≤ 4 → (g x).excl.length ≤ 4) :
    TableBounded (updFirst p g t) where
  length := by simpa using h.length
  numbers := by rw [updFirst_map p g _ hn]; exact h.numbers
  excl en hen := by
    rcases mem_updFirst hen with hen | ⟨x, hmem, -, rfl⟩
    · exact h.excl en hen
    · exact hx x (h.excl x hmem)

theorem TableBounded.sublist {t t' : List SeekEntry} (h : TableBounded t) (hs : t'.Sublist t) : TableBounded t' :=
  ⟨hs.length_le.trans h.length, h.numbers.sublist (hs.map _), fun en hen => h.excl en (hs.subset hen)⟩

/-- An entry takes a number that no entry holds. -/
theorem TableBounded.renumber {t : List SeekEntry} (h : TableBounded t) {p : SeekEntry → Bool}
    {g : SeekEntry → SeekEntry} {k : Nat} (hk : ∀ x ∈ t, x.number ≠ k) (hn : ∀ x, (g x).number = k)
    (hx : ∀ x, (g x).excl = x.excl) : TableBounded (Machine.updFirst p g t) where
  length := by simpa using h.length
  numbers := by
    have nodup := h.numbers
    clear h
    induction t with
    | nil => exact nodup
    | cons x xs ih =>
      have others : ∀ z ∈ xs, z.number ≠ k := fun z hz => hk z (.tail _ hz)
      obtain ⟨fresh, rest⟩ := List.nodup_cons.1 nodup
      unfold Machine.updFirst
      split
      · rw [List.map_cons, hn, List.nodup_cons]
        exact ⟨by simpa using others, rest⟩
      · rw [List.map_cons, List.nodup_cons]
        refine ⟨fun hmem => ?_, ih others rest⟩
        obtain ⟨z, hz, same⟩ := List.mem_map.1 hmem
        rcases mem_updFirst hz with hz | ⟨u, -, -, rfl⟩
        · exact fresh (List.mem_map.2 ⟨z, hz, same⟩)
        · exact hk x (.head _) (same.symm.trans (hn u))
  excl en hen := by
    rcases mem_updFirst hen with hen | ⟨x, hmem, -, rfl⟩
    · exact h.excl en hen
    · exact hx x ▸ h.excl x hmem

theorem nextNumber_free {t : SeekEngine} (h : TableBounded t.table) : ∀ x ∈ t.table, x.number ≠ t.nextNumber :=
  (firstFree_free (h.length.trans (by decide)) t.counter).2

theorem keeps_onSeek {n : Nat} {g : SeekEntry → SeekEntry} (hn : ∀ x, (g x).number = x.number)
    (hx : ∀ x, x.excl.length ≤ 4 → (g x).excl.length ≤ 4) (h : Keeps e y z) : Keeps e y (onSeek n g z) :=
  h.shrinks { Shrinks.refl _ with table := fun t => t.updFirst hn hx }

theorem keeps_removeSeek (n : Nat) (h : Keeps e y z) : Keeps e y (removeSeek n z) :=
  h.shrinks { Shrinks.refl _ with table := fun t => t.sublist (dropFirst_sublist _ _) }

theorem keeps_newRound (n : Nat) (h : Keeps e y z) : Keeps e y (newRound e n z) := by
  unfold newRound
  split
  · exact h
  · have renumbered := h.shrinks (z' := onSeek n (fun x =>
        { x with number := z.seek.nextNumber, state := .queued, timer := none }) z)
      { Shrinks.refl _ with table := fun t => t.renumber (nextNumber_free t) (fun _ => rfl) (fun _ => rfl) }
    exact keeps_send _ (renumbered.same (by simp [Yard.lists]))

theorem keeps_callGiven (d : Nat) (h : Keeps e y z) : Keeps e y (callGiven d z) :=
  h.shrinks { Shrinks.refl _ with duties := by simp [callGiven] }

theorem keeps_noteCall (w : Subject) (h : Keeps e y z) : Keeps e y (noteCall w z) := by
  cases w with
  | bus f sv => exact h
  | duty d => exact keeps_callGiven d h

theorem TableBounded.concat {g : SeekEngine} (h : TableBounded g.table) (room : g.table.length < Config.seekCap)
    (s : Subject) : TableBounded (g.table ++ [{ number := g.nextNumber, subject := s }]) where
  length := by
    rw [List.length_append]
    exact room
  numbers := by
    rw [List.map_append, List.nodup_append]
    refine ⟨h.numbers, by simp, fun a ha b hb => ?_⟩
    obtain ⟨x, hx, rfl⟩ := List.mem_map.1 ha
    simp only [List.map_cons, List.map_nil, List.mem_singleton] at hb
    exact hb ▸ nextNumber_free h x hx
  excl en hen := by
    rcases List.mem_append.1 hen with hen | hen
    · exact h.excl en hen
    · simp only [List.mem_singleton] at hen
      simp [hen]

theorem keeps_giveEntry (h : Keeps e y z) : Keeps e y (giveEntry e z) := by
  by_cases idle : z.nothingToGive
  · rwa [giveEntry_idle idle]
  · rw [Yard.nothingToGive, not_or, Nat.not_le] at idle
    obtain ⟨room, waits⟩ := idle
    obtain ⟨w, hw⟩ := Option.ne_none_iff_exists'.1 waits
    rw [giveEntry_gives room hw]
    have entered := h.shrinks (z' := { z with seek := { z.seek with
      table := z.seek.table ++ [{ number := z.seek.nextNumber, subject := w }] } })
      { Shrinks.refl _ with table := fun t => t.concat room w }
    exact keeps_send _ ((keeps_noteCall w entered).same (by simp [Yard.lists]))

theorem keeps_giveEntries (h : Keeps e y z) : Keeps e y (giveEntries e z) := by
  have times : ∀ n z, Keeps e y z → Keeps e y (giveTimes e n z) := by
    intro n
    induction n with
    | zero => exact fun _ h => h
    | succ n ih => exact fun _ h => ih _ (keeps_giveEntry h)
  unfold giveEntries
  split
  · exact times _ _ h
  · exact h

theorem keeps_cancelSeek (n : Nat) (h : Keeps e y z) : Keeps e y (cancelSeek e n z) := by
  have removed := keeps_removeSeek n h
  unfold cancelSeek
  (repeat' split)
  · exact h
  · exact keeps_withdraw _ removed
  · exact keeps_send _ (keeps_withdraw _ removed)
  · exact keeps_send _ removed
  · exact removed
  · exact removed

theorem keeps_cancelBusSeek (f : Nat) (h : Keeps e y z) : Keeps e y (cancelBusSeek e f z) := by
  unfold cancelBusSeek
  split
  · exact keeps_cancelSeek _ h
  · exact h

theorem keeps_excludeAndRetry (n st : Nat) (h : Keeps e y z) : Keeps e y (excludeAndRetry e n st z) :=
  keeps_newRound _ (keeps_onSeek (fun _ => rfl) (fun _ hx => addExcl_length_le hx st) h)

theorem keeps_handoverFailed (n : Nat) (h : Keeps e y z) : Keeps e y (handoverFailed e n z) := by
  unfold handoverFailed
  (repeat' split)
  · exact keeps_excludeAndRetry _ _ (keeps_enterSeeking _ (keeps_notify _ _ _ _ h))
  · exact h
  · exact h

/-! ## The offer table where no HELD entry comes or goes (R56, R69) -/

theorem heldKeys_updFirst {p : OfferEntry → Bool} {g : OfferEntry → OfferEntry} (hk : ∀ x, (g x).key = x.key)
    (hs : ∀ x, p x = true → ((g x).state = .held ↔ x.state = .held)) (l : List OfferEntry) :
    heldKeys (updFirst p g l) = heldKeys l := by
  induction l with
  | nil => rfl
  | cons x xs ih =>
    unfold heldKeys at ih ⊢
    unfold updFirst
    by_cases hp : p x = true
    · by_cases hx : x.state = .held
      · simp [hp, hx, (hs x hp).2 hx, hk]
      · simp [hp, hx, mt (hs x hp).1 hx]
    · by_cases hx : x.state = .held <;> simp [hp, hx, ih]

theorem heldKeys_dropFirst {p : OfferEntry → Bool} (hs : ∀ x, p x = true → x.state ≠ .held) (l : List OfferEntry) :
    heldKeys (dropFirst p l) = heldKeys l := by
  induction l with
  | nil => rfl
  | cons x xs ih =>
    unfold heldKeys at ih ⊢
    unfold dropFirst
    by_cases hp : p x = true
    · simp [hp, hs x hp]
    · by_cases hx : x.state = .held <;> simp [hp, hx, ih]

theorem offerIs_iff {held : Bool} {ref : SeekRef} {f : Nat} {o : OfferEntry} :
    o.is held ref f = true ↔ o.ref = ref ∧ o.fleet = f ∧ (o.state = .held ↔ held = true) := by
  cases held <;> simp [OfferEntry.is, and_assoc]

theorem keeps_onOffer {held : Bool} {ref : SeekRef} {f : Nat} {g : OfferEntry → OfferEntry} (hk : ∀ x, (g x).key = x.key)
    (hs : ∀ x, (g x).state = .held ↔ x.state = .held) (h : Keeps e y z) : Keeps e y (onOffer held ref f g z) :=
  h.shrinks { Shrinks.refl _ with offers := by simp [onOffer], held := heldKeys_updFirst hk (fun x _ => hs x) _ }

/-- A call-out's entry moves among its own two states. -/
theorem keeps_onOffer_exit {ref : SeekRef} {f : Nat} {g : OfferEntry → OfferEntry} (hk : ∀ x, (g x).key = x.key)
    (hs : ∀ x, (g x).state ≠ .held) (h : Keeps e y z) : Keeps e y (onOffer false ref f g z) := by
  refine h.shrinks { Shrinks.refl _ with offers := by simp [onOffer], held := heldKeys_updFirst hk (fun x hx => ?_) _ }
  obtain ⟨-, -, other⟩ := offerIs_iff.1 hx
  simp [hs x, other]

theorem keeps_removeOffer_exit (ref : SeekRef) (f : Nat) (h : Keeps e y z) : Keeps e y (removeOffer false ref f z) :=
  h.shrinks { Shrinks.refl _ with
    offers := (Nat.add_le_add_right (dropFirst_length_le _ _) _).trans
    held := heldKeys_dropFirst (fun x hx => by simp [(offerIs_iff.1 hx).2.2]) _ }

theorem keeps_endCallOut (o : OfferEntry) (h : Keeps e y z) : Keeps e y (endCallOut e o z) := by
  have removed := keeps_removeOffer_exit o.ref o.fleet (keeps_withdraw (· == .exitHandover o.ref o.fleet) h)
  unfold endCallOut
  split
  · exact keeps_setPosition _ _ _ removed
  · exact removed

theorem keeps_dropExitOffer (f : Nat) (h : Keeps e y z) : Keeps e y (dropExitOffer e f z) := by
  unfold dropExitOffer
  split
  · exact keeps_removeOffer_exit _ _ (keeps_withdraw _ h)
  · exact h

/-- The pending choice is forgotten. -/
theorem Shrinks.of_choice_none (z : Yard) : Shrinks z { z with seek := { z.seek with choice := none } } :=
  { Shrinks.refl _ with offers := (Nat.add_le_add_left (Nat.zero_le _) _).trans }

theorem keeps_dropPendingExit (f : Nat) (h : Keeps e y z) : Keeps e y (dropPendingExit e f z) := by
  unfold dropPendingExit
  (repeat' split)
  · exact keeps_withdraw _ (h.shrinks (.of_choice_none z))
  · exact h
  · exact h

end Sys2Proof.Machine
end

section
/-! SUPPORT. The rules of Keeps for duties, pins and changes of minute, for a round with no offer, and for the arrival FIFO. -/

namespace Sys2Proof.Machine

variable {e : Env} {y z z' : Yard}

/-- Keeping passes along a fold. -/
theorem keeps_foldl {α : Type} {g : Yard → α → Yard} (hg : ∀ x z, Keeps e y z → Keeps e y (g z x)) (l : List α)
    (h : Keeps e y z) : Keeps e y (l.foldl g z) := by
  induction l generalizing z with
  | nil => exact h
  | cons x xs ih => exact ih (hg x z h)

/-! ## Duties and pins (R173 to R183) -/

theorem keeps_onDuty (n : Nat) (f : Duty → Duty) (h : Keeps e y z) : Keeps e y (onDuty n f z) :=
  h.shrinks { Shrinks.refl _ with duties := by simp [onDuty] }

theorem keeps_removeDuty (n : Nat) (h : Keeps e y z) : Keeps e y (removeDuty n z) :=
  h.shrinks { Shrinks.refl _ with duties := (dropFirst_length_le _ _).trans }

theorem keeps_unpair (d : Nat) (h : Keeps e y z) : Keeps e y (unpair d z) := h.same rfl

theorem keeps_pair (d f : Nat) (h : Keeps e y z) : Keeps e y (pair d f z) := h.same rfl

theorem keeps_pinRec (f : Nat) (d : Duty) (h : Keeps e y z) : Keeps e y (pinRec f d z) := h.same rfl

theorem keeps_sendRepin (f : Nat) (h : Keeps e y z) : Keeps e y (sendRepin e f z) := keeps_send _ h

theorem keeps_unpinFleet (f : Nat) (h : Keeps e y z) : Keeps e y (unpinFleet e f z) := keeps_sendRepin _ (keeps_onRec _ _ h)

theorem keeps_uncoverDuty (d : Nat) (h : Keeps e y z) : Keeps e y (uncoverDuty e d z) := by
  have told : ∀ {x}, Keeps e y x → Keeps e y (unpair d (notify e .dutyUncovered (z.pinnedFleet d) none [d] x)) :=
    fun hx => keeps_unpair _ (keeps_notify _ _ _ _ hx)
  unfold uncoverDuty
  refine keeps_removeDuty _ ?_
  cases z.dutySeek? d <;> cases hp : z.pinnedFleet d
  all_goals simp only [hp] at told ⊢
  · exact told h
  · exact keeps_unpinFleet _ (told h)
  · exact told (keeps_removeSeek _ h)
  · exact keeps_unpinFleet _ (told (keeps_removeSeek _ h))

theorem keeps_enterCalling (d : Duty) (h : Keeps e y z) : Keeps e y (enterCalling e d z) := by
  have called := keeps_onDuty d.number (fun x => { x with state := .calling true (graceOverNow e d.release) }) h
  unfold enterCalling
  dsimp only
  split
  · exact keeps_uncoverDuty _ called
  · exact called

theorem keeps_callIfDue (n : Nat) (h : Keeps e y z) : Keeps e y (callIfDue e n z) := by
  unfold callIfDue
  (repeat' split)
  · exact keeps_enterCalling _ h
  · exact h
  · exact keeps_enterCalling _ h
  · exact h
  · exact h
  · exact h

theorem keeps_recallFor (f : Nat) (h : Keeps e y z) : Keeps e y (recallFor e f z) := by
  unfold recallFor
  split
  · exact keeps_enterCalling _ h
  · exact h

theorem keeps_dutyMinute (a b n : Nat) (h : Keeps e y z) : Keeps e y (dutyMinute e a b n z) := by
  have uncovers : ∀ (g : Duty → Duty) (c : Bool),
      Keeps e y (if c = true then uncoverDuty e n (onDuty n g z) else onDuty n g z) := by
    intro g c
    split
    · exact keeps_uncoverDuty _ (keeps_onDuty _ _ h)
    · exact keeps_onDuty _ _ h
  have calls : ∀ (d : Duty) (c : Bool), Keeps e y (if c = true then enterCalling e d z else z) := by
    intro d c
    split
    · exact keeps_enterCalling _ h
    · exact h
  unfold dutyMinute
  cases z.duty? n with
  | none => exact h
  | some d =>
    dsimp only
    cases d.state with
    | outbound f => exact h
    | calling pending late =>
      dsimp only
      split
      · exact uncovers _ _
      · exact h
    | unpinned => exact calls _ _
    | pinned => exact calls _ _

theorem keeps_cancelDutySeek (d : Duty) (h : Keeps e y z) : Keeps e y (cancelDutySeek e z d) := by
  unfold cancelDutySeek
  split
  · exact keeps_cancelSeek _ h
  · exact h

theorem keeps_gateDayTurn (h : Keeps e y z) : Keeps e y (gateDayTurn e z) := by
  have expired : Keeps e y (z.gate.duties.foldl (expireDuty e) z) :=
    keeps_foldl (fun d _ hx => keeps_notify _ _ _ _ (keeps_removeDuty d.number hx)) _ h
  have cancelled := keeps_foldl (g := cancelDutySeek e) (fun d _ hx => keeps_cancelDutySeek d hx) z.gate.duties expired
  unfold gateDayTurn
  exact keeps_withdraw _ (cancelled.same rfl)

theorem keeps_dayTurn (h : Keeps e y z) : Keeps e y (dayTurn e z) := by
  have turned : Keeps e y (lanesDayTurn { z with records := z.records.map (Record.setPin none) }) :=
    keeps_lanesDayTurn (h.same rfl)
  unfold dayTurn
  split
  · exact keeps_gateDayTurn turned
  · exact turned

theorem keeps_minuteChange (a b : Nat) (h : Keeps e y z) : Keeps e y (minuteChange e a b z) := by
  have duties : ∀ {x}, Keeps e y x → Keeps e y (if e.running then dutiesMinute e a b x else x) := by
    intro x hx
    split
    · exact keeps_foldl (fun n _ hx => keeps_dutyMinute a b n hx) _ hx
    · exact hx
  unfold minuteChange
  refine duties ?_
  split
  · exact keeps_dayTurn h
  · exact h

/-! ## A round with no offer (R54, R154, R176) -/

theorem keeps_endFaultReseek (n f : Nat) (h : Keeps e y z) : Keeps e y (endFaultReseek e n f z) := by
  unfold endFaultReseek
  exact keeps_notify _ _ _ _ ((keeps_removeSeek n h).same rfl)

theorem keeps_notifyNoOffer (s : Subject) (h : Keeps e y z) : Keeps e y (notifyNoOffer e s z) := by
  cases s <;> exact keeps_notify _ _ _ _ h

theorem keeps_noOffer (n : Nat) (h : Keeps e y z) : Keeps e y (noOffer e n z) := by
  unfold noOffer
  cases hn : z.seekEntry? n with
  | none => exact h
  | some en =>
    have waits := keeps_setFlag .noTaker (keeps_onSeek (n := n) (g := fun x =>
      { x with state := .waitRetry, timer := some (1000 * e.layout.params.retry), reported := true })
      (fun _ => rfl) (fun _ hx => hx) h)
    have tell : ∀ {x}, Keeps e y x → Keeps e y (if en.reported = true then x else notifyNoOffer e en.subject x) := by
      intro x hx
      split
      · exact hx
      · exact keeps_notifyNoOffer _ hx
    have told := tell waits
    dsimp only
    generalize (if en.reported = true then _ else notifyNoOffer e en.subject _) = x at told ⊢
    split
    · split
      · exact keeps_endFaultReseek _ _ told
      · exact told
    · exact told
    · split
      · split
        · exact keeps_uncoverDuty _ told
        · exact told
      · exact told

/-! ## From the arrival FIFO to a record, and the end of an event (R11, R50, R164 to R169) -/

theorem keeps_pinAttempt (f : Nat) (h : Keeps e y z) : Keeps e y (pinAttempt f z) := by
  unfold pinAttempt
  (repeat' split)
  · exact keeps_onRec _ _ h
  · exact h
  · exact keeps_pinRec _ _ (keeps_pair _ _ (keeps_onDuty _ _ h))
  · exact h

theorem keeps_resolvePins (n b : Nat) (h : Keeps e y z) : Keeps e y (resolvePins e n b z) := by
  have unpaired := keeps_unpair n h
  unfold resolvePins
  dsimp only
  (repeat' split)
  · exact unpaired
  · exact keeps_callIfDue _ (keeps_sendRepin _ (keeps_pinRec _ _ (keeps_pair _ _ (keeps_unpair _ unpaired))))
  · exact keeps_callIfDue _ (keeps_sendRepin _ (keeps_pair _ _ (keeps_unpair _ unpaired)))
  · exact keeps_callIfDue _ (keeps_onDuty _ _ (keeps_unpair _ unpaired))
  · exact keeps_unpinFleet _ unpaired
  · exact unpaired

/-- The head leaves the arrival FIFO. -/
theorem Shrinks.of_fifo_tail {z : Yard} {x : FifoEntry} {rest : List FifoEntry} (hf : z.gate.fifo = x :: rest) :
    Shrinks z { z with gate := { z.gate with fifo := rest } } :=
  { Shrinks.refl _ with fifo := by rw [hf]; exact Nat.le_of_succ_le }

theorem keeps_fifoStep (h : Keeps e y z) : Keeps e y (fifoStep e z) := by
  cases hf : z.gate.fifo with
  | nil => rwa [fifoStep_empty hf]
  | cons x rest =>
    have left := h.shrinks (.of_fifo_tail hf)
    cases hr : z.rec? x.bus.fleet with
    | some r =>
      rw [fifoStep_held hf (by simp [hr])]
      exact left.same rfl
    | none =>
      by_cases hn : z.records.length < 96
      · rw [fifoStep_inserted hf hr hn]
        exact keeps_nextStep _ (keeps_pinAttempt _ (keeps_addRec _ left))
      · rwa [fifoStep_full hf hr (Nat.not_lt.1 hn)]

theorem keeps_settle (h : Keeps e y z) : Keeps e y (settle e z) := by
  have times : ∀ n z, Keeps e y z → Keeps e y (fifoTimes e n z) := by
    intro n
    induction n with
    | zero => exact fun _ h => h
    | succ n ih => exact fun _ h => ih _ (keeps_fifoStep h)
  exact keeps_giveEntries (times _ _ h)

theorem keeps_crossRead (h : Keeps e y z) : Keeps e y (crossRead e z) :=
  h.same (by simp [Yard.lists])

theorem keeps_crossArrive (h : Keeps e y z) : Keeps e y (crossArrive e z) := by
  have told := keeps_notify .intruder none (some .gateEntry) [] h
  unfold crossArrive gateIntruder
  split
  · exact h.same rfl
  · dsimp only
    split
    · exact h.same rfl
    · exact told.same rfl

theorem keeps_windowEnd (arrivals : Bool) (h : Keeps e y z) : Keeps e y (windowEnd e arrivals z) := by
  unfold windowEnd gateIntruder
  (repeat' split)
  · exact keeps_notify _ _ _ _ (h.same rfl)
  · exact h
  · exact h.same rfl

theorem Shrinks.of_fifo_concat {z : Yard} (room : z.gate.fifo.length < 8) (x : FifoEntry) :
    Shrinks z { z with gate := { z.gate with fifo := z.gate.fifo ++ [x] } } :=
  { Shrinks.refl _ with fifo := fun _ => List.length_append.trans_le room }

theorem keeps_goodTag (b : BusFields) (h : Keeps e y z) : Keeps e y (goodTag e b z) := by
  unfold goodTag
  refine keeps_settle (keeps_crossRead ?_)
  split
  · exact h.shrinks (.of_fifo_concat ‹_› _)
  · exact keeps_notify _ _ _ _ h

end Sys2Proof.Machine
end

section
/-! SUPPORT. The rules of Keeps for the fuel unit (chapter 6). -/

namespace Sys2Proof.Machine

variable {e : Env} {y z z' : Yard}

/-! ## Pumps, stock and turns (R121 to R133) -/

theorem keeps_onPump (p : Nat) (f : Pump → Pump) (h : Keeps e y z) : Keeps e y (onPump p f z) := h.same rfl

theorem keeps_setPump (p : Nat) (f : Pump → Pump) (h : Keeps e y z) : Keeps e y (setPump e p f z) :=
  h.same (by simp [Yard.lists])

theorem keeps_setAccount (f : Fuel) (a : Stock) (h : Keeps e y z) :
    Keeps e y { z with fuel := z.fuel.setAccount f a } :=
  h.same (by simp [Yard.lists])

theorem keeps_checkLow (f : Fuel) (h : Keeps e y z) : Keeps e y (checkLow e f z) := by
  unfold checkLow
  dsimp only
  split
  · exact keeps_notify _ _ _ _ (keeps_setAccount _ _ h)
  · exact h

theorem keeps_chargeStock (f : Fuel) (d : Nat) (h : Keeps e y z) : Keeps e y (chargeStock e f d z) := by
  unfold chargeStock
  refine keeps_checkLow _ ?_
  split
  · exact keeps_setAccount _ _ h
  · exact keeps_notify _ _ _ _ (keeps_setAccount _ _ h)

theorem keeps_freePump (p : Nat) (h : Keeps e y z) : Keeps e y (freePump e p z) := keeps_setPump _ _ h

theorem keeps_endTurnRec (q : Pump) (t : Turn) (d : Nat) (m : FuelMark) (h : Keeps e y z) :
    Keeps e y (endTurnRec q t d m z) := by
  unfold endTurnRec
  split
  · exact keeps_nextStep _ (keeps_onRec _ _ h)
  · exact h

theorem keeps_endTurn (q : Pump) (t : Turn) (d : Nat) (h : Keeps e y z) : Keeps e y (endTurn e q t d z) :=
  keeps_endTurnRec _ _ _ _ (keeps_chargeStock _ _ h)

/-! ## The apron's queue (R118 to R125) -/

/-- A change of the apron's queue that takes no place. -/
theorem Shrinks.of_apronQueue {z : Yard} {q : List ApronEntry} (hq : q.length ≤ z.fuel.queue.length) :
    Shrinks z { z with fuel := { z.fuel with queue := q } } :=
  { Shrinks.refl _ with apron := .of_length hq _ }

theorem keeps_dropApronEntry (f : Nat) (h : Keeps e y z) : Keeps e y (dropApronEntry f z) :=
  h.shrinks (.of_apronQueue (List.length_filter_le _ _))

/-- A bus joins the apron's queue where there is room. -/
theorem keeps_joinApron {q : List ApronEntry} (room : q.length + z.fuel.reservs.length ≤ e.layout.islandCfg.capacity)
    (h : Keeps e y z) : Keeps e y { z with fuel := { z.fuel with queue := q } } :=
  h.trans ⟨fun b => { b with }, fun _ p => { p with apron := room }⟩

theorem concat_apron_room {z : Yard} (room : apronRoom e z = true) (x : ApronEntry) :
    (z.fuel.queue ++ [x]).length + z.fuel.reservs.length ≤ e.layout.islandCfg.capacity := by
  have := apronRoom_iff.1 room
  simp only [List.length_append, List.length_singleton]
  omega

theorem keeps_enqueueApron (r : Record) (room : apronRoom e z = true) (h : Keeps e y z) :
    Keeps e y (enqueueApron e r z) :=
  keeps_placeRec _ _ _ (keeps_joinApron (concat_apron_room room _) h)

theorem keeps_lookOnce (h : Keeps e y z) : Keeps e y (lookOnce e z) := by
  unfold lookOnce
  (repeat' split)
  · exact h
  · exact keeps_placeRec _ _ _ (keeps_setPump _ _ (keeps_dropApronEntry _ h))
  · exact keeps_notify _ _ _ _ (keeps_nextStep _ (keeps_onRec _ _ (keeps_dropApronEntry _ h)))

theorem keeps_lookForHeads (h : Keeps e y z) : Keeps e y (lookForHeads e z) := by
  have times : ∀ n z, Keeps e y z → Keeps e y (lookTimes e n z) := by
    intro n
    induction n with
    | zero => exact fun _ h => h
    | succ n ih => exact fun _ h => ih _ (keeps_lookOnce h)
  exact times _ _ h

theorem keeps_pumpSkip (p : Nat) (h : Keeps e y z) : Keeps e y (pumpSkip e p z) := by
  unfold pumpSkip
  dsimp only
  (repeat' split)
  · exact h
  · rename_i room
    exact keeps_settle (keeps_lookForHeads (keeps_placeRec _ _ _ (keeps_joinApron (concat_apron_room room.2 _)
      (keeps_notify _ _ _ _ (keeps_freePump _ h)))))
  · exact keeps_settle (keeps_lookForHeads (keeps_notify _ _ _ _ (keeps_loseRec _ _
      (keeps_notify _ _ _ _ (keeps_freePump _ h)))))
  · exact h

theorem keeps_pumpOut (f : Fuel) (h : Keeps e y z) : Keeps e y (pumpOut f z) := by
  unfold pumpOut
  split
  · exact h
  · exact keeps_foldl (fun g _ hx => keeps_enterSeeking g hx) _
      (h.shrinks (.of_apronQueue (List.length_filter_le _ _)))

theorem keeps_checkAdrift (f : Nat) (loc : Loc) (r : NoticeRes) (h : Keeps e y z) :
    Keeps e y (checkAdrift e f loc r z) := by
  unfold checkAdrift
  (repeat' split)
  · exact keeps_notify _ _ _ _ (keeps_cancelBusSeek _ (keeps_loseRec _ _ h))
  · exact h
  · exact h

theorem keeps_bayClear (p : Nat) (h : Keeps e y z) : Keeps e y (bayClear e p z) := by
  unfold bayClear
  dsimp only
  (repeat' split)
  · exact h
  · exact keeps_settle (keeps_checkAdrift _ _ _ (keeps_lookForHeads (keeps_freePump _ h)))
  · exact keeps_settle (keeps_checkAdrift _ _ _ (keeps_setPump _ _ h))
  · exact keeps_settle (keeps_checkAdrift _ _ _ (keeps_lookForHeads (keeps_freePump _ (keeps_endTurnRec _ _ _ _ h))))
  · exact keeps_settle (keeps_checkAdrift _ _ _ (keeps_pumpOut _ (keeps_notify _ _ _ _ (keeps_setPump _ _
      (keeps_endTurn _ _ _ (keeps_setPump _ _ h))))))
  · exact h

theorem keeps_bayArrive (p : Nat) (h : Keeps e y z) : Keeps e y (bayArrive e p z) := by
  unfold bayArrive
  (repeat' split)
  · exact h
  · exact keeps_placeRec _ _ _ (keeps_setPump _ _ h)
  · exact keeps_notify _ _ _ _ h
  · exact keeps_notify _ _ _ _ h
  · exact keeps_notify _ _ _ _ h
  · exact h

theorem keeps_nozzleLift (p : Nat) (h : Keeps e y z) : Keeps e y (nozzleLift e p z) := by
  unfold nozzleLift
  (repeat' split)
  · exact h
  · exact keeps_setPump _ _ h
  · exact h.same rfl

theorem keeps_nozzleHang (p : Nat) (h : Keeps e y z) : Keeps e y (nozzleHang e p z) := by
  unfold nozzleHang
  (repeat' split)
  · exact h
  · exact keeps_settle (keeps_endTurn _ _ _ (keeps_setPump _ _ h))
  · exact h

theorem keeps_meterPulse (p : Nat) (h : Keeps e y z) : Keeps e y (meterPulse e p z) := by
  unfold meterPulse
  dsimp only
  (repeat' split)
  · exact h
  · exact keeps_onPump _ _ h
  · exact keeps_onPump _ _ h
  · exact h

theorem keeps_noFlow (p : Nat) (h : Keeps e y z) : Keeps e y (noFlow e p z) := by
  unfold noFlow
  dsimp only
  (repeat' split)
  · exact h
  · exact keeps_settle (keeps_pumpOut _ (keeps_notify _ _ _ _ (keeps_setPump _ _ (keeps_endTurn _ _ _
      (keeps_setPump _ _ h)))))
  · exact h

theorem keeps_agingEnd (h : Keeps e y z) : Keeps e y (agingEnd e z) := by
  unfold agingEnd
  split
  · exact h
  · exact h.shrinks { Shrinks.refl _ with apron := .of_length (List.length_map _).le _ }

theorem keeps_reopenPump (p : Nat) (h : Keeps e y z) : Keeps e y (reopenPump e p z) :=
  keeps_settle (keeps_lookForHeads (keeps_freePump _ h))

end Sys2Proof.Machine
end

section
/-! SUPPORT. The rules of Keeps for the wash lanes (chapter 7), and for an expectation pushed (R194). -/

namespace Sys2Proof.Machine

variable {e : Env} {y z z' : Yard}

/-! ## Wash lanes: what takes no place (R145 to R152) -/

theorem keeps_onWash {w : Nat} {f : WashLane → WashLane} (hf : ∀ l, z.washLane? w = some l → l.Shrinks (f l))
    (h : Keeps e y z) : Keeps e y (onWash w f z) :=
  h.shrinks { Shrinks.refl _ with washes := .of_forall₂ (updFirst_forall₂ WashLane.Shrinks.refl hf) }

theorem keeps_setWash {w : Nat} {f : WashLane → WashLane} (hf : ∀ l, z.washLane? w = some l → l.Shrinks (f l))
    (h : Keeps e y z) : Keeps e y (setWash e w f z) := by
  unfold setWash
  dsimp only
  split
  · exact keeps_setSign _ _ (keeps_onWash hf h)
  · exact keeps_onWash hf h

/-- A change of a wash lane that leaves its queue and its reservations. -/
theorem keeps_setWash_state {w : Nat} {f : WashLane → WashLane}
    (hf : ∀ l, (f l).cfg = l.cfg ∧ (f l).queue = l.queue ∧ (f l).reservs = l.reservs) (h : Keeps e y z) :
    Keeps e y (setWash e w f z) :=
  keeps_setWash (fun l _ => .of_queue (hf l).1 (congrArg List.length (hf l).2.1).le (hf l).2.2) h

theorem keeps_endWash (w f : Nat) (m : WashMark) (h : Keeps e y z) : Keeps e y (endWash w f m z) := by
  unfold endWash
  split
  · exact keeps_nextStep _ (keeps_onRec _ _ h)
  · exact h

theorem keeps_skipHead (w : Nat) (en : WashEntry) (h : Keeps e y z) : Keeps e y (skipHead e w en z) :=
  keeps_notify _ _ _ _ (keeps_nextStep _ (keeps_onRec _ _ (keeps_removeExpect _ _ _
    (keeps_onWash (fun _ _ => .of_queue rfl (List.drop_sublist 1 _).length_le rfl) h))))

theorem keeps_callWashHead (w : Nat) (en : WashEntry) (p : Prog) (h : Keeps e y z) :
    Keeps e y (callWashHead e w en p z) :=
  keeps_setWash (fun _ _ => .of_queue rfl (List.drop_sublist 1 _).length_le rfl) (keeps_onRec _ _ h)

theorem keeps_washCallOnce (w : Nat) (h : Keeps e y z) : Keeps e y (washCallOnce e w z) := by
  unfold washCallOnce
  (repeat' split)
  · exact h
  · exact keeps_skipHead _ _ h
  · exact keeps_callWashHead _ _ _ h
  · exact h

theorem keeps_washCall (w : Nat) (h : Keeps e y z) : Keeps e y (washCall e w z) := by
  have times : ∀ n z, Keeps e y z → Keeps e y (washCallTimes e w n z) := by
    intro n
    induction n with
    | zero => exact fun _ h => h
    | succ n ih => exact fun _ h => ih _ (keeps_washCallOnce w h)
  exact times _ _ h

theorem keeps_washDwell (w : Nat) (h : Keeps e y z) : Keeps e y (washDwell e w z) := by
  unfold washDwell
  (repeat' split)
  · exact h
  · exact keeps_setWash_state (fun _ => ⟨rfl, rfl, rfl⟩) h
  · exact h

theorem keeps_washInClear (w : Nat) (h : Keeps e y z) : Keeps e y (washInClear e w z) := by
  unfold washInClear
  (repeat' split)
  · exact h
  · exact keeps_settle (keeps_notify _ _ _ _ (keeps_setWash_state (fun _ => ⟨rfl, rfl, rfl⟩) (keeps_endWash _ _ _ h)))
  · exact h

theorem keeps_washBusy (w : Nat) (h : Keeps e y z) : Keeps e y (washBusy e w z) := by
  unfold washBusy
  (repeat' split)
  · exact h
  · exact keeps_setWash_state (fun _ => ⟨rfl, rfl, rfl⟩) h
  · exact h

theorem setEstimate_parts (l : WashLane) (p : Prog) (v : Nat) : (l.setEstimate p v).cfg = l.cfg
    ∧ (l.setEstimate p v).queue = l.queue ∧ (l.setEstimate p v).reservs = l.reservs := by
  cases p <;> exact ⟨rfl, rfl, rfl⟩

theorem keeps_washDone (w : Nat) (h : Keeps e y z) : Keeps e y (washDone e w z) := by
  unfold washDone
  (repeat' split)
  · exact h
  · exact keeps_settle (keeps_endWash _ _ _ (keeps_setWash_state (fun l => setEstimate_parts l _ _) h))
  · exact h

theorem keeps_washOutClear (w : Nat) (h : Keeps e y z) : Keeps e y (washOutClear e w z) := by
  unfold washOutClear
  (repeat' split)
  · exact h
  · exact keeps_settle (keeps_checkAdrift _ _ _ (keeps_washCall _ (keeps_setWash_state (fun _ => ⟨rfl, rfl, rfl⟩) h)))
  · exact keeps_settle (keeps_checkAdrift _ _ _ (keeps_onWash (fun _ _ => .of_queue rfl (Nat.le_refl _) rfl) h))
  · exact h

theorem keeps_setPlant (w : Nat) (i : PlantInput) (b : Bool) (h : Keeps e y z) : Keeps e y (setPlant w i b z) :=
  h.same (by simp [Yard.lists])

theorem keeps_freeWash (w : Nat) (h : Keeps e y z) : Keeps e y (freeWash e w z) :=
  keeps_settle (keeps_washCall _ (keeps_setWash_state (fun _ => ⟨rfl, rfl, rfl⟩) h))

/-! ## A wash queue joined where the lane has room (R142) -/

theorem wash_room_iff {l : WashLane} : l.room = true ↔ l.queue.length + l.reservs.length < l.cfg.depth := by
  rw [WashLane.room, decide_eq_true_iff]

theorem WashLane.Shrinks.of_room {a b : WashLane} (room : a.room = true) (cfg : b.cfg = a.cfg)
    (hq : b.queue.length = a.queue.length + 1) (hr : b.reservs = a.reservs) : a.Shrinks b := by
  refine ⟨cfg, fun _ => ?_, hr⟩
  have := wash_room_iff.1 room
  simp only [WashLane.fits, cfg, hr, hq]
  omega

theorem keeps_joinWash (w f skips : Nat) (room : ∀ l, z.washLane? w = some l → l.room = true) (h : Keeps e y z) :
    Keeps e y (joinWash w f skips z) :=
  keeps_onWash (fun l hl => .of_room (room l hl) rfl List.length_append rfl) h

theorem washLane?_onWash (w : Nat) (f : WashLane → WashLane) (y : Yard) (hf : ∀ l, (f l).cfg = l.cfg) :
    (onWash w f y).washLane? w = (y.washLane? w).map f :=
  find?_updFirst_self _ _ (by simp [hf]) _

theorem washLane?_setWash (e : Env) (w : Nat) (f : WashLane → WashLane) (y : Yard) (hf : ∀ l, (f l).cfg = l.cfg) :
    (setWash e w f y).washLane? w = (y.washLane? w).map f := by
  refine Eq.trans ?_ (washLane?_onWash w f y hf)
  unfold setWash Yard.washLane?
  dsimp only
  split <;> simp

theorem keeps_washSkip (w : Nat) (h : Keeps e y z) : Keeps e y (washSkip e w z) := by
  unfold washSkip
  cases hl : z.washLane? w with
  | none => exact h
  | some l =>
    have freed : ∀ {x}, Keeps e y x →
        Keeps e y (setWash e w (fun l => { l with state := .free, called := none, timer := none }) x) :=
      fun hx => keeps_setWash_state (fun _ => ⟨rfl, rfl, rfl⟩) hx
    dsimp only
    (repeat' split)
    · rename_i room
      refine keeps_settle (keeps_washCall _ (keeps_placeRec _ _ _ (keeps_tailExpect _ _ _ (keeps_onWash ?_ (freed h)))))
      intro l' hl'
      have same := washLane?_setWash e w (fun l => { l with state := .free, called := none, timer := none }) z
        (fun _ => rfl)
      rw [hl, hl', Option.map_some, Option.some.injEq] at same
      subst same
      exact .of_room (by simpa [WashLane.room] using room.2) rfl List.length_append rfl
    · exact keeps_settle (keeps_washCall _ (keeps_notify _ _ _ _ (keeps_loseRec _ _ (keeps_removeExpect _ _ _ (freed h)))))
    · exact h

/-! ## Expectations pushed (R194) -/

/-- A point's queue takes one fleet. -/
def Point.Takes (f : Nat) (a b : Point) : Prop := b.cfg = a.cfg ∧ (b.queue.map (·.fleet)).Perm (f :: a.queue.map (·.fleet))

/-- Of the points, the one found takes one fleet. -/
theorem expectedFleets_takes {f : Nat} {p : Point → Bool} {g : Point → Point} {ps : List Point} {a : Point}
    (ha : ps.find? p = some a) (hg : a.Takes f (g a)) :
    (expectedFleets (updFirst p g ps)).Perm (f :: expectedFleets ps) := by
  obtain ⟨xs, zs, rfl, changed⟩ := updFirst_found ha g
  rw [changed]
  simp only [expectedFleets, List.flatMap_append, List.flatMap_cons]
  refine ((hg.2.append_right _).append_left _).trans ?_
  exact List.perm_middle

theorem ExpectedAt.of_takes {f : Nat} {k : PointKind} {i : Nat} {g : Point → Point} {ps : List Point} {a : Point}
    (ha : ps.find? (·.is k i) = some a) (hg : a.Takes f (g a)) {k' : PointKind} {i' f' : Nat}
    (h : ExpectedAt (updFirst (·.is k i) g ps) k' i' f') : ExpectedAt ps k' i' f' ∨ (k' = k ∧ i' = i ∧ f' = f) := by
  obtain ⟨p, hp, x, hx, rfl⟩ := h
  have related : List.Forall₂ (fun u v => v = u ∨ (u = a ∧ v = g a)) ps (updFirst (·.is k i) g ps) :=
    updFirst_forall₂ (fun _ => .inl rfl) fun u hu => .inr (by rw [ha] at hu; cases hu; exact ⟨rfl, rfl⟩)
  have place : ∀ u v : Point, (v = u ∨ (u = a ∧ v = g a)) → v.is k' i' = u.is k' i' := by
    rintro u v (rfl | ⟨rfl, rfl⟩)
    · rfl
    · simp [Point.is, hg.1]
  obtain ⟨u, hu, rfl | ⟨rfl, rfl⟩⟩ := found_of_forall₂' place related hp
  · exact .inl ⟨_, hu, x, hx, rfl⟩
  · rcases List.mem_cons.1 (hg.2.subset (List.mem_map_of_mem hx)) with same | old
    · have hk := List.find?_some ha
      have hk' := List.find?_some hu
      simp only [Point.is, Bool.and_eq_true, beq_iff_eq] at hk hk'
      exact .inr ⟨hk'.1.symm.trans hk.1, hk'.2.symm.trans hk.2, same⟩
    · obtain ⟨x', hx', same⟩ := List.mem_map.1 old
      exact .inl ⟨_, hu, x', hx', same⟩

theorem expected_iff {y : Yard} {f : Nat} : y.expected f = true ↔ f ∈ expectedFleets y.points := by
  simp [Yard.expected, expectedFleets]

/-- A fleet that no queue lists joins a queue with room, where its commitment is. -/
theorem keeps_onQueue_takes {k : PointKind} {i f : Nat} {g : List Expect → List Expect} {p : Point}
    (hp : z.point? k i = some p) (room : p.queue.length < 8) (fresh : z.expected f = false)
    (hg : ((g p.queue).map (·.fleet)).Perm (f :: p.queue.map (·.fleet)))
    (lane : k = .laneIn → LaneCommits z.lanes i f) (apron : k = .apronIn → i = 0 ∧ ApronCommits z.fuel.reservs f)
    (h : Keeps e y z) : Keeps e y (onQueue e k i g z) := by
  have takes : p.Takes f { p with queue := g p.queue } := ⟨rfl, hg⟩
  have points := onQueue_points e k i g z
  refine h.trans ⟨fun b => ?_, fun _ pl => ?_⟩
  · have short : ∀ q ∈ (onQueue e k i g z).points, q.queue.length ≤ 8 := by
      rw [points]
      refine forall_updFirst b.points fun q hq _ => ?_
      have same : z.point? k i = some q := hq
      rw [hp, Option.some.injEq] at same
      subst same
      have := hg.length_eq
      simp only [List.length_map, List.length_cons] at this
      show (g p.queue).length ≤ 8
      omega
    exact { queue := by simpa using b.queue, pool := by simpa using b.pool, table := by simpa using b.table,
            offers := by simpa using b.offers, lapsed := by simpa using b.lapsed, taken := by simpa using b.taken,
            fifo := by simpa using b.fifo, duties := by simpa using b.duties, notices := by simpa using b.notices,
            points := short, lanes := by simpa using b.lanes, apron := by simpa using b.apron }
  · refine { lanes := by simpa using pl.lanes, apron := by simpa using pl.apron, washes := by simpa using pl.washes,
             laneHeld := by simpa using pl.laneHeld, apronHeld := by simpa using pl.apronHeld,
             washHeld := by simpa using pl.washHeld, once := ?_, laneExpected := ?_, apronExpected := ?_ }
    · rw [points]
      refine (expectedFleets_takes hp takes).nodup_iff.2 (List.nodup_cons.2 ⟨?_, pl.once⟩)
      rw [← expected_iff, fresh]
      exact Bool.false_ne_true
    · rw [points]
      intro n f' hx
      simp only [onQueue_frame]
      rcases ExpectedAt.of_takes hp takes hx with old | ⟨rfl, rfl, rfl⟩
      · exact pl.laneExpected n f' old
      · exact lane rfl
    · rw [points]
      intro n f' hx
      simp only [onQueue_frame]
      rcases ExpectedAt.of_takes hp takes hx with old | ⟨rfl, rfl, rfl⟩
      · exact pl.apronExpected n f' old
      · exact apron rfl

theorem pushExpect_eq_some {k : PointKind} {i f : Nat} {timed : Bool} {y t : Yard} :
    pushExpect e k i f timed y = some t ↔ ∃ p, y.point? k i = some p ∧ p.queue.length < 8 ∧ y.expected f = false
      ∧ t = onQueue e k i (· ++ [⟨f, if timed then some (e.second + 60 * e.layout.params.travel) else none⟩]) y := by
  unfold pushExpect
  cases y.point? k i with
  | none => simp
  | some p =>
    by_cases full : 8 ≤ p.queue.length
    · simp [Config.expectCap, full, Nat.not_lt.2 full]
    · cases y.expected f <;> simp [Config.expectCap, full, Nat.lt_of_not_le full, eq_comm (b := t)]

theorem keeps_pushExpect {k : PointKind} {i f : Nat} {timed : Bool} {t : Yard}
    (ht : pushExpect e k i f timed z = some t) (lane : k = .laneIn → LaneCommits z.lanes i f)
    (apron : k = .apronIn → i = 0 ∧ ApronCommits z.fuel.reservs f) (h : Keeps e y z) : Keeps e y t := by
  obtain ⟨p, hp, room, fresh, rfl⟩ := pushExpect_eq_some.1 ht
  refine keeps_onQueue_takes hp room fresh ?_ lane apron h
  rw [List.map_append]
  exact List.perm_append_comm

/-! ## The queue of a wash lane gone OUT (R152, R153) -/

theorem keeps_handOnEntry (w : Nat) (en : WashEntry) (h : Keeps e y z) : Keeps e y (handOnEntry e w en z) := by
  have removed := keeps_removeExpect .washIn w en.fleet h
  unfold handOnEntry
  dsimp only
  split
  · rename_i t ht
    unfold pushHandedOn at ht
    split at ht
    · rename_i takes
      have pushed := keeps_pushExpect ht (by simp) (by simp) removed
      refine keeps_placeRec _ _ _ (keeps_joinWash _ _ _ (fun l hl => ?_) pushed)
      obtain ⟨p, -, -, -, rfl⟩ := pushExpect_eq_some.1 ht
      have same : (removeExpect e .washIn w en.fleet z).washLane? (otherLane w) = some l := by
        simpa [Yard.washLane?] using hl
      simp only [washTakes, same, Bool.and_eq_true] at takes
      exact takes.1.2
    · cases ht
  · exact removed.same rfl

theorem keeps_handOnQueue (w : Nat) (l : List WashEntry) (h : Keeps e y z) : Keeps e y (handOnQueue e w l z) :=
  keeps_washCall _ (keeps_foldl (fun en _ hx => keeps_handOnEntry w en hx) _
    (keeps_onWash (fun _ _ => .of_queue rfl (Nat.zero_le _) rfl) h))

theorem keeps_abortInside (w : Nat) (l : WashLane) (h : Keeps e y z) : Keeps e y (abortInside w l z) := by
  unfold abortInside
  (repeat' split)
  · exact keeps_endWash _ _ _ h
  · exact h
  · exact h

theorem keeps_washOut (w d : Nat) (h : Keeps e y z) : Keeps e y (washOut e w d z) := by
  unfold washOut
  split
  · exact h
  · dsimp only
    split
    · exact h
    · exact keeps_settle (keeps_handOnQueue _ _ (keeps_foldl (fun _ _ hx => keeps_placeRec _ _ _ hx) _
        (keeps_notify _ _ _ _ (keeps_abortInside _ _ (keeps_setWash_state (fun _ => ⟨rfl, rfl, rfl⟩) h)))))

end Sys2Proof.Machine
end

section
/-! SUPPORT. The rules of Keeps for reservations of lanes and the apron released and committed, and for a bus taken there
(R66, R97, R117). -/

namespace Sys2Proof.Machine

variable {e : Env} {y z z' : Yard} {cap : Nat}

/-! ## Items of a list changed at its first match -/

theorem mem_dropFirst_of_not {α : Type} {p : α → Bool} {l : List α} {x : α} (hx : x ∈ l) (hp : p x = false) :
    x ∈ dropFirst p l := by
  induction l with
  | nil => cases hx
  | cons a as ih =>
    unfold dropFirst
    rcases List.mem_cons.1 hx with rfl | hx
    · simp [hp]
    · split
      · exact hx
      · exact .tail _ (ih hx)

theorem mem_updFirst_of_mem {α : Type} {p : α → Bool} {f : α → α} {l : List α} {x : α} (hx : x ∈ l) :
    x ∈ updFirst p f l ∨ (p x = true ∧ f x ∈ updFirst p f l) := by
  induction l with
  | nil => cases hx
  | cons a as ih =>
    unfold updFirst
    by_cases ha : p a = true
    · rw [if_pos ha]
      rcases List.mem_cons.1 hx with rfl | hx
      · exact .inr ⟨ha, .head _⟩
      · exact .inl (.tail _ hx)
    · rw [if_neg ha]
      rcases List.mem_cons.1 hx with rfl | hx
      · exact .inl (.head _)
      · exact (ih hx).imp (.tail _) fun h => ⟨h.1, .tail _ h.2⟩

/-- Where the items that satisfy p share a key, and the list names each key once, none is left. -/
theorem not_mem_dropFirst {α : Type} {k : α → Nat} {p : α → Bool} (hk : ∀ a b, p a = true → p b = true → k a = k b)
    {l : List α} (h : (l.map k).Nodup) {x : α} (hx : x ∈ dropFirst p l) : p x = false := by
  induction l with
  | nil => cases hx
  | cons a as ih =>
    obtain ⟨fresh, rest⟩ := List.nodup_cons.1 h
    unfold dropFirst at hx
    split at hx
    · rename_i ha
      by_contra hpx
      exact fresh (hk a x ha (by simpa using hpx) ▸ List.mem_map_of_mem hx)
    · rename_i ha
      rcases List.mem_cons.1 hx with rfl | hx
      · simpa using ha
      · exact ih rest hx

/-! ## One lane changed -/

section OneLane

variable {ls : List Lane} {n : Nat} {g : Lane → Lane} (cfg : ∀ l, (g l).cfg = l.cfg)
include cfg

theorem find_lane_self : (updFirst (·.cfg.number == n) g ls).find? (·.cfg.number == n)
    = (ls.find? (·.cfg.number == n)).map g :=
  find?_updFirst_self _ _ (by simp [cfg]) _

theorem find_lane_other {m : Nat} (h : m ≠ n) : (updFirst (·.cfg.number == n) g ls).find? (·.cfg.number == m)
    = ls.find? (·.cfg.number == m) := by
  refine find?_updFirst_other _ _ _ (fun l hl => ?_) _
  simp only [beq_iff_eq] at hl
  simp [cfg, hl, Ne.symm h]

theorem LaneHolds.of_updFirst {m : Nat} {ref : SeekRef} {f : Nat}
    (h : LaneHolds (updFirst (·.cfg.number == n) g ls) m ref f) : (m ≠ n ∧ LaneHolds ls m ref f)
      ∨ (m = n ∧ ∃ l, ls.find? (·.cfg.number == n) = some l
        ∧ ∃ q ∈ (g l).reservs, q.committed = false ∧ q.ref = ref ∧ q.fleet = f) := by
  obtain ⟨l', hl', held⟩ := h
  by_cases hm : m = n
  · subst hm
    rw [find_lane_self cfg, Option.map_eq_some_iff] at hl'
    obtain ⟨l, hl, rfl⟩ := hl'
    exact .inr ⟨rfl, l, hl, held⟩
  · rw [find_lane_other cfg hm] at hl'
    exact .inl ⟨hm, l', hl', held⟩

theorem LaneCommits.updFirst_other {m f : Nat} (h : LaneCommits ls m f) (hm : m ≠ n) :
    LaneCommits (updFirst (·.cfg.number == n) g ls) m f := by
  obtain ⟨l, hl, listed⟩ := h
  exact ⟨l, (find_lane_other cfg hm).trans hl, listed⟩

theorem LaneCommits.updFirst_self {f : Nat} {l : Lane} (hl : ls.find? (·.cfg.number == n) = some l)
    (h : ∃ q ∈ (g l).reservs, q.fleet = f ∧ q.committed = true) :
    LaneCommits (updFirst (·.cfg.number == n) g ls) n f :=
  ⟨g l, (find_lane_self cfg).trans (by rw [hl, Option.map_some]), h⟩

end OneLane

/-! ## Reservations released and committed: no place is taken (R57, R66, R97, R117) -/

theorem keeps_laneRelease (n : Nat) (ref : SeekRef) (f : Nat) (h : Keeps e y z) : Keeps e y (laneRelease n ref f z) := by
  refine keeps_onLane (fun l _ => ?_) h
  have sub := dropFirst_sublist (fun r : LaneRes => !r.committed && r.ref == ref && r.fleet == f) l.reservs
  exact {
    cfg := rfl
    nodup := fun hn => hn.sublist (sub.map _)
    fits := fun hf => (Nat.add_le_add_left sub.length_le _).trans hf
    holds := fun q hq hc => ⟨q, sub.subset hq, hc, rfl, rfl⟩
    commits := fun q hq hc => ⟨q, mem_dropFirst_of_not hq (by simp [hc]), rfl, hc⟩ }

theorem keeps_apronRelease (ref : SeekRef) (f : Nat) (h : Keeps e y z) : Keeps e y (apronRelease ref f z) := by
  have sub := dropFirst_sublist (fun r : ApronRes => !r.committed && r.ref == ref && r.fleet == f) z.fuel.reservs
  refine h.shrinks { Shrinks.refl _ with apron := ⟨fun hn => hn.sublist (sub.map _), Nat.add_le_add_left sub.length_le _, ?_, ?_⟩ }
  · rintro fuel ref' f' ⟨q, hq, held⟩
    exact ⟨q, sub.subset hq, held⟩
  · rintro f' ⟨q, hq, rfl, hc⟩
    exact ⟨q, mem_dropFirst_of_not hq (by simp [hc]), rfl, hc⟩

/-- An entry takes the place of the one of its key, or joins the tail (R97, R117). -/
def commitIn {α : Type} (k : α → Nat) (late : Bool) (x : α) (l : List α) : List α :=
  if !late && l.any (k · == k x) then updFirst (k · == k x) (fun _ => x) l else l.filter (k · != k x) ++ [x]

section CommitIn

variable {α : Type} {k : α → Nat} {late : Bool} {x : α} {l : List α}

theorem updFirst_const_map : (updFirst (k · == k x) (fun _ => x) l).map k = l.map k := by
  induction l with
  | nil => rfl
  | cons a as ih =>
    unfold updFirst
    split
    · rename_i ha
      simp only [beq_iff_eq] at ha
      simp [ha]
    · simp [ih]

theorem commitIn_nodup (h : (l.map k).Nodup) : ((commitIn k late x l).map k).Nodup := by
  unfold commitIn
  split
  · rwa [updFirst_const_map]
  · exact nodup_filter_concat h

theorem self_mem_commitIn : x ∈ commitIn k late x l := by
  unfold commitIn
  split
  · rename_i lists
    rw [Bool.and_eq_true, List.any_eq_true] at lists
    obtain ⟨a, ha⟩ := Option.isSome_iff_exists.1 (List.find?_isSome.2 lists.2)
    obtain ⟨xs, zs, -, changed⟩ := updFirst_found ha fun _ => x
    simp [changed]
  · exact List.mem_append_right _ (.head _)

theorem mem_of_commitIn {q : α} (h : q ∈ commitIn k late x l) : q ∈ l ∨ q = x := by
  unfold commitIn at h
  split at h
  · exact (mem_updFirst h).imp id fun ⟨_, _, _, hq⟩ => hq
  · exact (List.mem_append.1 h).imp List.mem_of_mem_filter List.mem_singleton.1

theorem mem_commitIn_of_ne {q : α} (h : q ∈ l) (hk : k q ≠ k x) : q ∈ commitIn k late x l := by
  unfold commitIn
  split
  · exact (mem_updFirst_of_mem h).resolve_right (by simp [hk])
  · exact List.mem_append_left _ (by simp [h, hk])

/-- It alone is listed under its key. -/
theorem eq_of_mem_commitIn (h : (l.map k).Nodup) {q : α} (hq : q ∈ commitIn k late x l) (hk : k q = k x) : q = x :=
  List.inj_on_of_nodup_map (commitIn_nodup h) hq self_mem_commitIn hk

/-- With room, or where its key is listed already and it is not late, it takes no place that is not there. -/
theorem commitIn_length_le {n cap : Nat} (test : n + l.length < cap ∨ (!late && l.any (k · == k x)) = true)
    (h : n + l.length ≤ cap) : n + (commitIn k late x l).length ≤ cap := by
  unfold commitIn
  split
  · simpa using h
  · rename_i lists
    have room := test.resolve_right lists
    have := List.length_filter_le (k · != k x) l
    simp only [List.length_append, List.length_singleton]
    omega

end CommitIn

/-- What laneCommit makes of its lane. -/
def Lane.commit (ref : SeekRef) (f : Nat) (release : Option Nat) (late : Bool) (l : Lane) : Lane :=
  { l with reservs := commitIn LaneRes.fleet late ⟨ref, f, release, true⟩ l.reservs }

theorem laneCommit_eq (n : Nat) (ref : SeekRef) (f : Nat) (release : Option Nat) (late : Bool) (y : Yard) :
    laneCommit n ref f release late y = onLane n (Lane.commit ref f release late) y := by
  unfold laneCommit Lane.commit
  congr 1
  funext l
  unfold commitIn
  exact (apply_ite (fun r : List LaneRes => { l with reservs := r }) ((!late && l.lists f) = true) _ _).symm

/-- A lane that passes the commit test takes the commitment in a place it has. -/
theorem Lane.Shrinks.of_commit {l : Lane} {ref : SeekRef} {f : Nat} {release : Option Nat} {late : Bool}
    (test : (l.room || (!late && l.lists f)) = true) : l.Shrinks (l.commit ref f release late) where
  cfg := rfl
  nodup := commitIn_nodup
  fits := commitIn_length_le (by rwa [Bool.or_eq_true, lane_room_iff] at test)
  holds q hq hc := by
    rcases mem_of_commitIn hq with old | rfl
    · exact ⟨q, old, hc, rfl, rfl⟩
    · cases hc
  commits q hq hc := by
    by_cases hf : q.fleet = f
    · exact ⟨_, self_mem_commitIn, hf.symm, rfl⟩
    · exact ⟨q, mem_commitIn_of_ne hq hf, rfl, hc⟩

theorem apronCommit_eq (ref : SeekRef) (f : Nat) (fuel : Fuel) (late : Bool) (y : Yard) :
    apronCommit ref f fuel late y = { y with fuel := { y.fuel with
        reservs := commitIn ApronRes.fleet late ⟨ref, f, fuel, true⟩ y.fuel.reservs } } := by
  unfold commitIn
  exact (apply_ite (fun r : List ApronRes => { y with fuel := { y.fuel with reservs := r } })
    ((!late && y.apronLists f) = true) _ _).symm

theorem keeps_apronCommit {ref : SeekRef} {f : Nat} {fuel : Fuel} {late : Bool}
    (test : apronCommitTest e f fuel late z = true) (h : Keeps e y z) : Keeps e y (apronCommit ref f fuel late z) := by
  rw [apronCommitTest, Bool.and_eq_true, Bool.or_eq_true, apronRoom_iff] at test
  rw [apronCommit_eq]
  refine h.trans ⟨fun b => { b with apron := commitIn_nodup b.apron }, fun _ p =>
    { p with apron := commitIn_length_le test.2 p.apron, apronHeld := ?_, apronExpected := ?_ }⟩
  · rintro fu ref' f' ⟨q, hq, hc, held⟩
    rcases mem_of_commitIn hq with old | rfl
    · exact p.apronHeld fu ref' f' ⟨q, old, hc, held⟩
    · cases hc
  · intro i f' hx
    obtain ⟨rfl, q, hq, rfl, hc⟩ := p.apronExpected i f' hx
    by_cases hf : q.fleet = f
    · exact ⟨rfl, _, self_mem_commitIn, hf.symm, rfl⟩
    · exact ⟨rfl, q, mem_commitIn_of_ne hq hf, rfl, hc⟩

/-! ## A bus taken for a lane or for the apron (R12, R66) -/

/-- The commitment stands before the expectation that rests on it, whichever is written first. -/
theorem keeps_laneTaken {n f : Nat} {r : Record} {ref : SeekRef} {release : Option Nat} {late : Bool} {t : Yard}
    (test : laneCommitTest n f late z = true) (ht : pushExpect e .laneIn n f true (addRec r z) = some t)
    (h : Keeps e y z) : Keeps e y (laneCommit n ref f release late t) := by
  obtain ⟨p, hp, room, fresh, rfl⟩ := pushExpect_eq_some.1 ht
  unfold laneCommitTest at test
  cases hl : z.lane? n with
  | none => simp [hl] at test
  | some l =>
    simp only [hl, Bool.and_eq_true] at test
    have committed : Keeps e y (laneCommit n ref f release late (addRec r z)) := by
      rw [laneCommit_eq]
      refine keeps_onLane (fun l' hl' => .of_commit ?_) (keeps_addRec r h)
      have same : z.lane? n = some l' := hl'
      rw [hl, Option.some.injEq] at same
      exact same ▸ test.2
    have commits : LaneCommits (laneCommit n ref f release late (addRec r z)).lanes n f := by
      rw [laneCommit_eq]
      exact .updFirst_self (g := Lane.commit ref f release late) (fun _ => rfl) hl ⟨_, self_mem_commitIn, rfl, rfl⟩
    have pushed := keeps_onQueue_takes (k := .laneIn) (i := n) (f := f)
      (g := (· ++ [⟨f, some (e.second + 60 * e.layout.params.travel)⟩])) (by simpa [Yard.point?] using hp) room
      (by simpa [Yard.expected] using fresh) (by rw [List.map_append]; exact List.perm_append_comm) (fun _ => commits)
      (by simp) committed
    exact pushed.same (by simp [Yard.lists, onQueue_points, laneCommit_eq, onLane])

theorem keeps_apronTaken {f : Nat} {r : Record} {ref : SeekRef} {fuel : Fuel} {late : Bool} {t : Yard}
    (test : apronCommitTest e f fuel late z = true) (ht : pushExpect e .apronIn 0 f true (addRec r z) = some t)
    (h : Keeps e y z) : Keeps e y (apronCommit ref f fuel late t) := by
  obtain ⟨p, hp, room, fresh, rfl⟩ := pushExpect_eq_some.1 ht
  have committed : Keeps e y (apronCommit ref f fuel late (addRec r z)) :=
    keeps_apronCommit (z := addRec r z) test (keeps_addRec r h)
  have commits : ApronCommits (apronCommit ref f fuel late (addRec r z)).fuel.reservs f := by
    rw [apronCommit_eq]
    exact ⟨_, self_mem_commitIn, rfl, rfl⟩
  have pushed := keeps_onQueue_takes (k := .apronIn) (i := 0) (f := f)
    (g := (· ++ [⟨f, some (e.second + 60 * e.layout.params.travel)⟩])) (by simpa [Yard.point?] using hp) room
    (by simpa [Yard.expected] using fresh) (by rw [List.map_append]; exact List.perm_append_comm) (by simp)
    (fun _ => ⟨rfl, commits⟩) committed
  exact pushed.same (by simp [Yard.lists, onQueue_points, apronCommit_eq])

end Sys2Proof.Machine
end

section
/-! SUPPORT. A HELD offer given up (R57, R66, R71): the entry and the reservation that it stands for go together. -/

namespace Sys2Proof.Machine

variable {e : Env} {y z z' : Yard} {cap : Nat}

/-! ## A HELD offer entry leaves (R57, R66, R71) -/

theorem heldOffer?_parts {z : Yard} {ref : SeekRef} {f : Nat} {o : OfferEntry} (h : z.heldOffer? ref f = some o) :
    o.ref = ref ∧ o.fleet = f ∧ o.state = .held := by
  obtain ⟨hr, hf, hs⟩ := offerIs_iff.1 (List.find?_some h)
  exact ⟨hr, hf, hs.2 rfl⟩

/-- The first HELD entry of a seek reference and a fleet takes its key with it. -/
theorem heldKeys_dropHeld {l : List OfferEntry} {ref : SeekRef} {f : Nat} {o : OfferEntry}
    (h : l.find? (·.is true ref f) = some o) :
    heldKeys (dropFirst (·.is true ref f) l) = (heldKeys l).erase o.key := by
  obtain ⟨hp, xs, zs, rfl, before⟩ := List.find?_eq_some_iff_append.1 h
  have none : ∀ x ∈ xs, x.is true ref f = false := fun x hx => by simpa using before x hx
  obtain ⟨hr, hf, hs⟩ := offerIs_iff.1 hp
  have absent : o.key ∉ heldKeys xs := by
    rw [heldKeys, List.mem_map]
    rintro ⟨x, hx, same⟩
    simp only [List.mem_filter, beq_iff_eq] at hx
    simp only [OfferEntry.key, Prod.mk.injEq] at same
    have := none x hx.1
    rw [Bool.eq_false_iff, ne_eq, offerIs_iff] at this
    exact this ⟨same.2.1.trans hr, same.2.2.trans hf, by simp [hx.2]⟩
  rw [dropFirst_append none hp]
  unfold heldKeys at absent ⊢
  simp only [List.filter_append, List.map_append]
  rw [List.erase_append_right _ absent]
  simp [hs.2 rfl]

theorem heldKey_mem {z : Yard} {ref : SeekRef} {f : Nat} {o : OfferEntry} (h : z.heldOffer? ref f = some o) :
    (o.resource, ref, f) ∈ heldKeys z.seek.offers := by
  obtain ⟨hr, hf, hs⟩ := heldOffer?_parts h
  exact mem_heldKeys.2 ⟨o, by simp [List.mem_of_find?_eq_some h, hs], rfl, hr, hf⟩

theorem removeOffer_heldKeys {z : Yard} {ref : SeekRef} {f : Nat} {o : OfferEntry} (h : z.heldOffer? ref f = some o) :
    heldKeys (removeOffer true ref f z).seek.offers = (heldKeys z.seek.offers).erase (o.resource, ref, f) := by
  obtain ⟨hr, hf, -⟩ := heldOffer?_parts h
  have := heldKeys_dropHeld h
  rwa [OfferEntry.key, hr, hf] at this

theorem Bounded.removeOffer {z : Yard} (b : Bounded z) (held : Bool) (ref : SeekRef) (f : Nat) :
    Bounded (removeOffer held ref f z) :=
  { b with offers := (Nat.add_le_add_right (dropFirst_length_le _ _) _).trans b.offers }

/-- An entry for a lane on which nothing rests any more. -/
theorem keeps_removeOffer_lane {n : Nat} {ref : SeekRef} {f : Nat} {o : OfferEntry} (ho : z.heldOffer? ref f = some o)
    (hr : o.resource = .lane n) (free : Bounded y → ¬ LaneHolds z.lanes n ref f) (h : Keeps e y z) :
    Keeps e y (removeOffer true ref f z) := by
  have keys := removeOffer_heldKeys ho
  rw [hr] at keys
  refine ⟨fun b => (h.bounded b).removeOffer .., fun b pl => ?_⟩
  have p := h.placed b pl
  refine
    { p with laneHeld := fun m ref' f' hl => ?_, apronHeld := fun fu ref' f' hl => ?_, washHeld := fun w ref' f' => ?_ }
  · rw [keys]
    refine (List.mem_erase_of_ne fun same => ?_).2 (p.laneHeld m ref' f' hl)
    simp only [Prod.mk.injEq, Resource.lane.injEq] at same
    obtain ⟨rfl, rfl, rfl⟩ := same
    exact free b hl
  · rw [keys]
    exact (List.mem_erase_of_ne (by simp)).2 (p.apronHeld fu ref' f' hl)
  · rw [keys, List.count_erase_of_ne (by simp)]
    exact p.washHeld w ref' f'

/-- An entry for the apron on which nothing rests any more. -/
theorem keeps_removeOffer_apron {fuel : Fuel} {ref : SeekRef} {f : Nat} {o : OfferEntry}
    (ho : z.heldOffer? ref f = some o) (hr : o.resource = .apron fuel)
    (free : Bounded y → ¬ ApronHolds z.fuel.reservs fuel ref f) (h : Keeps e y z) :
    Keeps e y (removeOffer true ref f z) := by
  have keys := removeOffer_heldKeys ho
  rw [hr] at keys
  refine ⟨fun b => (h.bounded b).removeOffer .., fun b pl => ?_⟩
  have p := h.placed b pl
  refine
    { p with laneHeld := fun m ref' f' hl => ?_, apronHeld := fun fu ref' f' hl => ?_, washHeld := fun w ref' f' => ?_ }
  · rw [keys]
    exact (List.mem_erase_of_ne (by simp)).2 (p.laneHeld m ref' f' hl)
  · rw [keys]
    refine (List.mem_erase_of_ne fun same => ?_).2 (p.apronHeld fu ref' f' hl)
    simp only [Prod.mk.injEq, Resource.apron.injEq] at same
    obtain ⟨rfl, rfl, rfl⟩ := same
    exact free b hl
  · rw [keys, List.count_erase_of_ne (by simp)]
    exact p.washHeld w ref' f'

/-! ## One wash lane changed -/

section OneWash

variable {ls : List WashLane} {w : Nat} {g : WashLane → WashLane} (cfg : ∀ l, (g l).cfg = l.cfg)
include cfg

theorem washHolds_other {v : Nat} (h : v ≠ w) (ref : SeekRef) (f : Nat) :
    washHolds (updFirst (·.cfg.index == w) g ls) v ref f = washHolds ls v ref f := by
  unfold washHolds
  rw [find?_updFirst_other]
  intro l hl
  simp only [beq_iff_eq] at hl
  simp [cfg, hl, Ne.symm h]

theorem washHolds_self {l : WashLane} (hl : ls.find? (·.cfg.index == w) = some l) (ref : SeekRef) (f : Nat) :
    washHolds (updFirst (·.cfg.index == w) g ls) w ref f
      = ((g l).reservs.filter fun q => q.ref == ref && q.fleet == f).length := by
  unfold washHolds
  rw [find?_updFirst_self _ _ (by simp [cfg]), hl]
  rfl

end OneWash

theorem filter_dropFirst_self {α : Type} (p : α → Bool) (l : List α) :
    ((dropFirst p l).filter p).length = (l.filter p).length - 1 := by
  induction l with
  | nil => rfl
  | cons x xs ih =>
    unfold dropFirst
    by_cases hx : p x = true
    · simp [hx]
    · simp [hx, ih]

theorem filter_dropFirst_other {α : Type} {p q : α → Bool} (h : ∀ x, p x = true → q x = false) (l : List α) :
    (dropFirst p l).filter q = l.filter q := by
  induction l with
  | nil => rfl
  | cons x xs ih =>
    unfold dropFirst
    by_cases hx : p x = true
    · simp [hx, h x hx]
    · simp [hx, List.filter_cons, ih]

theorem dropFirst_length_succ {α : Type} {p : α → Bool} {l : List α} (h : (l.filter p).length ≠ 0) :
    (dropFirst p l).length + 1 = l.length := by
  induction l with
  | nil => exact absurd rfl h
  | cons x xs ih =>
    unfold dropFirst
    by_cases hx : p x = true
    · simp [hx]
    · simp only [hx, Bool.false_eq_true, if_false, List.length_cons]
      rw [ih (by simpa [hx] using h)]

/-- A HELD WASH entry leaves with its reservation; the freed place is the lane's, or its queue's. -/
theorem keeps_removeOffer_wash {w : Nat} {ref : SeekRef} {f : Nat} {o : OfferEntry} {g : WashLane → WashLane}
    (ho : z.heldOffer? ref f = some o) (hr : o.resource = .wash w) (cfg : ∀ l, (g l).cfg = l.cfg)
    (reservs : ∀ l, (g l).reservs = dropFirst (fun q => q.ref == ref && q.fleet == f) l.reservs)
    (queue : ∀ l, (g l).queue.length ≤ l.queue.length + 1) (h : Keeps e y z) :
    Keeps e y (removeOffer true ref f (onWash w g z)) := by
  have keys := removeOffer_heldKeys ho
  have mem := heldKey_mem ho
  rw [hr] at keys mem
  refine h.trans ⟨fun b => Bounded.removeOffer (z := onWash w g z) { b with } .., fun b p => ?_⟩
  have one : washHolds z.wash.lanes w ref f ≠ 0 := by
    rw [← p.washHeld]
    exact (List.count_pos_iff.2 mem).ne'
  unfold washHolds at one
  cases hl : z.wash.lanes.find? (·.cfg.index == w) with
  | none => simp [hl] at one
  | some l =>
    rw [hl] at one
    refine { p with
      washes := ?_, laneHeld := fun m ref' f' hl => ?_, apronHeld := fun fu ref' f' hl => ?_,
      washHeld := fun v ref' f' => ?_ }
    · refine forall_updFirst p.washes fun l' hl' fit => ?_
      rw [hl, Option.some.injEq] at hl'
      subst hl'
      have less := dropFirst_length_succ one
      have more := queue l
      unfold WashLane.fits at fit ⊢
      rw [cfg, reservs]
      simp only [Option.elim] at less
      omega
    · show _ ∈ heldKeys (removeOffer true ref f z).seek.offers
      rw [keys]
      exact (List.mem_erase_of_ne (by simp)).2 (p.laneHeld m ref' f' hl)
    · show _ ∈ heldKeys (removeOffer true ref f z).seek.offers
      rw [keys]
      exact (List.mem_erase_of_ne (by simp)).2 (p.apronHeld fu ref' f' hl)
    · show (heldKeys (removeOffer true ref f z).seek.offers).count _ = washHolds (updFirst _ g z.wash.lanes) v ref' f'
      rw [keys]
      by_cases hv : v = w
      · subst hv
        rw [washHolds_self cfg hl, reservs]
        by_cases same : ref' = ref ∧ f' = f
        · obtain ⟨rfl, rfl⟩ := same
          rw [List.count_erase_self, filter_dropFirst_self, p.washHeld, washHolds, hl]
          rfl
        · rw [List.count_erase_of_ne (by simpa using same), filter_dropFirst_other, p.washHeld, washHolds, hl]
          · rfl
          · intro q hq
            simp only [Bool.and_eq_true, beq_iff_eq] at hq
            refine Bool.eq_false_iff.2 fun both => same ?_
            simp only [Bool.and_eq_true, beq_iff_eq] at both
            exact ⟨both.1.symm.trans hq.1, both.2.symm.trans hq.2⟩
      · rw [washHolds_other cfg hv, List.count_erase_of_ne (by simp [hv]), p.washHeld]

/-- A live offer is given up: its entry goes with what it stands for (R57, R66, R71). -/
theorem keeps_giveUp {ref : SeekRef} {f : Nat} {o : OfferEntry} (ho : z.heldOffer? ref f = some o) (h : Keeps e y z) :
    Keeps e y (removeOffer true ref f (releaseRes o.resource ref f z)) := by
  cases hr : o.resource with
  | lane n =>
    refine keeps_removeOffer_lane (z := laneRelease n ref f z) ho hr (fun b hold => ?_) (keeps_laneRelease n ref f h)
    rcases LaneHolds.of_updFirst (g := fun l => { l with
      reservs := dropFirst (fun r => !r.committed && r.ref == ref && r.fleet == f) l.reservs })
      (fun _ => rfl) hold with ⟨other, -⟩ | ⟨-, l, hl, q, hq, hc, hqr, hqf⟩
    · exact other rfl
    · have unique := (h.bounded b).lanes l (List.mem_of_find?_eq_some hl)
      have gone := not_mem_dropFirst (k := LaneRes.fleet) (fun a b ha hb => by simp at ha hb; omega) unique hq
      simp [hc, hqr, hqf] at gone
  | apron fuel =>
    refine keeps_removeOffer_apron (z := apronRelease ref f z) ho hr (fun b hold => ?_) (keeps_apronRelease ref f h)
    obtain ⟨q, hq, hc, rfl, rfl, rfl⟩ := hold
    have gone := not_mem_dropFirst (k := ApronRes.fleet) (fun a b ha hb => by simp at ha hb; omega)
      (h.bounded b).apron hq
    simp [hc] at gone
  | wash w =>
    exact keeps_removeOffer_wash ho hr (g := fun l =>
      { l with reservs := dropFirst (fun r => r.ref == ref && r.fleet == f) l.reservs }) (fun _ => rfl) (fun _ => rfl)
      (fun _ => Nat.le_succ _) h

end Sys2Proof.Machine
end

section
/-! SUPPORT. An OFFER won (R56, R96, R117, R143): the reservation and the HELD entry come together. -/

namespace Sys2Proof.Machine

variable {e : Env} {y z z' : Yard} {cap : Nat}

/-! ## A won offer reserves (R56, R95, R116, R142) -/

theorem commitIn_late {α : Type} (k : α → Nat) (x : α) (l : List α) :
    commitIn k true x l = l.filter (k · != k x) ++ [x] := by
  simp [commitIn]

theorem lane_enter_reservs (l : Lane) (r : LaneRes) :
    (l.enter r).reservs = commitIn LaneRes.fleet true r l.reservs := (commitIn_late ..).symm

theorem heldKeys_concat (l : List OfferEntry) (o : OfferEntry) :
    heldKeys (l ++ [o]) = heldKeys l ++ (if o.state = .held then [o.key] else []) := by
  unfold heldKeys
  by_cases h : o.state = .held <;> simp [h]

/-- The place of the pending choice goes to the entry of the offer that was won. -/
theorem offers_concat_le {z : Yard} {c : Choice} (hc : z.seek.choice = some c) (o : OfferEntry)
    (h : z.seek.offers.length + z.seek.choice.toList.length ≤ 8) : (z.seek.offers ++ [o]).length + 0 ≤ 8 := by
  simpa [hc] using h

section Won

variable {c : Choice} {ref : SeekRef} {f : Nat} {o : OfferEntry} (hc : z.seek.choice = some c) (hs : o.state = .held)
include hc hs

/-- What the yard is after a won offer's entry has joined the offer table. -/
def wonYard (o : OfferEntry) (z : Yard) : Yard :=
  { z with seek := { z.seek with offers := z.seek.offers ++ [o], choice := none } }

theorem keeps_laneWon {n : Nat} {l : Lane} {release : Option Nat} (hk : o.key = (.lane n, ref, f))
    (hl : z.lane? n = some l) (room : l.room = true) (h : Keeps e y z) :
    Keeps e y (wonYard o (onLane n (fun l => l.enter ⟨ref, f, release, l.committed f⟩) z)) := by
  have keys : heldKeys (z.seek.offers ++ [o]) = heldKeys z.seek.offers ++ [(.lane n, ref, f)] := by
    rw [heldKeys_concat, if_pos hs, hk]
  have cfg : ∀ l : Lane, (l.enter ⟨ref, f, release, l.committed f⟩).cfg = l.cfg := fun _ => rfl
  refine h.trans ⟨fun b => { b with offers := offers_concat_le hc o b.offers, lanes := ?_ }, fun _ p =>
    { p with lanes := ?_, laneHeld := ?_, apronHeld := ?_, washHeld := ?_, laneExpected := ?_ }⟩
  · exact forall_updFirst b.lanes fun l' _ nodup => lane_enter_nodup nodup
  · refine forall_updFirst p.lanes fun l' hl' _ => ?_
    have same : z.lane? n = some l' := hl'
    rw [hl, Option.some.injEq] at same
    subst same
    have := lane_room_iff.1 room
    have := lane_enter_length (l := l) (r := ⟨ref, f, release, l.committed f⟩)
    show l.positions.length + _ ≤ l.cfg.depth
    omega
  · intro m ref' f' hold
    show _ ∈ heldKeys (z.seek.offers ++ [o])
    rw [keys, List.mem_append]
    rcases LaneHolds.of_updFirst cfg hold with ⟨-, old⟩ | ⟨rfl, l', hl', q, hq, hqc, rfl, rfl⟩
    · exact .inl (p.laneHeld m ref' f' old)
    · rcases mem_of_commitIn (lane_enter_reservs .. ▸ hq) with old | rfl
      · exact .inl (p.laneHeld m _ _ ⟨l', hl', q, old, hqc, rfl, rfl⟩)
      · exact .inr (.head _)
  · intro fu ref' f' hold
    show _ ∈ heldKeys (z.seek.offers ++ [o])
    rw [keys]
    exact List.mem_append_left _ (p.apronHeld fu ref' f' hold)
  · intro w ref' f'
    show (heldKeys (z.seek.offers ++ [o])).count _ = washHolds z.wash.lanes w ref' f'
    rw [keys, List.count_append, p.washHeld]
    simp
  · intro m f' hx
    by_cases hm : m = n
    · subst hm
      obtain ⟨l', hl', q, hq, rfl, hqc⟩ := p.laneExpected m f' hx
      refine .updFirst_self cfg hl' ?_
      rw [lane_enter_reservs]
      by_cases hf : q.fleet = f
      · exact ⟨⟨ref, f, release, l'.committed f⟩, self_mem_commitIn, hf.symm,
          lane_committed_iff.2 ⟨q, hq, hqc, hf⟩⟩
      · exact ⟨q, mem_commitIn_of_ne hq hf, rfl, hqc⟩
    · exact (p.laneExpected m f' hx).updFirst_other cfg hm

theorem keeps_apronWon {fuel : Fuel} (hk : o.key = (.apron fuel, ref, f)) (room : apronRoom e z = true)
    (h : Keeps e y z) : Keeps e y (wonYard o (enterApron ⟨ref, f, fuel, z.apronCommitted f⟩ z)) := by
  have keys : heldKeys (z.seek.offers ++ [o]) = heldKeys z.seek.offers ++ [(.apron fuel, ref, f)] := by
    rw [heldKeys_concat, if_pos hs, hk]
  have entered : (enterApron ⟨ref, f, fuel, z.apronCommitted f⟩ z).fuel.reservs
      = commitIn ApronRes.fleet true ⟨ref, f, fuel, z.apronCommitted f⟩ z.fuel.reservs := (commitIn_late ..).symm
  refine h.trans ⟨fun b => { b with offers := offers_concat_le hc o b.offers, apron := enterApron_nodup b.apron },
    fun _ p => { p with apron := ?_, laneHeld := ?_, apronHeld := ?_, washHeld := ?_, apronExpected := ?_ }⟩
  · have := apronRoom_iff.1 room
    have := enterApron_length (y := z) (r := ⟨ref, f, fuel, z.apronCommitted f⟩)
    show z.fuel.queue.length + _ ≤ e.layout.islandCfg.capacity
    exact (Nat.add_le_add_left this _).trans (by omega)
  · intro m ref' f' hold
    show _ ∈ heldKeys (z.seek.offers ++ [o])
    rw [keys]
    exact List.mem_append_left _ (p.laneHeld m ref' f' hold)
  · rintro fu ref' f' ⟨q, hq, hqc, rfl, rfl, rfl⟩
    show _ ∈ heldKeys (z.seek.offers ++ [o])
    rw [keys, List.mem_append]
    rcases mem_of_commitIn (entered ▸ hq) with old | rfl
    · exact .inl (p.apronHeld _ _ _ ⟨q, old, hqc, rfl, rfl, rfl⟩)
    · exact .inr (.head _)
  · intro w ref' f'
    show (heldKeys (z.seek.offers ++ [o])).count _ = washHolds z.wash.lanes w ref' f'
    rw [keys, List.count_append, p.washHeld]
    simp
  · intro i f' hx
    obtain ⟨rfl, q, hq, rfl, hqc⟩ := p.apronExpected i f' hx
    refine ⟨rfl, ?_⟩
    show ApronCommits (enterApron ⟨ref, f, fuel, z.apronCommitted f⟩ z).fuel.reservs _
    rw [entered]
    by_cases hf : q.fleet = f
    · exact ⟨⟨ref, f, fuel, z.apronCommitted f⟩, self_mem_commitIn, hf.symm,
        apronCommitted_iff.2 ⟨q, hq, hqc, hf⟩⟩
    · exact ⟨q, mem_commitIn_of_ne hq hf, rfl, hqc⟩

theorem keeps_washWon {w : Nat} {l : WashLane} (hk : o.key = (.wash w, ref, f)) (hl : z.washLane? w = some l)
    (room : l.room = true) (h : Keeps e y z) :
    Keeps e y (wonYard o (onWash w (fun l => { l with reservs := l.reservs ++ [⟨ref, f⟩] }) z)) := by
  have keys : heldKeys (z.seek.offers ++ [o]) = heldKeys z.seek.offers ++ [(.wash w, ref, f)] := by
    rw [heldKeys_concat, if_pos hs, hk]
  refine h.trans ⟨fun b => { b with offers := offers_concat_le hc o b.offers }, fun _ p =>
    { p with washes := ?_, laneHeld := ?_, apronHeld := ?_, washHeld := ?_ }⟩
  · refine forall_updFirst p.washes fun l' hl' _ => ?_
    have same : z.washLane? w = some l' := hl'
    rw [hl, Option.some.injEq] at same
    subst same
    have := wash_room_iff.1 room
    simp only [WashLane.fits, List.length_append, List.length_singleton]
    omega
  · intro m ref' f' hold
    show _ ∈ heldKeys (z.seek.offers ++ [o])
    rw [keys]
    exact List.mem_append_left _ (p.laneHeld m ref' f' hold)
  · intro fu ref' f' hold
    show _ ∈ heldKeys (z.seek.offers ++ [o])
    rw [keys]
    exact List.mem_append_left _ (p.apronHeld fu ref' f' hold)
  · intro v ref' f'
    show (heldKeys (z.seek.offers ++ [o])).count _ = washHolds (updFirst _ _ z.wash.lanes) v ref' f'
    rw [keys, List.count_append, p.washHeld]
    by_cases hv : v = w
    · subst hv
      rw [washHolds_self (g := fun l => { l with reservs := l.reservs ++ [⟨ref, f⟩] }) (fun _ => rfl) hl, washHolds,
        show z.wash.lanes.find? _ = some l from hl]
      by_cases same : ref' = ref ∧ f' = f
      · obtain ⟨rfl, rfl⟩ := same
        simp
      · have differ : ¬ (ref = ref' ∧ f = f') := fun both => same ⟨both.1.symm, both.2.symm⟩
        simp [differ]
    · rw [washHolds_other (g := fun l => { l with reservs := l.reservs ++ [⟨ref, f⟩] }) (fun _ => rfl) hv]
      simp [Ne.symm hv]

end Won

theorem Shrinks.of_wonYard {z : Yard} {c : Choice} {o : OfferEntry} (hc : z.seek.choice = some c)
    (ho : o.state ≠ .held) : Shrinks z (wonYard o z) := by
  unfold wonYard
  exact { Shrinks.refl _ with offers := offers_concat_le hc o, held := by simp [heldKeys_concat, ho] }

theorem keeps_offerWon (h : Keeps e y z) : Keeps e y (offerWon e z) := by
  unfold offerWon
  cases hc : z.seek.choice with
  | none => exact h
  | some c =>
    have forgotten := h.shrinks (.of_choice_none z)
    dsimp only
    (repeat' split)
    · rename_i n _ _
      have entered := h.shrinks (.of_wonYard hc (o := ⟨c.ref, c.service, c.fleet, c.resource, c.cost, .sending, none, 0⟩)
        (by simp))
      unfold wonYard at entered
      exact keeps_send _ ((keeps_setPosition n c.fleet .calledOut entered).same
        (by simp [Yard.lists, setPosition, onPositions_lanes, onLane]))
    · exact forgotten
    · exact forgotten
    · rename_i t ht
      unfold reserve at ht
      split at ht <;> rename_i hr
      · obtain ⟨l, hl, room, rfl⟩ := laneReserve_eq_some.1 ht
        exact keeps_laneWon hc rfl (congrArg (·, c.ref, c.fleet) hr) hl room h
      · obtain ⟨room, rfl⟩ := apronReserve_eq_some.1 ht
        exact keeps_apronWon hc rfl (congrArg (·, c.ref, c.fleet) hr) room h
      · obtain ⟨l, hl, room, rfl⟩ := washReserve_eq_some.1 ht
        exact keeps_washWon hc rfl (congrArg (·, c.ref, c.fleet) hr) hl room h
    · exact forgotten

end Sys2Proof.Machine
end

section
/-! SUPPORT. A HANDOVER taken on a live offer (R66): the entry and its reservation go as the commitment comes. The order in
which the model writes them does not matter, since the wash call does not look at the seek engine. -/

namespace Sys2Proof.Machine

variable {e : Env} {y z z' : Yard} {cap : Nat}

/-! ## The wash unit neither reads nor writes the seek engine -/

/-- The yard with another seek engine. -/
def Yard.withSeek (k : SeekEngine) (y : Yard) : Yard := { y with seek := k }

section SeekAside

variable (e : Env) (k : SeekEngine) (y : Yard)

theorem notify_withSeek (kind : NoticeKind) (f : Option Nat) (r : Option NoticeRes) (d : List Nat) :
    notify e kind f r d (y.withSeek k) = (notify e kind f r d y).withSeek k := by
  unfold notify
  rw [show (y.withSeek k).notices = y.notices from rfl]
  split <;> rfl

theorem onRec_withSeek (f : Nat) (g : Record → Record) :
    onRec f g (y.withSeek k) = (onRec f g y).withSeek k := rfl

theorem nextStep_withSeek (f : Nat) : nextStep f (y.withSeek k) = (nextStep f y).withSeek k := rfl

theorem setSign_withSeek (n v : Nat) : setSign e n v (y.withSeek k) = (setSign e n v y).withSeek k := by
  unfold setSign
  rw [show (y.withSeek k).signs = y.signs from rfl]
  split
  · rfl
  · dsimp only
    (repeat' split) <;> rfl

theorem removeExpect_withSeek (kind : PointKind) (i f : Nat) :
    removeExpect e kind i f (y.withSeek k) = (removeExpect e kind i f y).withSeek k := by
  unfold removeExpect onQueue
  generalize hz : ({ y with points := _ } : Yard) = z
  rw [show ({ y.withSeek k with points := _ } : Yard) = z.withSeek k by rw [← hz]; rfl]
  unfold entryLight
  rw [show (z.withSeek k).point? kind i = z.point? kind i from rfl]
  split
  · exact setSign_withSeek ..
  · rfl

theorem setWash_withSeek (w : Nat) (g : WashLane → WashLane) :
    setWash e w g (y.withSeek k) = (setWash e w g y).withSeek k := by
  unfold setWash
  rw [show onWash w g (y.withSeek k) = (onWash w g y).withSeek k from rfl]
  dsimp only
  rw [show ((onWash w g y).withSeek k).washLane? w = (onWash w g y).washLane? w from rfl]
  split
  · exact setSign_withSeek ..
  · rfl

theorem skipHead_withSeek (w : Nat) (en : WashEntry) :
    skipHead e w en (y.withSeek k) = (skipHead e w en y).withSeek k := by
  unfold skipHead
  rw [show onWash w _ (y.withSeek k) = (onWash w _ y).withSeek k from rfl, removeExpect_withSeek]
  dsimp only
  rw [onRec_withSeek, nextStep_withSeek]
  exact notify_withSeek ..

theorem callWashHead_withSeek (w : Nat) (en : WashEntry) (p : Prog) :
    callWashHead e w en p (y.withSeek k) = (callWashHead e w en p y).withSeek k := by
  unfold callWashHead
  rw [onRec_withSeek]
  exact setWash_withSeek ..

theorem washCallOnce_withSeek (w : Nat) : washCallOnce e w (y.withSeek k) = (washCallOnce e w y).withSeek k := by
  unfold washCallOnce
  rw [show (y.withSeek k).washLane? w = y.washLane? w from rfl]
  split
  · rfl
  · split
    · rw [apply_ite (Yard.withSeek k), skipHead_withSeek]
      exact if_congr Iff.rfl rfl (callWashHead_withSeek ..)
    · rfl

theorem washCall_withSeek (w : Nat) : washCall e w (y.withSeek k) = (washCall e w y).withSeek k := by
  have times : ∀ n y, washCallTimes e w n (y.withSeek k) = (washCallTimes e w n y).withSeek k := by
    intro n
    induction n with
    | zero => exact fun _ => rfl
    | succ n ih => exact fun y => (congrArg _ (washCallOnce_withSeek e k y w)).trans (ih _)
  exact times 8 y

/-- So a call passes an offer entry's leaving. -/
theorem removeOffer_washCall (w : Nat) (held : Bool) (ref : SeekRef) (f : Nat) :
    removeOffer held ref f (washCall e w y) = washCall e w (removeOffer held ref f y) := by
  have aside := washCall_withSeek e (removeOffer held ref f y).seek y w
  refine Eq.trans ?_ aside.symm
  simp only [removeOffer, Yard.withSeek, washCall_frame]

end SeekAside

/-! ## A HANDOVER's bus is taken (R65, R66, R97, R117, R143) -/

theorem insertTaken_eq_taken {res : Resource} {ref : SeekRef} {b : Carried} {late : Bool} {t : Yard}
    (h : insertTaken e res ref b late y = .taken t) :
    ∃ u, pushExpect e res.point.1 res.point.2.1 b.fleet res.point.2.2 (addRec ⟨b, .expected, res.loc⟩ y) = some u
      ∧ t = commitRes e res ref b late u := by
  unfold insertTaken at h
  split at h
  · cases h
  · cases h
  · split at h
    · cases h
    · rename_i u hu
      cases h
      exact ⟨u, hu, rfl⟩

theorem updFirst_updFirst {α : Type} {p : α → Bool} {f g : α → α} (hf : ∀ x, p (f x) = p x) (l : List α) :
    updFirst p g (updFirst p f l) = updFirst p (fun x => g (f x)) l := by
  induction l with
  | nil => rfl
  | cons x xs ih =>
    by_cases hx : p x = true
    · simp [updFirst, hx, hf]
    · simp [updFirst, hx, ih]

theorem heldOffer?_of_offers {y z : Yard} (h : y.seek.offers = z.seek.offers) (ref : SeekRef) (f : Nat) :
    y.heldOffer? ref f = z.heldOffer? ref f := by
  rw [Yard.heldOffer?, Yard.heldOffer?, h]

/-- A live offer's bus is taken: its reservation becomes a commitment and its entry goes. -/
theorem keeps_takenLive {ref : SeekRef} {b : Carried} {o : OfferEntry} {t : Yard}
    (ho : z.heldOffer? ref b.fleet = some o) (test : commitTest e o.resource b false z = true)
    (ht : insertTaken e o.resource ref b false z = .taken t) (h : Keeps e y z) :
    Keeps e y (removeOffer true ref b.fleet t) := by
  obtain ⟨u, hu, rfl⟩ := insertTaken_eq_taken ht
  have offers : u.seek.offers = z.seek.offers := by
    obtain ⟨p, -, -, -, rfl⟩ := pushExpect_eq_some.1 hu
    simp
  cases hr : o.resource with
  | lane n =>
    rw [hr] at test hu
    have taken := keeps_laneTaken (ref := ref) (release := b.pin.map (·.release)) test hu h
    refine keeps_removeOffer_lane ((heldOffer?_of_offers (by simpa [commitRes, laneCommit] using offers) ..).trans ho) hr
      (fun bounded hold => ?_) taken
    have lanes : u.lanes = z.lanes := by
      obtain ⟨p, -, -, -, rfl⟩ := pushExpect_eq_some.1 hu
      simp
    rw [commitRes, laneCommit_eq, onLane, lanes] at hold
    rcases LaneHolds.of_updFirst (g := Lane.commit ref b.fleet (b.pin.map (·.release)) false) (fun _ => rfl) hold
      with ⟨other, -⟩ | ⟨-, l, hl, q, hq, hc, -, hf⟩
    · exact other rfl
    · have unique := (h.bounded bounded).lanes l (List.mem_of_find?_eq_some hl)
      have same := eq_of_mem_commitIn unique hq hf
      rw [same] at hc
      cases hc
  | apron fuel =>
    rw [hr] at test hu
    have taken := keeps_apronTaken (ref := ref) test hu h
    refine keeps_removeOffer_apron ((heldOffer?_of_offers (by simpa [commitRes] using offers) ..).trans ho) hr
      (fun bounded hold => ?_) taken
    have reservs : u.fuel.reservs = z.fuel.reservs := by
      obtain ⟨p, -, -, -, rfl⟩ := pushExpect_eq_some.1 hu
      simp
    rw [commitRes, apronCommit_eq, reservs] at hold
    obtain ⟨q, hq, hc, -, -, hf⟩ := hold
    have same := eq_of_mem_commitIn (h.bounded bounded).apron hq hf
    rw [same] at hc
    cases hc
  | wash w =>
    rw [hr] at hu
    have pushed := keeps_pushExpect hu (by simp [Resource.point]) (by simp [Resource.point]) (keeps_addRec _ h)
    let g (l : WashLane) : WashLane := { l with
      queue := l.queue ++ [⟨b.fleet, l.cfg.joinProg (u.washWanted b.fleet), 0⟩]
      reservs := dropFirst (fun r => r.ref == ref && r.fleet == b.fleet) l.reservs }
    have joined : joinWash w b.fleet 0 (washRelease w ref b.fleet u) = onWash w g u :=
      congrArg (fun ls => { u with wash := { u.wash with lanes := ls } }) (updFirst_updFirst
        (p := fun l : WashLane => l.cfg.index == w)
        (f := fun l => { l with reservs := dropFirst (fun r => r.ref == ref && r.fleet == b.fleet) l.reservs })
        (g := fun l => { l with queue := l.queue ++ [⟨b.fleet, l.cfg.joinProg (u.washWanted b.fleet), 0⟩] })
        (fun _ => rfl) u.wash.lanes)
    have left := keeps_washCall w (keeps_removeOffer_wash (g := g) ((heldOffer?_of_offers offers ..).trans ho) hr
      (fun _ => rfl) (fun _ => rfl) (fun _ => List.length_append.le) pushed)
    rw [commitRes, joined]
    rw [removeOffer_washCall]
    exact left

end Sys2Proof.Machine
end

section
/-! SUPPORT. A HANDOVER taken on a lapsed offer (R65, case 3), at the gate, and the answers to a HANDOVER. -/

namespace Sys2Proof.Machine

variable {e : Env} {y z z' : Yard} {cap : Nat}

/-! ## A late HANDOVER (R65, R66) -/

/-- With no HELD entry of a seek reference and a fleet no resource is held for them. -/
theorem not_mem_heldKeys {z : Yard} {ref : SeekRef} {f : Nat} (h : z.heldOffer? ref f = none) (r : Resource) :
    (r, ref, f) ∉ heldKeys z.seek.offers := by
  intro hk
  obtain ⟨o, ho, -, hr, hf⟩ := mem_heldKeys.1 hk
  simp only [List.mem_filter, beq_iff_eq] at ho
  exact List.find?_eq_none.1 h o ho.1 (offerIs_iff.2 ⟨hr, hf, by simp [ho.2]⟩)

theorem updFirst_of_none {α : Type} {p : α → Bool} {f : α → α} {l : List α} (h : ∀ x ∈ l, p x = false) :
    updFirst p f l = l := by
  induction l with
  | nil => rfl
  | cons x xs ih => simp [updFirst, h x (.head _), ih fun z hz => h z (.tail _ hz)]

theorem washLane?_washRelease (w : Nat) (ref : SeekRef) (f : Nat) (y : Yard) : (washRelease w ref f y).washLane? w
    = (y.washLane? w).map fun l =>
      { l with reservs := dropFirst (fun r => r.ref == ref && r.fleet == f) l.reservs } :=
  washLane?_onWash w (fun l => { l with reservs := dropFirst (fun r => r.ref == ref && r.fleet == f) l.reservs }) y
    fun _ => rfl

/-- Then a wash lane has no reservation to release. -/
theorem washRelease_absent {w : Nat} {ref : SeekRef} {f : Nat} (p : Placed cap z)
    (absent : (.wash w, ref, f) ∉ heldKeys z.seek.offers) : washRelease w ref f z = z := by
  have none : washHolds z.wash.lanes w ref f = 0 := by rw [← p.washHeld, List.count_eq_zero.2 absent]
  have lanes : updFirst (fun l : WashLane => l.cfg.index == w)
      (fun l => { l with reservs := dropFirst (fun r => r.ref == ref && r.fleet == f) l.reservs }) z.wash.lanes
      = z.wash.lanes := by
    cases hl : z.wash.lanes.find? (·.cfg.index == w) with
    | none => exact updFirst_of_none fun l hm => by simpa using List.find?_eq_none.1 hl l hm
    | some l =>
      obtain ⟨xs, zs, before, after⟩ := updFirst_found hl
        fun l => { l with reservs := dropFirst (fun r => r.ref == ref && r.fleet == f) l.reservs }
      rw [washHolds, hl] at none
      have kept : dropFirst (fun r : WashRes => r.ref == ref && r.fleet == f) l.reservs = l.reservs := by
        refine dropFirst_of_none fun r hr => ?_
        have := List.filter_eq_nil_iff.1 (List.length_eq_zero_iff.1 none) r hr
        simpa using this
      rw [after, kept, ← before]
  exact congrArg (fun ls => { z with wash := { z.wash with lanes := ls } }) lanes

theorem keeps_washRelease_absent {w : Nat} {ref : SeekRef} {f : Nat}
    (absent : (.wash w, ref, f) ∉ heldKeys z.seek.offers) (h : Keeps e y z) : Keeps e y (washRelease w ref f z) :=
  h.trans ⟨fun b => { b with }, fun _ p => (washRelease_absent p absent).symm ▸ p⟩

/-- A bus taken late: the commitment takes a place that is free. -/
theorem keeps_takenLate {res : Resource} {ref : SeekRef} {b : Carried} {t : Yard}
    (absent : z.heldOffer? ref b.fleet = none) (test : commitTest e res b true z = true)
    (ht : insertTaken e res ref b true z = .taken t) (h : Keeps e y z) : Keeps e y t := by
  obtain ⟨u, hu, rfl⟩ := insertTaken_eq_taken ht
  cases res with
  | lane n => exact keeps_laneTaken (ref := ref) (release := b.pin.map (·.release)) test hu h
  | apron fuel => exact keeps_apronTaken (ref := ref) test hu h
  | wash w =>
    have pushed := keeps_pushExpect hu (by simp [Resource.point]) (by simp [Resource.point]) (keeps_addRec _ h)
    obtain ⟨p, -, -, -, rfl⟩ := pushExpect_eq_some.1 hu
    refine keeps_washCall w (keeps_joinWash w b.fleet 0 (fun l hl => ?_) (keeps_washRelease_absent ?_ pushed))
    · rw [washLane?_washRelease] at hl
      obtain ⟨l', hl', rfl⟩ := Option.map_eq_some_iff.1 hl
      have same : z.washLane? w = some l' := by simpa [Yard.washLane?] using hl'
      simp only [commitTest, washCommitTest, same, Bool.not_true, Bool.false_or, Bool.and_eq_true] at test
      have room := wash_room_iff.1 test.2
      have fewer := dropFirst_length_le (fun r : WashRes => r.ref == ref && r.fleet == b.fleet) l'.reservs
      rw [wash_room_iff]
      exact (Nat.add_le_add_left fewer _).trans_lt room
    · simpa using not_mem_heldKeys absent (.wash w)

/-! ## HANDOVER (R65 to R67, R177) -/

theorem keeps_reply (a : Answer) (q : Nat) (ref : SeekRef) (f : Nat) (h : Keeps e y z) :
    Keeps e y (reply e a q ref f z) := keeps_send _ h

theorem keeps_noteTaken (ref : SeekRef) (f : Nat) (h : Keeps e y z) : Keeps e y (noteTaken ref f z) :=
  h.shrinks { Shrinks.refl _ with taken := pushOldest_length_le (by decide) _ _ }

theorem keeps_dropLapsed (ref : SeekRef) (f : Nat) (h : Keeps e y z) : Keeps e y (dropLapsed ref f z) :=
  h.shrinks { Shrinks.refl _ with lapsed := (dropFirst_length_le _ _).trans }

theorem keeps_takeLive {q : Nat} {b : Carried} {ref : SeekRef} {o : OfferEntry}
    (ho : z.heldOffer? ref b.fleet = some o) (h : Keeps e y z) : Keeps e y (takeLive e q o b z) := by
  obtain ⟨rfl, hf, -⟩ := heldOffer?_parts ho
  unfold takeLive
  rw [hf]
  dsimp only
  split
  · rename_i test
    split
    · exact keeps_reply _ _ _ _ (keeps_giveUp ho h)
    · exact keeps_reply _ _ _ _ (keeps_onOffer (fun _ => rfl) (fun _ => .rfl) h)
    · rename_i t ht
      exact keeps_reply _ _ _ _ (keeps_noteTaken _ _ (keeps_takenLive ho test ht h))
  · exact keeps_reply _ _ _ _ (keeps_giveUp ho h)

theorem keeps_takeLate {q : Nat} {b : Carried} {i : LapsedItem} (absent : z.heldOffer? i.ref b.fleet = none)
    (h : Keeps e y z) : Keeps e y (takeLate e q i b z) := by
  unfold takeLate
  split
  · rename_i test
    split
    · exact keeps_reply _ _ _ _ (keeps_dropLapsed _ _ h)
    · exact keeps_reply _ _ _ _ h
    · rename_i t ht
      exact keeps_reply _ _ _ _ (keeps_noteTaken _ _ (keeps_dropLapsed _ _ (keeps_takenLate absent test ht h)))
  · exact keeps_reply _ _ _ _ (keeps_setFlag _ (keeps_dropLapsed _ _ h))

theorem keeps_gateTaken (q : Nat) (ref : SeekRef) (n d : Nat) (b : Carried) (h : Keeps e y z) :
    Keeps e y (gateTaken e q ref n d b z) := by
  have resolved := keeps_resolvePins d b.fleet (keeps_onDuty d (fun x => { x with state := .outbound b.fleet })
    (keeps_removeSeek n (keeps_noteTaken ref b.fleet (keeps_reply .taken q ref b.fleet h))))
  unfold gateTaken
  dsimp only
  split
  · exact keeps_pinRec _ _ resolved
  · exact resolved

theorem keeps_takeAtGate (q : Nat) (ref : SeekRef) (n d : Nat) (b : Carried) (h : Keeps e y z) :
    Keeps e y (takeAtGate e q ref n d b z) := by
  have held := keeps_reply .hold q ref b.fleet (keeps_onSeek (n := n) (g := fun x => { x with timer := some e.heldOn })
    (fun _ => rfl) (fun _ hx => hx) h)
  unfold takeAtGate
  dsimp only
  (repeat' split)
  · exact keeps_reply _ _ _ _ h
  · exact held
  · exact held
  · rename_i t ht
    exact keeps_gateTaken _ _ _ _ _ (keeps_pushExpect ht (by simp) (by simp) (keeps_addRec _ h))
  · exact keeps_reply _ _ _ _ h

theorem lapsed?_parts {ref : SeekRef} {f : Nat} {i : LapsedItem} (h : lapsed? ref f z = some i) :
    i.ref = ref ∧ i.fleet = f := by
  simpa using List.find?_some h

theorem keeps_takeHandover (q : Nat) (ref : SeekRef) (b : Carried) (h : Keeps e y z) :
    Keeps e y (takeHandover e q ref b z) := by
  unfold takeHandover
  cases ho : z.heldOffer? ref b.fleet with
  | some o => exact keeps_takeLive ho h
  | none =>
    dsimp only
    split
    · exact keeps_takeAtGate _ _ _ _ _ h
    · split
      · exact keeps_reply _ _ _ _ h
      · split
        · rename_i i hi
          exact keeps_takeLate ((lapsed?_parts hi).1 ▸ ho) h
        · exact keeps_reply _ _ _ _ (keeps_setFlag _ h)

end Sys2Proof.Machine
end

section
/-! SUPPORT. Commitments that go once their fleet is expected no more: records dropped (R14 to R17) and the travel timeout
(R197). -/

namespace Sys2Proof.Machine

variable {e : Env} {y z z' : Yard} {cap : Nat}

/-! ## Expectations that have gone (R195, R196) -/

theorem find?_onQueue (e : Env) (k : PointKind) (i : Nat) (g : List Expect → List Expect) (y : Yard) :
    (onQueue e k i g y).points.find? (·.is k i) = (y.point? k i).map fun p => { p with queue := g p.queue } := by
  rw [onQueue_points]
  exact find?_updFirst_self (Point.is k i) (fun p => { p with queue := g p.queue }) (fun _ h => h) _

theorem not_expected_removeExpect (k : PointKind) (i f : Nat) (z : Yard) :
    ¬ ExpectedAt (removeExpect e k i f z).points k i f := by
  rintro ⟨p, hp, x, hx, hf⟩
  rw [removeExpect, find?_onQueue] at hp
  obtain ⟨p', -, rfl⟩ := Option.map_eq_some_iff.1 hp
  simp [hf] at hx

/-- No fleet is expected at two points. -/
theorem point_unique {ps : List Point} (once : (expectedFleets ps).Nodup) {p q : Point} (hp : p ∈ ps) (hq : q ∈ ps)
    {f : Nat} (hpf : ∃ x ∈ p.queue, x.fleet = f) (hqf : ∃ x ∈ q.queue, x.fleet = f) : p = q := by
  by_contra hne
  obtain ⟨x, hx, rfl⟩ := hpf
  obtain ⟨x', hx', same⟩ := hqf
  have symm : Std.Symm (Function.onFun List.Disjoint fun p : Point => p.queue.map (·.fleet)) :=
    ⟨fun _ _ h => List.Disjoint.symm h⟩
  have apart := (List.nodup_flatMap.1 once).2.forall hp hq hne
  exact apart (List.mem_map_of_mem hx) (List.mem_map.2 ⟨x', hx', same⟩)

theorem popExpect_some {k : PointKind} {i : Nat} {x : Expect} {t : Yard} (h : popExpect e k i z = (some x, t)) :
    ∃ p rest, z.point? k i = some p ∧ p.queue = x :: rest ∧ t = onQueue e k i (·.drop 1) z := by
  unfold popExpect at h
  split at h
  · rename_i p hp
    split at h
    · rename_i x' rest hq
      cases h
      exact ⟨p, rest, hp, hq, rfl⟩
    · cases h
  · cases h

theorem popExpect_none {k : PointKind} {i : Nat} {t : Yard} (h : popExpect e k i z = (none, t)) : t = z := by
  unfold popExpect at h
  (repeat' split at h) <;> cases h <;> rfl

/-- The fleet popped is expected there no more. -/
theorem not_expected_popped {k : PointKind} {i : Nat} {p : Point} {x : Expect} {rest : List Expect}
    (once : (expectedFleets z.points).Nodup) (hp : z.point? k i = some p) (hq : p.queue = x :: rest) :
    ¬ ExpectedAt (onQueue e k i (·.drop 1) z).points k i x.fleet := by
  rintro ⟨p', hp', x', hx', hf⟩
  rw [find?_onQueue, hp] at hp'
  cases hp'
  have queue := (List.nodup_flatMap.1 once).1 p (List.mem_of_find?_eq_some hp)
  rw [hq, List.map_cons, List.nodup_cons] at queue
  dsimp only at hx'
  rw [hq] at hx'
  exact queue.1 (List.mem_map.2 ⟨x', hx', hf⟩)

/-! ## Commitments released (R99, R101, R119) -/

theorem filter_length_lt {α : Type} {p : α → Bool} {l : List α} {x : α} (hx : x ∈ l) (hp : p x = false) :
    (l.filter p).length < l.length := by
  have total := List.length_eq_length_filter_add (l := l) p
  have some_out : 0 < (l.filter fun a => !p a).length := List.length_pos_of_mem (List.mem_filter.2 ⟨hx, by simp [hp]⟩)
  omega

/-- A lane's commitment of a fleet goes once the fleet is expected there no more; its place is free. -/
theorem keeps_uncommitLane {n f : Nat} {g : Lane → Lane} (cfg : ∀ l, (g l).cfg = l.cfg)
    (reservs : ∀ l, (g l).reservs = l.reservs.filter fun r => !(r.committed && r.fleet == f))
    (fits : Bounded y → Placed e.layout.islandCfg.capacity y → ∀ l, z.lane? n = some l → l.fits → (g l).fits)
    (gone : Bounded y → Placed e.layout.islandCfg.capacity y → ¬ ExpectedAt z.points .laneIn n f)
    (h : Keeps e y z) : Keeps e y (onLane n g z) := by
  refine ⟨fun b => { h.bounded b with lanes := ?_ }, fun b p =>
    { h.placed b p with lanes := ?_, laneHeld := ?_, laneExpected := ?_ }⟩
  · refine forall_updFirst (h.bounded b).lanes fun l _ nodup => ?_
    rw [reservs]
    exact nodup.sublist (List.filter_sublist.map _)
  · exact forall_updFirst (h.placed b p).lanes fun l hl => fits b p l hl
  · intro m ref f' hold
    rcases LaneHolds.of_updFirst cfg hold with ⟨-, old⟩ | ⟨rfl, l, hl, q, hq, held⟩
    · exact (h.placed b p).laneHeld m ref f' old
    · rw [reservs] at hq
      exact (h.placed b p).laneHeld m ref f' ⟨l, hl, q, List.mem_of_mem_filter hq, held⟩
  · intro m f' hx
    have commits := (h.placed b p).laneExpected m f' hx
    by_cases hm : m = n
    · subst hm
      obtain ⟨l, hl, q, hq, rfl, hc⟩ := commits
      have other : q.fleet ≠ f := fun hf => gone b p (hf ▸ hx)
      refine .updFirst_self cfg hl ⟨q, ?_, rfl, hc⟩
      rw [reservs]
      simp [hq, other]
    · exact commits.updFirst_other cfg hm

theorem keeps_laneUncommit {n f : Nat}
    (gone : Bounded y → Placed e.layout.islandCfg.capacity y → ¬ ExpectedAt z.points .laneIn n f)
    (h : Keeps e y z) : Keeps e y (laneUncommit n f z) :=
  keeps_uncommitLane (fun _ => rfl) (fun _ => rfl)
    (fun _ _ _ _ fit => (Nat.add_le_add_left (List.length_filter_le _ _) _).trans fit) gone h

/-- The apron's commitment of a fleet goes likewise. -/
theorem keeps_uncommitApron {f : Nat} {q : List ApronEntry}
    (fits : Bounded y → Placed e.layout.islandCfg.capacity y →
      q.length + (z.fuel.reservs.filter fun r => !(r.committed && r.fleet == f)).length ≤ e.layout.islandCfg.capacity)
    (gone : Bounded y → Placed e.layout.islandCfg.capacity y → ∀ i, ¬ ExpectedAt z.points .apronIn i f)
    (h : Keeps e y z) : Keeps e y { z with fuel := { z.fuel with
      queue := q, reservs := z.fuel.reservs.filter fun r => !(r.committed && r.fleet == f) } } := by
  refine ⟨fun b => { h.bounded b with apron := (h.bounded b).apron.sublist (List.filter_sublist.map _) }, fun b p =>
    { h.placed b p with apron := fits b p, apronHeld := ?_, apronExpected := ?_ }⟩
  · rintro fuel ref f' ⟨r, hr, held⟩
    exact (h.placed b p).apronHeld fuel ref f' ⟨r, List.mem_of_mem_filter hr, held⟩
  · intro i f' hx
    obtain ⟨rfl, r, hr, rfl, hc⟩ := (h.placed b p).apronExpected i f' hx
    have other : r.fleet ≠ f := fun hf => gone b p 0 (hf ▸ hx)
    exact ⟨rfl, r, by simp [hr, other], rfl, hc⟩

theorem keeps_apronUncommit {f : Nat}
    (gone : Bounded y → Placed e.layout.islandCfg.capacity y → ∀ i, ¬ ExpectedAt z.points .apronIn i f)
    (h : Keeps e y z) : Keeps e y (apronUncommit f z) :=
  keeps_uncommitApron (q := z.fuel.queue)
    (fun b p => (Nat.add_le_add_left (List.length_filter_le _ _) _).trans (h.placed b p).apron) gone h

/-! ## A record dropped (R14 to R17) -/

/-- No bus is expected at an apron point but the first. -/
theorem not_expected_apron {f : Nat} (h : Keeps e y z) (gone : ¬ ExpectedAt z.points .apronIn 0 f) (b : Bounded y)
    (p : Placed e.layout.islandCfg.capacity y) (i : Nat) : ¬ ExpectedAt z.points .apronIn i f := by
  intro hx
  obtain ⟨rfl, -⟩ := (h.placed b p).apronExpected i f hx
  exact gone hx

theorem keeps_lookForHeads_freePump (p : Nat) (h : Keeps e y z) : Keeps e y (lookForHeads e (freePump e p z)) :=
  keeps_lookForHeads (keeps_freePump _ h)

theorem keeps_endCall (loc : Loc) (f : Nat) (h : Keeps e y z) : Keeps e y (endCall e loc f z) := by
  unfold endCall
  split
  · exact keeps_washCall _ (keeps_removeExpect _ _ _ (keeps_setWash_state (fun _ => ⟨rfl, rfl, rfl⟩) h))
  · split
    · exact keeps_lookForHeads_freePump _ h
    · exact h

theorem keeps_endExpected {loc : Loc} {f : Nat} (h : Keeps e y z) : Keeps e y (releaseCommitment loc f
    (match loc.expectPoint with
      | some (k, i) => removeExpect e k i f z
      | none => z)) := by
  cases loc with
  | lane n => exact keeps_laneUncommit (fun _ _ => not_expected_removeExpect _ _ _ _) (keeps_removeExpect .laneIn n f h)
  | apron =>
    have removed := keeps_removeExpect .apronIn 0 f h
    exact keeps_apronUncommit (not_expected_apron removed (not_expected_removeExpect _ _ _ _)) removed
  | wash w =>
    exact keeps_onWash (fun _ _ => .of_queue rfl (List.length_filter_le _ _) rfl) (keeps_removeExpect .washIn w f h)
  | _ => exact h

theorem keeps_endEntries (r : Record) (h : Keeps e y z) : Keeps e y (endEntries e r z) := by
  unfold endEntries
  dsimp only
  split
  · exact keeps_cancelBusSeek _ h
  · exact keeps_cancelBusSeek _ h
  · have dropped := keeps_dropExitOffer r.bus.fleet (keeps_dropPendingExit r.bus.fleet h)
    split
    · exact keeps_leavePosition _ _ dropped
    · exact dropped
  · exact keeps_endExpected h
  · exact keeps_recallFor _ (keeps_removeExpect _ _ _ h)
  · exact keeps_dropApronEntry _ h
  · exact keeps_endCall _ _ h
  · exact h

theorem keeps_dropRecord (f : Nat) (h : Keeps e y z) : Keeps e y (dropRecord e f z) := by
  unfold dropRecord
  split
  · exact h
  · exact keeps_removeRec _ (keeps_endEntries _ (keeps_notify _ _ _ _ h))

theorem keeps_custodyCheck (f q : Nat) (ref : SeekRef) (h : Keeps e y z) : Keeps e y (custodyCheck e f q ref z).2 := by
  unfold custodyCheck
  (repeat' split)
  · exact h
  · exact keeps_send _ h
  · exact keeps_dropRecord _ h

theorem keeps_repin (f : Nat) (pin : Option Pin) (h : Keeps e y z) : Keeps e y (repin f pin z) := by
  have pinned := keeps_onRec f (Record.setPin pin) h
  unfold repin
  (repeat' split)
  · exact h
  · exact keeps_laneRepin _ _ _ pinned
  · exact pinned

/-! ## The travel timeout (R101, R119, R181, R197) -/

theorem expectation?_eq_some {f : Nat} {p : Point} {x : Expect} (h : z.expectation? f = some (p, x)) :
    p ∈ z.points ∧ ∃ x ∈ p.queue, x.fleet = f := by
  unfold Yard.expectation? at h
  split at h
  · rename_i p' hp
    obtain ⟨x', hx, same⟩ := Option.map_eq_some_iff.1 h
    cases same
    exact ⟨List.mem_of_find?_eq_some hp, x, List.mem_of_find?_eq_some hx, by simpa using List.find?_some hx⟩
  · cases h

theorem ExpectedAt.of_removeExpect {k k' : PointKind} {i i' f f' : Nat}
    (h : ExpectedAt (removeExpect e k i f z).points k' i' f') : ExpectedAt z.points k' i' f' := by
  have shrinks : PointsShrink z.points (removeExpect e k i f z).points := by
    rw [removeExpect, onQueue_points]
    exact .of_forall₂ (updFirst_forall₂ Point.Shrinks.refl fun p _ => ⟨rfl, (List.filter_sublist.map _).subperm⟩)
  exact shrinks.expected h

/-- A bus that has not appeared at an apron point is expected at no other. -/
theorem not_expected_timedOut {f : Nat} {p : Point} {x : Expect} (hx : z.expectation? f = some (p, x))
    (h : Keeps e y z) (b : Bounded y) (pl : Placed e.layout.islandCfg.capacity y) (i : Nat) :
    ¬ ExpectedAt (removeExpect e .apronIn p.cfg.index f z).points .apronIn i f := by
  intro expected
  obtain ⟨hp, hf⟩ := expectation?_eq_some hx
  by_cases hi : i = p.cfg.index
  · exact not_expected_removeExpect _ _ _ _ (hi ▸ expected)
  · obtain ⟨q, hq, hqf⟩ := expected.of_removeExpect
    have same := point_unique (h.placed b pl).once hp (List.mem_of_find?_eq_some hq) hf hqf
    have place := List.find?_some hq
    simp only [Point.is, Bool.and_eq_true, beq_iff_eq] at place
    exact hi (place.2.symm.trans (same ▸ rfl))

theorem keeps_ownerTimeout {f : Nat} {p : Point} {x : Expect} (hx : z.expectation? f = some (p, x)) (st : RecState)
    (h : Keeps e y z) :
    Keeps e y (ownerTimeout e p.cfg.kind p.cfg.index f (loseRec f st (removeExpect e p.cfg.kind p.cfg.index f z))) := by
  have removed := keeps_loseRec f st (keeps_removeExpect p.cfg.kind p.cfg.index f h)
  unfold ownerTimeout
  cases hk : p.cfg.kind with
  | laneIn =>
    rw [hk] at removed
    exact keeps_laneUncommit (fun _ _ => not_expected_removeExpect _ _ _ _) removed
  | apronIn =>
    rw [hk] at removed
    exact keeps_apronUncommit (not_expected_timedOut hx h) removed
  | gateOut =>
    rw [hk] at removed
    exact keeps_recallFor _ removed
  | _ =>
    rw [hk] at removed
    exact removed

theorem keeps_travelTimeout (f : Nat) (h : Keeps e y z) : Keeps e y (travelTimeout e f z) := by
  unfold travelTimeout
  split
  · split
    · exact h
    · exact keeps_settle (keeps_notify _ _ _ _ (keeps_ownerTimeout ‹_› _ h))
  · exact h

end Sys2Proof.Machine
end

section
/-! SUPPORT. The rules of Keeps for the point tracker (R191 to R197): an expected bus arrives, and its commitment becomes its
place. -/

namespace Sys2Proof.Machine

variable {e : Env} {y z z' t : Yard} {cap : Nat}

/-! ## An expected bus arrives (R99, R118, R147, R180) -/

/-- The commitment of the fleet becomes its position at the rear. -/
def Lane.arrive (f : Nat) (l : Lane) : Lane :=
  { l with positions := l.positions ++ [⟨f, .parked⟩]
           reservs := l.reservs.filter fun r => !(r.committed && r.fleet == f) }

theorem laneArrival_lanes (n f : Nat) (y : Yard) : (laneArrival e n f y).lanes = (onLane n (Lane.arrive f) y).lanes := by
  simp only [laneArrival, onPositions_lanes, onLane, onRec, laneUncommit]
  rw [updFirst_updFirst]
  · rfl
  · exact fun _ => rfl

theorem Lane.arrive_fits {f : Nat} {l : Lane} (fits : l.fits) (listed : ∃ q ∈ l.reservs, q.fleet = f ∧ q.committed = true) :
    (l.arrive f).fits := by
  obtain ⟨q, hq, hf, hc⟩ := listed
  have shorter := filter_length_lt (p := fun r : LaneRes => !(r.committed && r.fleet == f)) hq (by simp [hf, hc])
  simp only [Lane.fits, Lane.arrive, List.length_append, List.length_singleton] at fits ⊢
  omega

theorem expectedAt_of_point {k : PointKind} {i : Nat} {p : Point} {x : Expect} {rest : List Expect}
    (hp : z.point? k i = some p) (hq : p.queue = x :: rest) : ExpectedAt z.points k i x.fleet :=
  ⟨p, hp, x, hq ▸ .head _, rfl⟩

theorem ExpectedAt.of_popped {k k' : PointKind} {i i' f : Nat}
    (h : ExpectedAt (onQueue e k i (·.drop 1) z).points k' i' f) : ExpectedAt z.points k' i' f := by
  have shrinks : PointsShrink z.points (onQueue e k i (·.drop 1) z).points := by
    rw [onQueue_points]
    exact .of_forall₂ (updFirst_forall₂ Point.Shrinks.refl fun p _ =>
      ⟨rfl, ((List.drop_sublist 1 _).map _).subperm⟩)
  exact shrinks.expected h

section Popped

variable {i : Nat} {p : Point} {x : Expect} {rest : List Expect}

theorem keeps_popped (k : PointKind) (i : Nat) (h : Keeps e y z) : Keeps e y (onQueue e k i (·.drop 1) z) :=
  keeps_onQueue (fun _ => ((List.drop_sublist 1 _).map _).subperm) h

theorem keeps_laneArrival (hp : z.point? .laneIn i = some p) (hq : p.queue = x :: rest) (h : Keeps e y z) :
    Keeps e y (laneArrival e i x.fleet (onQueue e .laneIn i (·.drop 1) z)) := by
  have parked : Keeps e y (onLane i (Lane.arrive x.fleet) (onQueue e .laneIn i (·.drop 1) z)) := by
    refine keeps_uncommitLane (fun _ => rfl) (fun _ => rfl) (fun b pl l hl fits => ?_)
      (fun b pl => not_expected_popped (h.placed b pl).once hp hq) (keeps_popped _ _ h)
    obtain ⟨l', hl', listed⟩ := (h.placed b pl).laneExpected i x.fleet (expectedAt_of_point hp hq)
    have same : z.lane? i = some l := by simpa [Yard.lane?] using hl
    rw [Yard.lane?, hl', Option.some.injEq] at same
    exact Lane.arrive_fits fits (same ▸ listed)
  refine parked.same ?_
  simp only [Yard.lists, laneArrival_lanes]
  simp [laneArrival]

theorem keeps_apronArrival (hp : z.point? .apronIn i = some p) (hq : p.queue = x :: rest) (h : Keeps e y z) :
    Keeps e y (apronArrival e x.fleet (onQueue e .apronIn i (·.drop 1) z)) := by
  have popped := keeps_popped .apronIn i h
  have gone : Bounded y → Placed e.layout.islandCfg.capacity y → ∀ j,
      ¬ ExpectedAt (onQueue e .apronIn i (·.drop 1) z).points .apronIn j x.fleet := by
    intro b pl j hj
    obtain ⟨rfl, -⟩ := (h.placed b pl).apronExpected j x.fleet hj.of_popped
    obtain ⟨rfl, -⟩ := (h.placed b pl).apronExpected i x.fleet (expectedAt_of_point hp hq)
    exact not_expected_popped (h.placed b pl).once hp hq hj
  have queued : ∀ en, Keeps e y { onQueue e .apronIn i (·.drop 1) z with fuel :=
      { (onQueue e .apronIn i (·.drop 1) z).fuel with
        queue := (onQueue e .apronIn i (·.drop 1) z).fuel.queue ++ [en]
        reservs := (onQueue e .apronIn i (·.drop 1) z).fuel.reservs.filter fun r => !(r.committed && r.fleet == x.fleet) } } := by
    refine fun en => keeps_uncommitApron (fun b pl => ?_) gone popped
    obtain ⟨-, q, hq, hf, hc⟩ := (h.placed b pl).apronExpected i x.fleet (expectedAt_of_point hp hq)
    have shorter := filter_length_lt (p := fun r : ApronRes => !(r.committed && r.fleet == x.fleet)) hq (by simp [hf, hc])
    have fits := (h.placed b pl).apron
    simp only [onQueue_frame, List.length_append, List.length_singleton]
    omega
  have left := keeps_apronUncommit gone popped
  unfold apronArrival
  dsimp only
  split
  · exact left
  · split
    · exact keeps_settle (keeps_lookForHeads (keeps_placeRec _ _ _ (queued _)))
    · exact keeps_settle (keeps_enterSeeking _ (keeps_placeRec _ _ _ left))

/-- A popped entry handed back leaves the queue as it was. -/
theorem keeps_handBack {k : PointKind} (hp : z.point? k i = some p) (hq : p.queue = x :: rest) (h : Keeps e y z) :
    Keeps e y (handBack e k i x (onQueue e k i (·.drop 1) z)) := by
  have both : (handBack e k i x (onQueue e k i (·.drop 1) z)).points
      = updFirst (·.is k i) (fun p => { p with queue := x :: p.queue.drop 1 }) z.points := by
    rw [handBack, onQueue_points, onQueue_points, updFirst_updFirst]
    exact fun _ => rfl
  refine h.shrinks ?_
  constructor
  case points =>
    rw [both]
    refine .of_forall₂ (updFirst_forall₂ Point.Shrinks.refl fun p' hp' => ⟨rfl, ?_⟩)
    have same : z.point? k i = some p' := hp'
    rw [hp, Option.some.injEq] at same
    simpa [← same, hq] using List.Subperm.refl _
  all_goals simp [handBack]

theorem keeps_washArrival (hp : z.point? .washIn i = some p) (hq : p.queue = x :: rest) (h : Keeps e y z) :
    Keeps e y (washArrival e i x (onQueue e .washIn i (·.drop 1) z)) := by
  have back := keeps_handBack hp hq h
  unfold washArrival
  split
  · exact keeps_popped _ _ h
  · split
    · exact keeps_placeRec _ _ _ (keeps_setWash_state (fun _ => ⟨rfl, rfl, rfl⟩) (keeps_popped _ _ h))
    · dsimp only
      split
      · exact back
      · exact keeps_notify _ _ _ _ back

end Popped

theorem keeps_exitPassage (f : Nat) (h : Keeps e y z) : Keeps e y (exitPassage e f z) := by
  have left := keeps_removeRec f h
  unfold exitPassage
  dsimp only
  split
  · exact keeps_removeDuty _ (keeps_notify _ _ _ _ left)
  · exact left

theorem keeps_intruder (k : PointKind) (i : Nat) (h : Keeps e y z) : Keeps e y (intruder e k i z) := by
  cases k with
  | washIn =>
    unfold intruder washIntruder
    dsimp only
    split
    · exact h
    · split
      · exact h
      · exact keeps_notify _ _ _ _ h
  | laneIn => exact keeps_notify _ _ _ _ h
  | apronIn => exact keeps_notify _ _ _ _ h
  | gateOut => exact keeps_notify _ _ _ _ h
  | _ => exact h

theorem keeps_arrival {k : PointKind} {i : Nat} {x : Expect} (ht : popExpect e k i z = (some x, t)) (h : Keeps e y z) :
    Keeps e y (arrival e k i x t) := by
  obtain ⟨p, rest, hp, hq, rfl⟩ := popExpect_some ht
  cases k with
  | laneIn => exact keeps_laneArrival hp hq h
  | apronIn => exact keeps_apronArrival hp hq h
  | washIn => exact keeps_washArrival hp hq h
  | gateOut => exact keeps_exitPassage _ (keeps_popped _ _ h)
  | _ => exact keeps_popped _ _ h

/-! ## Contacts (R191, R192, R195, R203) -/

theorem keeps_arriveAt (k : PointKind) (i : Nat) (h : Keeps e y z) : Keeps e y (arriveAt e k i z) := by
  unfold arriveAt
  split
  · split
    · exact keeps_arrival ‹_› h
    · exact popExpect_none ‹_› ▸ keeps_intruder _ _ h
  · split
    · exact keeps_crossArrive h
    · exact keeps_bayArrive _ h
    · exact h

theorem keeps_laneExit (n : Nat) (h : Keeps e y z) : Keeps e y (laneExit e n z) := by
  have left : Keeps e y (onPositions e n (·.drop 1) z) :=
    keeps_onPositions (fun _ => (List.drop_sublist 1 _).length_le) h
  unfold laneExit
  split
  · exact h.same rfl
  · split
    · exact left
    · exact keeps_notify _ _ _ _ (keeps_loseRec _ _ left)
    · exact keeps_notify _ _ _ _ (keeps_dropExitOffer _ (keeps_loseRec _ _ left))

theorem keeps_clearAt (k : PointKind) (i : Nat) (h : Keeps e y z) : Keeps e y (clearAt e k i z) := by
  have unlit : Keeps e y (match k.sign i with
      | some n => setSign e n 0 z
      | none => z) := by
    split
    · exact keeps_setSign _ _ h
    · exact h
  unfold clearAt
  dsimp only
  cases k with
  | bay => exact keeps_bayClear _ unlit
  | washIn => exact keeps_washInClear _ unlit
  | washOut => exact keeps_washOutClear _ unlit
  | laneIn => exact keeps_laneEntryClear _ unlit
  | laneOut => exact keeps_laneExit _ unlit
  | _ => exact unlit

theorem keeps_dwellAt (k : PointKind) (i : Nat) (h : Keeps e y z) : Keeps e y (dwellAt e k i z) := by
  cases k with
  | laneIn => exact keeps_laneDwell _ h
  | washIn => exact keeps_washDwell _ h
  | _ => exact h

theorem keeps_setDwell (row col : Nat) (d : Option Nat) (h : Keeps e y z) : Keeps e y (setDwell row col d z) :=
  h.shrinks { Shrinks.refl _ with points := .of_forall₂ (updFirst_forall₂ Point.Shrinks.refl fun _ _ => ⟨rfl, .refl _⟩) }

theorem keeps_contactEvent (row : Nat) (ev : Nat × Bool) (h : Keeps e y z) : Keeps e y (contactEvent e row z ev) := by
  unfold contactEvent
  split
  · exact h
  · split
    · exact keeps_settle (keeps_arriveAt _ _ (keeps_setDwell _ _ _ h))
    · exact keeps_settle (keeps_clearAt _ _ (keeps_setDwell _ _ _ h))

theorem keeps_dwellExpiry (row col : Nat) (h : Keeps e y z) : Keeps e y (dwellExpiry e row col z) := by
  unfold dwellExpiry
  (repeat' split)
  · exact h
  · exact h
  · exact keeps_dwellAt _ _ (keeps_setDwell _ _ _ h)
  · exact keeps_dwellAt _ _ (keeps_setDwell _ _ _ h)

theorem keeps_signSent (h : Keeps e y z) : Keeps e y (signSent z) := by
  unfold signSent
  split
  · exact h
  · exact h.same rfl

end Sys2Proof.Machine
end

section
/-! SUPPORT. The rules of Keeps for the events of the line, the frames received, the timers and the tag reader. -/

namespace Sys2Proof.Machine

variable {e : Env} {y z z' t : Yard} {cap : Nat}

/-! ## Openings (R23 to R32) -/

theorem keeps_beginSend (s : TxSlot) (h : Keeps e y z) : Keeps e y (beginSend e s z) := by
  unfold beginSend
  exact h.shrinks { Shrinks.refl _ with queue := (updFirst_length _ _ _).le.trans }

theorem keeps_offersLost (h : Keeps e y z) : Keeps e y (offersLost e z) :=
  keeps_refillTx (h.shrinks { Shrinks.refl _ with
    queue := (List.length_filter_le _ _).trans
    offers := (Nat.add_le_add_left (Nat.zero_le _) _).trans })

theorem keeps_endOpening (next : Option SeekRef) (pooled : Bool) (h : Keeps e y z) :
    Keeps e y (endOpening e next pooled z) := by
  have lost : Keeps e y (offersLost e { z with line := { z.line with
      curOffer := none, nextOffer := next, checkSlot := false } }) := keeps_offersLost (h.same rfl)
  unfold endOpening
  dsimp only
  (repeat' split)
  · exact keeps_noOffer _ lost
  · exact lost
  · exact lost
  · exact lost
  · exact lost

theorem keeps_opening (others : Option ArbKey) (h : Keeps e y z) : Keeps e y (opening e others z) := by
  have given : Keeps e y { z with line := { z.line with curOffer := z.line.nextOffer, nextOffer := none } } := h.same rfl
  unfold opening
  dsimp only
  (repeat' split)
  · exact h
  · exact keeps_beginSend _ given
  · exact keeps_beginSend _ given
  · exact given
  · exact given
  · exact keeps_settle (keeps_endOpening _ _ given)

/-! ## Carried and damaged frames (R31 to R38) -/

theorem keeps_handoverSent (r : TxReq) (h : Keeps e y z) : Keeps e y (handoverSent e r z) := by
  cases r with
  | handover n =>
    refine keeps_onSeek (fun x => ?_) (fun x hx => ?_) h
    · split <;> rfl
    · split <;> exact hx
  | exitHandover ref f =>
    refine keeps_onOffer (fun x => ?_) (fun x => ?_) h
    · split <;> rfl
    · split <;> rfl
  | _ => exact h

theorem keeps_reportCarried (r : TxReq) (h : Keeps e y z) : Keeps e y (reportCarried e r z) := by
  cases r with
  | seek n =>
    refine keeps_onSeek (fun x => ?_) (fun x hx => ?_) h
    · split <;> rfl
    · split <;> exact hx
  | offer => exact keeps_offerWon h
  | _ =>
    unfold reportCarried
    exact keeps_handoverSent _ h

theorem keeps_reportDropped (r : TxReq) (h : Keeps e y z) : Keeps e y (reportDropped e r z) := by
  cases r with
  | seek n =>
    unfold reportDropped
    dsimp only
    (repeat' split)
    · exact keeps_noOffer _ h
    · exact h
    · exact h
  | _ =>
    unfold reportDropped
    exact keeps_handoverSent _ h

theorem keeps_dropSending (h : Keeps e y z) : Keeps e y (dropSending e z) :=
  keeps_refillTx (h.shrinks { Shrinks.refl _ with queue := (dropFirst_length_le _ _).trans })

theorem keeps_poolFrame (r : RawFrame) (h : Keeps e y z) : Keeps e y (poolFrame e r z) := by
  unfold poolFrame
  split
  · exact keeps_setFlag _ (h.same rfl)
  · split
    · rename_i room
      refine h.shrinks { Shrinks.refl _ with pool := fun _ => ?_ }
      rw [countReceived, List.length_append]
      exact room
    · exact keeps_setFlag _ (h.same rfl)

theorem keeps_otherCarried (r : RawFrame) (h : Keeps e y z) : Keeps e y (otherCarried e r z) := by
  unfold otherCarried
  dsimp only
  split
  · exact keeps_endOpening _ _ (keeps_poolFrame _ h)
  · exact keeps_endOpening _ _ h

theorem keeps_ownCarried (s : TxSlot) (h : Keeps e y z) : Keeps e y (ownCarried e s z) := by
  have sent : Keeps e y (countSent (dropSending e z)) := (keeps_dropSending h).same rfl
  unfold ownCarried
  dsimp only
  split
  · exact keeps_endOpening _ _ sent
  · exact keeps_endOpening _ _ (keeps_reportCarried _ sent)

theorem keeps_frameCarried (bits : List Bool) (h : Keeps e y z) : Keeps e y (frameCarried e bits z) := by
  unfold frameCarried
  (repeat' split)
  · exact h
  · exact h
  · exact keeps_settle (keeps_ownCarried _ h)
  · exact h
  · exact keeps_settle (keeps_otherCarried _ h)

theorem keeps_frameDamaged (d : Damage) (h : Keeps e y z) : Keeps e y (frameDamaged e d z) := by
  have counted : Keeps e y (if d.found then countCrcBad z else z) := by
    split
    · exact h.same rfl
    · exact h
  unfold frameDamaged
  split
  · exact h
  · exact keeps_settle ((keeps_endOpening none false counted).same rfl)

theorem keeps_sendDamaged (h : Keeps e y z) : Keeps e y (sendDamaged e z) := by
  have counted : Keeps e y (countTxDamaged z) := h.same rfl
  have dropped : Keeps e y (countTxDropped (dropSending e (countTxDamaged z))) := (keeps_dropSending counted).same rfl
  unfold sendDamaged
  split
  · exact h
  · refine keeps_settle (keeps_endOpening _ _ ?_)
    (repeat' split)
    · exact keeps_dropSending counted
    · exact dropped
    · exact counted.shrinks { Shrinks.refl _ with queue := (updFirst_length _ _ _).le.trans }
    · exact keeps_reportDropped _ (keeps_setFlag _ dropped)

/-! ## SEEK and OFFER received (R53, R55, R72) -/

/-- The mark of a cost cut to 4095 (R79). -/
theorem keeps_markSaturated (c : Prop) [Decidable c] (h : Keeps e y z) :
    Keeps e y (if c then { z with saturated := true } else z) := by
  split
  · exact h.same rfl
  · exact h

theorem offers_markSaturated (c : Prop) [Decidable c] (z : Yard) :
    (if c then { z with saturated := true } else z).seek.offers = z.seek.offers := by
  split <;> rfl

theorem keeps_makeOffer (ref : SeekRef) (what : Summary) (c : Candidate) (room : z.seek.offers.length < 8)
    (h : Keeps e y z) : Keeps e y (makeOffer e ref what c z) := by
  have marked := keeps_markSaturated (4095 < c.raw) h
  have offers := offers_markSaturated (4095 < c.raw) z
  unfold makeOffer
  dsimp only
  generalize (if 4095 < c.raw then { z with saturated := true } else z) = x at marked offers ⊢
  split
  · refine keeps_enterTx _ ‹_› (marked.shrinks { Shrinks.refl _ with offers := fun _ => ?_ })
    simpa [offers] using room
  · exact marked.same rfl

theorem keeps_seekCheck (q : Nat) (ref : SeekRef) (what : Summary) (h : Keeps e y z) :
    Keeps e y (seekCheck e q ref what z).2 := by
  cases what with
  | push s b => exact keeps_custodyCheck _ _ _ h
  | pull d => exact h

theorem keeps_decideOffer (q : Nat) (ref : SeekRef) (excl : List Nat) (what : Summary) (h : Keeps e y z) :
    Keeps e y (decideOffer e q ref excl what z) := by
  have checked := keeps_seekCheck q ref what h
  unfold decideOffer
  dsimp only
  split
  · exact checked
  · rename_i free
    simp only [Bool.or_eq_true, decide_eq_true_eq, not_or, Nat.not_le] at free
    split
    · exact keeps_makeOffer _ _ _ free.2 checked
    · exact checked

theorem keeps_takeSeek {f : Frame} (ht : takeSeek z = some (f, t)) (h : Keeps e y z) : Keeps e y t := by
  obtain ⟨g, -, same⟩ := Option.map_eq_some_iff.1 ht
  cases same
  exact h.shrinks { Shrinks.refl _ with pool := (dropFirst_length_le _ _).trans }

theorem keeps_seekReceived (h : Keeps e y z) : Keeps e y (seekReceived e z) := by
  unfold seekReceived
  split
  · exact h
  · have taken := keeps_takeSeek ‹_› h
    split
    · exact keeps_settle (keeps_decideOffer _ _ _ _ taken)
    · exact taken

theorem keeps_dropHead (h : Keeps e y z) : Keeps e y (dropHead z) :=
  h.shrinks { Shrinks.refl _ with pool := (dropFirst_length_le _ _).trans }

theorem keeps_takePushOffer (n f : Nat) (w : Winner) (h : Keeps e y z) : Keeps e y (takePushOffer e n f w z) := by
  have handed := keeps_onRec f (fun r => { r with state := .handing }) (keeps_onSeek (n := n) (g := fun x =>
    { x with winner := some w, state := .handing .sending, attempts := 0, timer := none })
    (fun _ => rfl) (fun _ hx => hx) h)
  exact keeps_send _ (handed.same rfl)

theorem keeps_offerCheck (q : Nat) (ref : SeekRef) (f : Option Nat) (h : Keeps e y z) :
    Keeps e y (offerCheck e q ref f z).2 := by
  cases f with
  | some f => exact keeps_custodyCheck _ _ _ h
  | none => exact h

theorem keeps_cancelOffer (q : Nat) (ref : SeekRef) (f : Option Nat) (h : Keeps e y z) :
    Keeps e y (cancelOffer e q ref f z) := by
  unfold cancelOffer
  (repeat' split)
  · exact keeps_send _ h
  · exact keeps_send _ h
  · exact keeps_send _ (h.same rfl)

theorem keeps_takeOffer (q : Nat) (ref : SeekRef) (cost area : Nat) (f : Option Nat) (h : Keeps e y z) :
    Keeps e y (takeOffer e q ref cost area f z) := by
  have checked := keeps_offerCheck q ref f h
  unfold takeOffer
  dsimp only
  split
  · split
    · exact keeps_takePushOffer _ _ _ h
    · split
      · exact keeps_excludeAndRetry _ _ checked
      · exact keeps_onSeek (fun _ => rfl) (fun _ hx => hx) checked
  · split
    · exact keeps_cancelOffer _ _ _ checked
    · exact checked

theorem keeps_offerReceived (h : Keeps e y z) : Keeps e y (offerReceived e z) := by
  unfold offerReceived
  split
  · exact keeps_settle (keeps_takeOffer _ _ _ _ _ (keeps_dropHead h))
  · exact h

/-! ## Answers received (R59 to R64, R69) -/

theorem keeps_withdrawHandover (n : Nat) (h : Keeps e y z) : Keeps e y (withdrawHandover e n z) := keeps_withdraw _ h

theorem keeps_withdrawExit (ref : SeekRef) (f : Nat) (h : Keeps e y z) : Keeps e y (withdrawExit e ref f z) :=
  keeps_withdraw _ h

theorem keeps_lightDirection (loc : Loc) (area : Nat) (sv : Service) (h : Keeps e y z) :
    Keeps e y (lightDirection e loc area sv z) := by
  unfold lightDirection
  split
  · exact keeps_setSign _ _ h
  · exact h

theorem keeps_handoverTaken (en : SeekEntry) (f : Nat) (w : Winner) (h : Keeps e y z) :
    Keeps e y (handoverTaken e en f w z) := by
  have retired := keeps_removeRec f (keeps_removeSeek en.number (keeps_withdrawHandover en.number h))
  unfold handoverTaken
  dsimp only
  split
  · exact keeps_lightDirection _ _ _ retired
  · exact retired

theorem keeps_exitTaken (o : OfferEntry) (h : Keeps e y z) : Keeps e y (exitTaken e o z) := by
  have left : Keeps e y (match o.resource.laneNo with
      | some l => leavePosition e l o.fleet z
      | none => z) := by
    split
    · exact keeps_leavePosition _ _ h
    · exact h
  exact keeps_removeRec _ (keeps_removeOffer_exit _ _ (keeps_withdrawExit _ _ left))

theorem keeps_exitFailed (o : OfferEntry) (h : Keeps e y z) : Keeps e y (exitFailed e o z) :=
  keeps_endCallOut _ (keeps_notify _ _ _ _ h)

theorem keeps_pushHold (en : SeekEntry) (h : Keeps e y z) : Keeps e y (pushHold e en z) := by
  have withdrawn := keeps_withdrawHandover en.number h
  unfold pushHold
  dsimp only
  split
  · exact keeps_onSeek (fun _ => rfl) (fun _ hx => hx) withdrawn
  · exact keeps_handoverFailed _ withdrawn

theorem keeps_exitHold (o : OfferEntry) (h : Keeps e y z) : Keeps e y (exitHold e o z) := by
  unfold exitHold
  split
  · exact keeps_onOffer_exit (fun _ => rfl) (fun _ => by simp) (keeps_withdrawExit _ _ h)
  · exact keeps_exitFailed _ h

theorem keeps_pushRefused (en : SeekEntry) (f : Nat) (w : Winner) (h : Keeps e y z) :
    Keeps e y (pushRefused e en f w z) :=
  keeps_excludeAndRetry _ _ (keeps_enterSeeking _ (keeps_withdrawHandover _ h))

theorem keeps_takeAnswer (a : Answer) (q : Nat) (ref : SeekRef) (f : Nat) (h : Keeps e y z) :
    Keeps e y (takeAnswer e a q ref f z) := by
  unfold takeAnswer
  split
  · split
    · exact keeps_handoverTaken _ _ _ h
    · exact keeps_pushHold _ h
    · exact keeps_pushRefused _ _ _ h
    · exact h
  · split
    · cases a with
      | taken => exact keeps_exitTaken _ h
      | hold => exact keeps_exitHold _ h
      | refuse => exact keeps_endCallOut _ h
    · exact h.same rfl

theorem keeps_answerReceived (a : Answer) (h : Keeps e y z) : Keeps e y (answerReceived e a z) := by
  unfold answerReceived
  split
  · split
    · exact keeps_settle (keeps_takeAnswer _ _ _ _ (keeps_dropHead h))
    · exact h
  · exact h

/-! ## HANDOVER, CLAIM, CANCEL, REPIN and TIME received (R17, R19, R46, R47, R65, R71) -/

theorem keeps_handoverReceived (h : Keeps e y z) : Keeps e y (handoverReceived e z) := by
  unfold handoverReceived
  split
  · exact keeps_settle (keeps_takeHandover _ _ _ (keeps_dropHead h))
  · exact h

theorem keeps_claimReceived (h : Keeps e y z) : Keeps e y (claimReceived e z) := by
  unfold claimReceived
  split
  · exact keeps_settle (keeps_dropRecord _ (keeps_dropHead h))
  · exact h

theorem keeps_takeCancel (ref : SeekRef) (f : Nat) (h : Keeps e y z) : Keeps e y (takeCancel e ref f z) := by
  unfold takeCancel
  split
  · exact keeps_giveUp ‹_› h
  · split
    · exact keeps_endCallOut _ h
    · exact keeps_dropLapsed _ _ h

theorem keeps_cancelReceived (h : Keeps e y z) : Keeps e y (cancelReceived e z) := by
  unfold cancelReceived
  split
  · exact keeps_settle (keeps_takeCancel _ _ (keeps_dropHead h))
  · exact h

theorem keeps_repinReceived (h : Keeps e y z) : Keeps e y (repinReceived z) := by
  unfold repinReceived
  split
  · exact keeps_repin _ _ (keeps_dropHead h)
  · exact h

theorem keeps_withdrawTime (m : Nat) (h : Keeps e y z) : Keeps e y (withdrawTime e m z) := keeps_withdraw _ h

theorem keeps_announce (seen : Option Nat) (n : Nat) (h : Keeps e y z) : Keeps e y (announce e seen n z) := by
  have sent : Keeps e y (send e (.time n) (withdraw e TxReq.isTime z)) := keeps_send _ (keeps_withdraw _ h)
  cases seen with
  | none => exact sent
  | some v =>
    unfold announce
    dsimp only
    split
    · exact h
    · exact sent

/-! ## The seek engine's timers (R54, R57, R61, R63, R68, R69) -/

theorem keeps_retryExpiry (n : Nat) (h : Keeps e y z) : Keeps e y (retryExpiry e n z) := by
  unfold retryExpiry
  (repeat' split)
  · exact keeps_newRound _ h
  · exact h
  · exact h

theorem keeps_offerHoldExpiry (ref : SeekRef) (f : Nat) (h : Keeps e y z) : Keeps e y (offerHoldExpiry ref f z) := by
  unfold offerHoldExpiry
  split
  · exact (keeps_giveUp ‹_› h).shrinks { Shrinks.refl _ with lapsed := pushOldest_length_le (by decide) _ _ }
  · exact h

theorem keeps_awaitingHoldExpiry (n : Nat) (h : Keeps e y z) : Keeps e y (awaitingHoldExpiry e n z) := by
  unfold awaitingHoldExpiry
  (repeat' split)
  · exact keeps_excludeAndRetry _ _ h
  · exact h
  · exact h

theorem keeps_sendPush (n : Nat) (h : Keeps e y z) : Keeps e y (sendPush e n z) :=
  keeps_send _ (keeps_onSeek (fun _ => rfl) (fun _ hx => hx) h)

theorem keeps_sendExit (o : OfferEntry) (h : Keeps e y z) : Keeps e y (sendExit e o z) :=
  keeps_send _ (keeps_onOffer_exit (fun _ => rfl) (fun _ => by simp) h)

theorem keeps_answerExpiry (i : HandoverId) (h : Keeps e y z) : Keeps e y (answerExpiry e i z) := by
  cases i with
  | push n =>
    unfold answerExpiry
    dsimp only
    (repeat' split)
    · exact keeps_sendPush _ h
    · exact keeps_settle (keeps_handoverFailed _ h)
    · exact h
    · exact h
  | exit ref f =>
    unfold answerExpiry
    dsimp only
    (repeat' split)
    · exact keeps_sendExit _ h
    · exact keeps_settle (keeps_exitFailed _ h)
    · exact h
    · exact h

theorem keeps_holdEnd (i : HandoverId) (h : Keeps e y z) : Keeps e y (holdEnd e i z) := by
  cases i with
  | push n =>
    unfold holdEnd
    dsimp only
    (repeat' split)
    · exact keeps_sendPush _ h
    · exact h
    · exact h
  | exit ref f =>
    unfold holdEnd
    dsimp only
    (repeat' split)
    · exact keeps_sendExit _ h
    · exact h
    · exact h

/-! ## The tag reader and the start timer (R149, R152, R160 to R163) -/

theorem keeps_pollFailed (h : Keeps e y z) : Keeps e y (pollFailed e z) := by
  unfold pollFailed
  dsimp only
  split
  · exact keeps_notify _ _ _ _ (h.same rfl)
  · exact h.same rfl

theorem keeps_pollTimer (low : Bool) (h : Keeps e y z) : Keeps e y (pollTimer e low z) := by
  unfold pollTimer
  dsimp only
  (repeat' split)
  · exact h
  · exact h.same rfl
  · exact keeps_pollFailed (h.same rfl)
  · exact h.same rfl

theorem keeps_tagRead (v : Vector Byte 8) (h : Keeps e y z) : Keeps e y (tagRead e v z) := by
  unfold tagRead
  split
  · exact h
  · exact h.same rfl
  · exact keeps_goodTag _ h

theorem keeps_pollEnd (sda : List Bool) (h : Keeps e y z) : Keeps e y (pollEnd e sda z) := by
  unfold pollEnd
  (repeat' split)
  · exact h
  · exact h
  · exact h.same rfl
  · exact keeps_pollFailed (h.same rfl)
  · exact keeps_tagRead _ (h.same rfl)

theorem keeps_startStop (start : Bool) (h : Keeps e y z) : Keeps e y (startStop e start z) := by
  unfold startStop
  split
  · exact h.same rfl
  · exact h

theorem keeps_startExpiry (w : Nat) (h : Keeps e y z) : Keeps e y (startExpiry e w z) := by
  unfold startExpiry
  (repeat' split)
  · exact keeps_washOut _ _ h
  · exact h
  · exact h

end Sys2Proof.Machine
end

section
/-! SUPPORT. The rules of Keeps for START, for the host's commands on the yard and for one millisecond. -/

namespace Sys2Proof.Machine

variable {e : Env} {y z z' t : Yard} {cap : Nat}

/-! ## START (R186, R189, R205, R211) -/

theorem keeps_startSigns (h : Keeps e y z) : Keeps e y (startSigns z) := by
  unfold startSigns
  exact h.same rfl

theorem keeps_startDwell (contacts : List Contact) (h : Keeps e y z) : Keeps e y (startDwell contacts z) := by
  unfold startDwell
  refine h.shrinks { Shrinks.refl _ with points := .of_map (fun p => ?_) (fun p => ?_) _ }
  · (repeat' split) <;> rfl
  · (repeat' split) <;> rfl

theorem keeps_startAging (h : Keeps e y z) : Keeps e y (startAging e z) := by
  unfold startAging
  split
  · exact h
  · exact h.same rfl

theorem keeps_startRepin (n : Nat) (h : Keeps e y z) : Keeps e y (startRepin e z n) := by
  unfold startRepin
  (repeat' split)
  · exact h
  · exact keeps_sendRepin _ h
  · exact h

theorem keeps_startGate (h : Keeps e y z) : Keeps e y (startGate e z) := by
  unfold startGate
  split
  · exact h
  · exact keeps_foldl (g := startRepin e) (fun n _ => keeps_startRepin n) _
      (keeps_foldl (fun n _ => keeps_callIfDue n) _ (h.same rfl))

theorem keeps_startBlocks (contacts : List Contact) (h : Keeps e y z) : Keeps e y (startBlocks contacts e z) :=
  keeps_settle (keeps_startGate (keeps_startAging (keeps_startDwell _ (keeps_startSigns h))))

/-! ## The commands on a running station (R109 to R111, R134 to R137, R155, R156, R166, R172, R173, R198 to R200) -/

/-- A bus parks at the rear of a lane with room. -/
theorem keeps_parkRear {n : Nat} (x : Position) (room : ∀ l, z.lane? n = some l → l.room = true) (h : Keeps e y z) :
    Keeps e y (onPositions e n (· ++ [x]) z) := by
  refine keeps_laneLight n (keeps_onLane (fun l hl =>
    ⟨rfl, id, fun _ => ?_, fun q hq hc => ⟨q, hq, hc, rfl, rfl⟩, fun q hq hc => ⟨q, hq, rfl, hc⟩⟩) h)
  have := lane_room_iff.1 (room l hl)
  simp only [Lane.fits, List.length_append, List.length_singleton]
  omega

theorem keeps_placeParked {n : Nat} (b : BusFields) (room : ∀ l, z.lane? n = some l → l.room = true)
    (h : Keeps e y z) : Keeps e y (placeParked n b e z) :=
  keeps_parkRear _ room (keeps_addRec _ h)

theorem keeps_resolveLane {n : Nat} (f : Nat) (room : ∀ l, z.lane? n = some l → l.room = true) (h : Keeps e y z) :
    Keeps e y (resolveLane n f e z) :=
  keeps_parkRear _ room (keeps_onRec _ _ h)

theorem keeps_setStock (f : Fuel) (v : Nat) (h : Keeps e y z) : Keeps e y (setStock f v e z) :=
  keeps_checkLow _ (keeps_setAccount _ _ h)

theorem keeps_deliver (f : Fuel) (v : Nat) (h : Keeps e y z) : Keeps e y (deliver f v e z) := keeps_setAccount _ _ h

theorem keeps_loadDuty (f : DutyFields) (room : z.gate.duties.length < 256) (h : Keeps e y z) :
    Keeps e y (loadDuty f e z) := by
  have listed : Keeps e y { z with gate := { z.gate with duties := insertBy Duty.order (f.duty e) z.gate.duties } } :=
    h.shrinks { Shrinks.refl _ with duties := fun _ => (insertBy_length_le _ _ _).trans room }
  have paired : ∀ g, Keeps e y (pinRec g (f.duty e) (pair (f.duty e).number g
      { z with gate := { z.gate with duties := insertBy Duty.order (f.duty e) z.gate.duties } })) :=
    fun g => keeps_pinRec _ _ (keeps_pair _ _ listed)
  have called : ∀ {x}, Keeps e y x → Keeps e y (if e.running then settle e (callIfDue e f.number x) else x) := by
    intro x hx
    split
    · exact keeps_settle (keeps_callIfDue _ hx)
    · exact hx
  unfold loadDuty
  refine called ?_
  split
  · exact listed
  · dsimp only
    split
    · exact keeps_sendRepin _ (paired _)
    · exact paired _

theorem keeps_dropDuty (n : Nat) (h : Keeps e y z) : Keeps e y (dropDuty n e z) := by
  unfold dropDuty
  split
  · exact keeps_unpinFleet _ (keeps_unpair _ (keeps_removeDuty _ h))
  · exact keeps_removeDuty _ h

theorem keeps_setClosed (n : Nat) (b : Bool) (h : Keeps e y z) : Keeps e y (onLane n (fun l => { l with closed := b }) z) :=
  keeps_onLane (fun _ _ => .of_reservs rfl (Nat.le_refl _) rfl) h

theorem keeps_admitBus (b : BusFields) (room : z.gate.fifo.length < 8) (h : Keeps e y z) :
    Keeps e y (admitBus b e z) :=
  keeps_settle (keeps_crossRead (h.shrinks (.of_fifo_concat room _)))

theorem keeps_resolveGateIn (f : Nat) (h : Keeps e y z) : Keeps e y (resolveGateIn f e z) :=
  keeps_settle (keeps_nextStep _ (keeps_placeRec _ _ _ h))

theorem keeps_resolveGone (f : Nat) (h : Keeps e y z) : Keeps e y (resolveGone f e z) :=
  keeps_settle (keeps_removeRec _ h)

theorem keeps_resolveApron (r : Record) (room : apronRoom e z = true) (h : Keeps e y z) :
    Keeps e y (resolveApron r e z) :=
  keeps_settle (keeps_lookForHeads (keeps_enqueueApron _ room h))

theorem keeps_resolveWash {w f : Nat} {l : WashLane} (hl : z.washLane? w = some l) (room : l.room = true)
    (ht : pushExpect e .washIn w f false z = some t) (h : Keeps e y z) : Keeps e y (resolveWash w f e t) := by
  refine keeps_settle (keeps_washCall _ (keeps_placeRec _ _ _ (keeps_joinWash _ _ _ (fun l' hl' => ?_)
    (keeps_pushExpect ht (by simp) (by simp) h))))
  obtain ⟨-, -, -, -, rfl⟩ := pushExpect_eq_some.1 ht
  have same : z.washLane? w = some l' := by simpa [Yard.washLane?] using hl'
  rw [hl, Option.some.injEq] at same
  exact same ▸ room

theorem keeps_resolveReseek (f : Nat) (h : Keeps e y z) : Keeps e y (resolveReseek f e z) :=
  keeps_settle (keeps_nextStep _ (keeps_placeRec _ _ _ h))

theorem keeps_clearYard (f : ClearFields) (h : Keeps e y z) : Keeps e y (clearYard f z) := h.same rfl

theorem keeps_takeNotice {n : Notice} {rest : List Notice} (hn : z.notices = n :: rest) (h : Keeps e y z) :
    Keeps e y { z with notices := rest } :=
  h.shrinks { Shrinks.refl _ with notices := by rw [hn]; exact Nat.le_of_succ_le }

/-! ## One millisecond (R43) -/

theorem heldKeys_map {g : OfferEntry → OfferEntry} (hk : ∀ o, (g o).key = o.key) (hs : ∀ o, (g o).state = o.state)
    (l : List OfferEntry) : heldKeys (l.map g) = heldKeys l := by
  induction l with
  | nil => rfl
  | cons x xs ih =>
    unfold heldKeys at ih ⊢
    by_cases hx : x.state = .held <;> simp [hx, hs, hk, ih]

theorem TableBounded.map {l : List SeekEntry} {g : SeekEntry → SeekEntry} (h : TableBounded l)
    (hn : ∀ x, (g x).number = x.number) (hx : ∀ x, (g x).excl = x.excl) : TableBounded (l.map g) where
  length := by simpa using h.length
  numbers := by
    rw [List.map_map]
    exact (List.map_congr_left fun x _ => hn x) ▸ h.numbers
  excl en hen := by
    obtain ⟨x, hmem, rfl⟩ := List.mem_map.1 hen
    exact hx x ▸ h.excl x hmem

theorem keeps_tick (h : Keeps e y z) : Keeps e y z.tick := by
  unfold Yard.tick
  exact h.shrinks { Shrinks.refl _ with
    table := fun b => b.map (fun _ => rfl) (fun _ => rfl)
    offers := by simp
    held := heldKeys_map (g := fun o => { o with timer := down o.timer }) (fun _ => rfl) (fun _ => rfl) _
    points := .of_map (g := fun p => { p with dwell := down p.dwell }) (fun _ => rfl) (fun _ => rfl) _
    washes := .of_forall₂ (map_forall₂ (fun _ => .of_queue rfl (Nat.le_refl _) rfl) _) }

end Sys2Proof.Machine
end

section
/-! SUPPORT. From yards to states: what keeps the bounds and the places from state to state (Preserves), the resets, LOCK, and
the clock. -/

namespace Sys2Proof.Machine

variable {e : Env} {s t u : State} {y : Yard}

/-! ## From a state to a state -/

/-- From s to t the bounds are kept, and with them the places. -/
structure Preserves (s t : State) : Prop where
  bounded : Bounded s.yard → Bounded t.yard
  placed : Bounded s.yard → s.placesKept → t.placesKept

/-- No offer stands, and nothing waits at the apron or has a place there. -/
def Yard.quiet (y : Yard) : Prop := y.seek.offers = [] ∧ y.fuel.queue = [] ∧ y.fuel.reservs = []

theorem Preserves.refl (s : State) : Preserves s s := ⟨id, fun _ h => h⟩

theorem Preserves.trans (h : Preserves s t) (h' : Preserves t u) : Preserves s u :=
  ⟨fun b => h'.bounded (h.bounded b), fun b p => h'.placed (h.bounded b) (h.placed b p)⟩

theorem Preserves.of_keeps (h : Keeps e s.yard t.yard) (hs : e.layout = s.layout) (ht : t.layout = s.layout)
    (config : t.phase = .config → s.phase = .config ∧ (s.yard.quiet → t.yard.quiet)) : Preserves s t := by
  refine ⟨h.bounded, fun b p => ?_⟩
  obtain ⟨placed, quiet⟩ := placesKept_iff.1 p
  refine placesKept_iff.2 ⟨?_, fun hc => ?_⟩
  · rw [ht, ← hs]
    exact h.placed b (hs ▸ placed)
  · obtain ⟨before, stays⟩ := config hc
    exact stays (quiet before)

/-- What leaves yard, layout and phase. -/
theorem Preserves.of_same (hy : t.yard = s.yard) (hl : t.layout = s.layout) (hp : t.phase = s.phase) :
    Preserves s t :=
  .of_keeps (e := s.env) (hy ▸ .refl _ _) rfl hl fun hc => ⟨hp ▸ hc, fun q => hy ▸ q⟩

/-- A change of the yard outside CONFIG. -/
theorem Preserves.of_yard {z : Yard} (hp : s.phase ≠ .config) (h : Keeps s.env s.yard z) :
    Preserves s { s with yard := z } :=
  .of_keeps h rfl rfl fun hc => absurd hc hp

theorem preserves_inYard {f : Env → Yard → Yard} (hp : s.phase ≠ .config) (h : Keeps s.env s.yard (f s.env s.yard)) :
    Preserves s (s.inYard f) := .of_yard hp h

theorem preserves_whenRunning {f : Env → Yard → Yard} (h : Keeps s.env s.yard (f s.env s.yard)) :
    Preserves s (s.whenRunning f) := by
  unfold State.whenRunning
  split
  · exact .refl s
  · rename_i works
    simp only [Bool.or_eq_true, decide_eq_true_eq, not_or, not_not] at works
    exact .of_yard (by rw [works.2]; decide) h

/-- A yard event of every phase that touches no offer and nothing at the apron. -/
theorem preserves_onYard {f : Env → Yard → Yard} (h : Keeps s.env s.yard (f s.env s.yard))
    (quiet : s.yard.quiet → (f s.env s.yard).quiet) : Preserves s (s.onYard f) := by
  unfold State.onYard
  split
  · exact .refl s
  · exact .of_keeps h rfl rfl fun hc => ⟨hc, quiet⟩

/-! ## Reset and LOCK -/

/-- Nothing has a place, no offer stands and no bus is expected. -/
structure Yard.Vacant (y : Yard) : Prop where
  lanes : ∀ l ∈ y.lanes, l.positions = [] ∧ l.reservs = []
  washes : ∀ l ∈ y.wash.lanes, l.queue = [] ∧ l.reservs = []
  points : ∀ p ∈ y.points, p.queue = []
  quiet : y.quiet

theorem Yard.Vacant.not_expected (v : y.Vacant) (k : PointKind) (i f : Nat) : ¬ ExpectedAt y.points k i f := by
  rintro ⟨p, hp, x, hx, -⟩
  rw [v.points p (List.mem_of_find?_eq_some hp)] at hx
  cases hx

theorem Yard.Vacant.placed (v : y.Vacant) (cap : Nat) : Placed cap y := by
  obtain ⟨offers, queue, reservs⟩ := v.quiet
  refine ⟨fun l hl => ?_, ?_, fun l hl => ?_, ?_, ?_, fun w ref f => ?_, ?_, ?_, ?_⟩
  · obtain ⟨hp, hr⟩ := v.lanes l hl
    simp [Lane.fits, hp, hr]
  · simp [queue, reservs]
  · obtain ⟨hq, hr⟩ := v.washes l hl
    simp [WashLane.fits, hq, hr]
  · rintro n ref f ⟨l, hl, q, hq, -⟩
    rw [(v.lanes l (List.mem_of_find?_eq_some hl)).2] at hq
    cases hq
  · rintro fuel ref f ⟨q, hq, -⟩
    rw [reservs] at hq
    cases hq
  · rw [offers, washHolds]
    cases hl : y.wash.lanes.find? (·.cfg.index == w) with
    | none => rfl
    | some l => simp [heldKeys, (v.washes l (List.mem_of_find?_eq_some hl)).2]
  · have none_expected : expectedFleets y.points = [] :=
      List.flatMap_eq_nil_iff.2 fun p hp => by rw [v.points p hp]; rfl
    rw [none_expected]
    exact List.nodup_nil
  · exact fun n f hx => absurd hx (v.not_expected _ _ _)
  · exact fun i f hx => absurd hx (v.not_expected _ _ _)

theorem vacant_reset : Yard.Vacant {} := ⟨by simp, by simp, by simp, rfl, rfl, rfl⟩

theorem bounded_reset : Bounded {} := by
  refine ⟨?_, ?_, ⟨?_, ?_, ?_⟩, ?_, ?_, ?_, ?_, ?_, ?_, ?_, ?_, ?_⟩ <;> simp

theorem preserves_reset (h : t.yard = {}) : Preserves s t := by
  refine ⟨fun _ => h ▸ bounded_reset, fun _ _ => placesKept_iff.2 ?_⟩
  rw [h]
  exact ⟨vacant_reset.placed _, fun _ => vacant_reset.quiet⟩

theorem vacant_takeUp (l : Layout) (quiet : y.quiet) : (takeUp l y).Vacant := by
  refine ⟨fun x hx => ?_, fun x hx => ?_, fun x hx => ?_, quiet⟩
  · obtain ⟨c, -, rfl⟩ := List.mem_map.1 hx
    exact ⟨rfl, rfl⟩
  · obtain ⟨c, -, rfl⟩ := List.mem_map.1 hx
    exact ⟨rfl, rfl⟩
  · obtain ⟨c, -, rfl⟩ := List.mem_map.1 hx
    rfl

theorem Bounded.takeUp (b : Bounded y) (l : Layout) : Bounded (takeUp l y) := by
  refine { b with points := fun x hx => ?_, lanes := fun x hx => ?_ }
  · obtain ⟨c, -, rfl⟩ := List.mem_map.1 hx
    exact Nat.zero_le _
  · obtain ⟨c, -, rfl⟩ := List.mem_map.1 hx
    exact List.nodup_nil

/-! ## The clock -/

theorem preserves_changeMinute (c : Clock) (s : State) : Preserves s (s.changeMinute c) :=
  .of_keeps (e := { s with clock := c }.env) (keeps_settle (keeps_minuteChange _ _ (.refl _ _))) rfl rfl
    fun hc => ⟨hc, fun q => by simpa [State.changeMinute, Yard.quiet] using q⟩

theorem preserves_takeTime (m : Nat) (hp : s.phase ≠ .config) : Preserves s (s.takeTime m) := by
  unfold State.takeTime
  split
  · exact (Preserves.of_yard hp (keeps_withdrawTime m (.refl _ _))).trans (.of_same rfl rfl rfl)
  · split
    · have adopted : Keeps s.env s.yard (countTimeAdopted (withdrawTime s.env m s.yard)) :=
        (keeps_withdrawTime m (.refl _ _)).same rfl
      exact (Preserves.of_yard hp adopted).trans (preserves_changeMinute _ _)
    · exact .refl s

theorem preserves_timeReceived (s : State) : Preserves s s.timeReceived := by
  unfold State.timeReceived
  split
  · exact .refl s
  · rename_i works
    simp only [Bool.or_eq_true, decide_eq_true_eq, not_or, not_not] at works
    have outside : s.phase ≠ .config := by rw [works.2]; decide
    split
    · exact (Preserves.of_yard outside (keeps_dropHead (.refl _ _))).trans (preserves_takeTime _ outside)
    · exact .refl s

theorem preserves_rollover (s : State) : Preserves s s.rollover := by
  unfold State.rollover
  split
  · exact .refl s
  · dsimp only
    split
    · rename_i running
      exact (Preserves.of_yard (by rw [running]; decide) (keeps_announce _ _ (.refl _ _))).trans
        (preserves_changeMinute _ _)
    · exact preserves_changeMinute _ _

theorem preserves_countSecond (s : State) : Preserves s s.countSecond := by
  unfold State.countSecond
  split
  · exact .refl s
  · exact .of_same rfl rfl rfl

theorem preserves_tick (s : State) : Preserves s s.tick := by
  unfold State.tick
  split
  · exact .refl s
  · refine .of_keeps (e := s.env) (keeps_tick (.refl _ _)) rfl rfl fun hc => ⟨hc, fun q => ?_⟩
    obtain ⟨offers, queue, reservs⟩ := q
    exact ⟨by simp [Yard.tick, offers], queue, reservs⟩

theorem preserves_idle (s : State) : Preserves s s.idle := by
  unfold State.idle
  split
  · exact .of_same rfl rfl rfl
  · exact preserves_tick s

theorem preserves_rowScan (cols : BitVec 8) (s : State) : Preserves s (s.rowScan cols) := by
  unfold State.rowScan
  split
  · exact .refl s
  · dsimp only
    split
    · rename_i running
      exact .of_keeps (e := s.env) (keeps_foldl (fun ev _ => keeps_contactEvent _ ev) _ (.refl _ _)) rfl rfl
        fun hc => absurd (hc.symm.trans running) (by decide)
    · exact .of_same rfl rfl rfl

theorem quiet_setPlant (w : Nat) (i : PlantInput) (b : Bool) (q : y.quiet) : (setPlant w i b y).quiet := by
  unfold setPlant
  split <;> exact q

theorem quiet_startStop (e : Env) (start : Bool) (q : y.quiet) : (startStop e start y).quiet := by
  unfold startStop
  split <;> exact q

theorem preserves_plantInput {w : Nat} {i : PlantInput} {f : Env → Yard → Yard}
    (h : ∀ {e y z}, Keeps e y z → Keeps e y (f e z)) : Preserves s (s.plantInput w i f) :=
  (preserves_onYard (keeps_setPlant _ _ _ (.refl _ _)) (quiet_setPlant _ _ _)).trans
    (preserves_whenRunning (h (.refl _ _)))

end Sys2Proof.Machine
end

section
/-! SUPPORT. The host's commands (R210): what each answers keeps the bounds and the places, as a row of the table and as a
record on the link. -/

namespace Sys2Proof.Machine

variable {s t : State}

/-! ## Answers (R209) -/

/-- What a block answers keeps the bounds and the places. -/
def Reply.Preserved (s : State) : Reply → Prop
  | .done t _ => Preserves s t
  | .refused _ _ => True

theorem preserves_answer (code : Nat) (r : HostResult) (data : List Byte) (s : State) :
    Preserves s (s.answer code r data) := .of_same rfl rfl rfl

theorem preserves_give {r : Reply} (code : Nat) (h : r.Preserved s) : Preserves s (r.give code s) := by
  cases r with
  | done t data => exact Preserves.trans h (preserves_answer _ _ _ t)
  | refused r data => exact preserves_answer _ _ _ s

theorem preserves_command {code : Nat} {f : State → Reply} (h : takenIn code s.phase = true → (f s).Preserved s) :
    Preserves s (s.command code f) := by
  unfold State.command
  split
  · exact .refl s
  · split
    · exact preserves_give code (h ‹_›)
    · exact preserves_answer _ _ _ s

theorem preserves_wait (record : List Byte) (s : State) : Preserves s (s.wait record) := by
  unfold State.wait
  split <;> exact .of_same rfl rfl rfl

theorem preserves_hostRow {i : Instr} {code : Nat} {f : State → Reply}
    (h : takenIn code s.phase = true → (f s).Preserved s) : Preserves s (s.hostRow i code f) := by
  unfold State.hostRow
  split
  · exact preserves_wait _ s
  · exact preserves_command h

/-- The codes 11 to 22 are taken outside CONFIG alone (R210). -/
theorem takenIn_outside_config {code : Nat} (low : 11 ≤ code) (high : code ≤ 22) {p : Phase}
    (h : takenIn code p = true) : p ≠ .config := by
  rintro rfl
  simp only [takenIn, Bool.or_eq_true, decide_eq_true_eq] at h
  omega

theorem takenIn_lock {p : Phase} (h : takenIn 9 p = true) : p = .config := by
  cases p with
  | config => rfl
  | locked => simp [takenIn] at h
  | running => simp [takenIn] at h

/-! ## The layout commands, LOCK, START and SET CLOCK -/

theorem preserved_storeItem {α : Type} (item : Option α) (put : α → Layout → Layout) (s : State) :
    (storeItem item put s).Preserved s := by
  cases item with
  | none => trivial
  | some x => exact Preserves.of_same rfl rfl rfl

theorem preserved_lock (h : s.phase = .config) : (cmdLock s).Preserved s := by
  unfold cmdLock
  split
  · trivial
  · show Preserves s { s with phase := .locked, layout := s.store, yard := takeUp s.store s.yard }
    refine ⟨fun b => b.takeUp s.store, fun _ p => placesKept_iff.2 ⟨?_, by simp⟩⟩
    exact (vacant_takeUp s.store ((placesKept_iff.1 p).2 h)).placed _

theorem preserved_start (s : State) : (cmdStart s).Preserved s := by
  unfold cmdStart
  split
  · have running : Preserves s { s with phase := .running } := .of_keeps (e := s.env) (.refl _ _) rfl rfl (by simp)
    exact running.trans (preserves_inYard (by simp) (keeps_startBlocks _ (.refl _ _)))
  · trivial

theorem preserved_setClock (minute seconds : Nat) (s : State) : (cmdSetClock minute seconds s).Preserved s := by
  unfold cmdSetClock
  dsimp only
  (repeat' split)
  · exact Preserves.of_same rfl rfl rfl
  · exact preserves_changeMinute _ s
  · trivial
  · trivial

/-! ## The commands outside CONFIG -/

theorem preserved_inYard {f : Env → Yard → Yard} (hp : s.phase ≠ .config) (h : Keeps s.env s.yard (f s.env s.yard)) :
    (Reply.ok (s.inYard f)).Preserved s := preserves_inYard hp h

theorem preserved_placeParked (n : Nat) (b : BusFields) (hp : s.phase ≠ .config) :
    (cmdPlaceParked n b s).Preserved s := by
  unfold cmdPlaceParked
  split
  · cases hl : s.yard.lane? n with
    | none => trivial
    | some l =>
      dsimp only
      split
      · rename_i room
        split
        · trivial
        · trivial
        · refine preserved_inYard hp (keeps_placeParked b (fun l' hl' => ?_) (.refl _ _))
          rw [hl, Option.some.injEq] at hl'
          exact hl' ▸ room
      · trivial
  · trivial

theorem preserved_setStock (f : Fuel) (v : Nat) (hp : s.phase ≠ .config) : (cmdSetStock f v s).Preserved s := by
  unfold cmdSetStock
  split
  · exact preserved_inYard hp (keeps_setStock _ _ (.refl _ _))
  · trivial

theorem preserved_delivery (f : Fuel) (v : Nat) (hp : s.phase ≠ .config) : (cmdDelivery f v s).Preserved s := by
  unfold cmdDelivery
  dsimp only
  split
  · exact preserved_inYard hp (keeps_deliver _ _ (.refl _ _))
  · trivial

theorem preserved_loadDuty (f : DutyFields) (hp : s.phase ≠ .config) : (cmdLoadDuty f s).Preserved s := by
  unfold cmdLoadDuty
  dsimp only
  (repeat' split)
  · trivial
  · trivial
  · trivial
  · trivial
  · exact preserved_inYard hp (keeps_loadDuty f (Nat.not_le.1 ‹_›) (.refl _ _))

theorem preserved_dropDuty (n : Nat) (hp : s.phase ≠ .config) : (cmdDropDuty n s).Preserved s := by
  have dropped : (Reply.ok (s.inYard (dropDuty n))).Preserved s := preserved_inYard hp (keeps_dropDuty n (.refl _ _))
  unfold cmdDropDuty
  (repeat' split)
  · trivial
  · trivial
  · exact dropped
  · exact dropped
  · trivial

theorem preserved_setClosed (n : Nat) (b : Bool) (hp : s.phase ≠ .config) : (setClosed n b s).Preserved s := by
  unfold setClosed
  split
  · trivial
  · exact Preserves.of_yard hp (keeps_setClosed n b (.refl _ _))

theorem preserved_reopenPump (p : Nat) (hp : s.phase ≠ .config) : (cmdReopenPump p s).Preserved s := by
  unfold cmdReopenPump
  (repeat' split)
  · trivial
  · exact preserved_inYard hp (keeps_reopenPump p (.refl _ _))
  · exact Preserves.refl s

theorem preserved_reopenWash (w : Nat) (hp : s.phase ≠ .config) : (cmdReopenWash w s).Preserved s := by
  have freed : (Reply.ok (s.inYard fun e y => freeWash e w y)).Preserved s :=
    preserved_inYard hp (keeps_freeWash w (.refl _ _))
  unfold cmdReopenWash
  (repeat' split)
  · trivial
  · trivial
  · exact freed
  · exact freed
  · exact Preserves.refl s

theorem preserved_admit (b : BusFields) (hp : s.phase ≠ .config) : (cmdAdmit b s).Preserved s := by
  unfold cmdAdmit
  dsimp only
  (repeat' split)
  · trivial
  · trivial
  · trivial
  · exact preserved_inYard hp (keeps_admitBus b (Nat.not_le.1 ‹_›) (.refl _ _))

theorem preserved_resolveApron (r : Record) (hp : s.phase ≠ .config) : (resolveAt r .apronIn 0 s).Preserved s := by
  unfold resolveAt
  dsimp only
  (repeat' split)
  · trivial
  · exact preserved_inYard hp (keeps_resolveApron r ‹_› (.refl _ _))
  · trivial

theorem preserved_resolveWash (r : Record) (i : Nat) (hp : s.phase ≠ .config) :
    (resolveAt r .washIn i s).Preserved s := by
  unfold resolveAt
  dsimp only
  split
  · trivial
  · rename_i l hl
    split
    · trivial
    · split
      · rename_i room
        split
        · rename_i pushed ht
          exact Preserves.of_yard hp (keeps_resolveWash hl room ht (.refl _ _))
        · trivial
      · trivial

theorem preserved_resolveLane (r : Record) (i : Nat) (hp : s.phase ≠ .config) :
    (resolveAt r .laneIn i s).Preserved s := by
  unfold resolveAt
  dsimp only
  split
  · trivial
  · rename_i l hl
    split
    · rename_i room
      split
      · trivial
      · refine preserved_inYard hp (keeps_resolveLane _ (fun l' hl' => ?_) (.refl _ _))
        rw [hl, Option.some.injEq] at hl'
        exact hl' ▸ room
    · trivial

theorem preserved_resolveAt (r : Record) (k : PointKind) (i : Nat) (hp : s.phase ≠ .config) :
    (resolveAt r k i s).Preserved s := by
  cases k with
  | gateIn => exact preserved_inYard hp (keeps_resolveGateIn _ (.refl _ _))
  | gateOut => exact preserved_inYard hp (keeps_resolveGone _ (.refl _ _))
  | apronIn => exact preserved_resolveApron r hp
  | washIn => exact preserved_resolveWash r i hp
  | laneIn => exact preserved_resolveLane r i hp
  | _ => trivial

theorem preserved_resolveAtPoint (f : Nat) (k : PointKind) (i : Nat) (hp : s.phase ≠ .config) :
    (cmdResolveAtPoint f k i s).Preserved s := by
  unfold cmdResolveAtPoint
  (repeat' split)
  · trivial
  · exact preserved_resolveAt _ _ _ hp
  · trivial

theorem preserved_resolveReseek (f : Nat) (hp : s.phase ≠ .config) : (cmdResolveReseek f s).Preserved s := by
  unfold cmdResolveReseek
  split
  · trivial
  · exact preserved_inYard hp (keeps_resolveReseek f (.refl _ _))

theorem preserved_resolveLeftYard (f : Nat) (hp : s.phase ≠ .config) : (cmdResolveLeftYard f s).Preserved s := by
  unfold cmdResolveLeftYard
  split
  · trivial
  · exact preserved_inYard hp (keeps_resolveGone f (.refl _ _))

/-! ## Reads, CLEAR FLAGS, TAKE NOTICE and RESET -/

theorem preserved_readRecord (f : Nat) (s : State) : (cmdReadRecord f s).Preserved s := by
  unfold cmdReadRecord
  (repeat' split)
  · exact Preserves.refl s
  · trivial
  · trivial

theorem preserved_readLane (n : Nat) (s : State) : (cmdReadLane n s).Preserved s := by
  unfold cmdReadLane
  split
  · exact Preserves.refl s
  · trivial

theorem preserved_readApron (s : State) : (cmdReadApron s).Preserved s := by
  unfold cmdReadApron
  split
  · exact Preserves.refl s
  · trivial

theorem preserved_readWashQueue (w : Nat) (s : State) : (cmdReadWashQueue w s).Preserved s := by
  unfold cmdReadWashQueue
  split
  · exact Preserves.refl s
  · trivial

theorem preserved_readDuty (n : Nat) (s : State) : (cmdReadDuty n s).Preserved s := by
  unfold cmdReadDuty
  (repeat' split)
  · trivial
  · exact Preserves.refl s
  · trivial

theorem preserved_readDuties (s : State) : (cmdReadDuties s).Preserved s := by
  unfold cmdReadDuties
  split
  · trivial
  · exact Preserves.refl s

theorem preserved_clearFlags (f : ClearFields) (s : State) : (cmdClearFlags f s).Preserved s :=
  Preserves.of_keeps (e := s.env) (keeps_clearYard f (.refl _ _)) rfl rfl fun hc => ⟨hc, id⟩

theorem preserved_takeNotice (s : State) : (cmdTakeNotice s).Preserved s := by
  unfold cmdTakeNotice
  split
  · exact Preserves.refl s
  · exact Preserves.of_keeps (e := s.env) (keeps_takeNotice ‹_› (.refl _ _)) rfl rfl fun hc => ⟨hc, id⟩

theorem preserved_reset (s : State) : (cmdReset s).Preserved s := Preserves.of_same rfl rfl rfl

/-! ## Records read as commands (R207 to R209) -/

theorem preserved_withFields {α : Type} {r : Reader α} {fs : List Byte} {f : α → State → Reply}
    (h : ∀ x, (f x s).Preserved s) : (withFields r fs f s).Preserved s := by
  unfold withFields
  split
  · exact h _
  · trivial

theorem preserved_noFields {fs : List Byte} {f : State → Reply} (h : (f s).Preserved s) :
    (noFields fs f s).Preserved s := by
  cases fs with
  | nil => exact h
  | cons => trivial

theorem preserved_resolveFields (fs : List Byte) (hp : s.phase ≠ .config) : (resolveFields fs s).Preserved s := by
  unfold resolveFields
  dsimp only
  (repeat' split)
  · exact preserved_resolveAtPoint _ _ _ hp
  · trivial
  · trivial
  · exact preserved_noFields (preserved_resolveReseek _ hp)
  · exact preserved_noFields (preserved_resolveLeftYard _ hp)
  · trivial
  · trivial

theorem preserved_readFields (fs : List Byte) (s : State) : (readFields fs s).Preserved s := by
  unfold readFields
  (repeat' split)
  · exact preserved_withFields fun _ => preserved_readRecord _ s
  · exact preserved_withFields fun _ => preserved_readLane _ s
  · exact preserved_noFields (preserved_readApron s)
  · exact preserved_withFields fun _ => preserved_readWashQueue _ s
  · exact preserved_withFields fun _ => preserved_readDuty _ s
  · exact preserved_noFields (preserved_readDuties s)
  · exact preserved_noFields (Preserves.refl s)
  · exact preserved_noFields (Preserves.refl s)
  · exact preserved_noFields (Preserves.refl s)
  · exact preserved_noFields (Preserves.refl s)
  · trivial
  · trivial

theorem preserved_commandOf {code : Nat} (fs : List Byte) (h : takenIn code s.phase = true) :
    (commandOf code fs s).Preserved s := by
  have outside : 11 ≤ code → code ≤ 22 → s.phase ≠ .config := fun low high => takenIn_outside_config low high h
  unfold commandOf
  split
  · exact preserved_withFields fun _ => preserved_storeItem _ _ s
  · exact preserved_withFields fun _ => preserved_storeItem _ _ s
  · exact preserved_withFields fun _ => preserved_storeItem _ _ s
  · exact preserved_withFields fun _ => preserved_storeItem _ _ s
  · exact preserved_withFields fun _ => preserved_storeItem _ _ s
  · exact preserved_withFields fun _ => preserved_storeItem _ _ s
  · exact preserved_withFields fun _ => preserved_storeItem _ _ s
  · exact preserved_withFields fun _ => preserved_storeItem _ _ s
  · exact preserved_noFields (preserved_lock (takenIn_lock h))
  · exact preserved_withFields fun _ => preserved_setClock _ _ s
  · exact preserved_withFields fun _ => preserved_placeParked _ _ (outside (by omega) (by omega))
  · exact preserved_withFields fun _ => preserved_setStock _ _ (outside (by omega) (by omega))
  · exact preserved_withFields fun _ => preserved_loadDuty _ (outside (by omega) (by omega))
  · exact preserved_noFields (preserved_start s)
  · exact preserved_withFields fun _ => preserved_dropDuty _ (outside (by omega) (by omega))
  · exact preserved_withFields fun _ => preserved_delivery _ _ (outside (by omega) (by omega))
  · exact preserved_withFields fun _ => preserved_setClosed _ _ (outside (by omega) (by omega))
  · exact preserved_withFields fun _ => preserved_setClosed _ _ (outside (by omega) (by omega))
  · exact preserved_withFields fun _ => preserved_reopenPump _ (outside (by omega) (by omega))
  · exact preserved_withFields fun _ => preserved_reopenWash _ (outside (by omega) (by omega))
  · exact preserved_withFields fun _ => preserved_admit _ (outside (by omega) (by omega))
  · exact preserved_resolveFields _ (outside (by omega) (by omega))
  · exact preserved_readFields _ s
  · exact preserved_withFields fun _ => preserved_clearFlags _ s
  · exact preserved_noFields (preserved_takeNotice s)
  · exact preserved_noFields (preserved_reset s)
  · trivial

theorem preserves_unknownCode (code : Nat) (s : State) : Preserves s (s.unknownCode code) := by
  unfold State.unknownCode
  split
  · exact .refl s
  · exact preserves_answer _ _ _ s

theorem preserves_carryOut (record : List Byte) (s : State) : Preserves s (s.carryOut record) := by
  unfold State.carryOut
  split
  · exact preserves_wait _ s
  · split
    · exact .refl s
    · split
      · exact preserves_command fun h => preserved_commandOf _ h
      · exact preserves_unknownCode _ s

/-- Only the host link changes. -/
theorem preserves_host (h : HostLink) (s : State) : Preserves s { s with host := h } := .of_same rfl rfl rfl

theorem preserves_hostByte (byte : Byte) (fault : Bool) (s : State) : Preserves s (s.hostByte byte fault) := by
  unfold State.hostByte
  split
  · exact .refl s
  · dsimp only
    split
    · exact preserves_host _ s
    · exact (preserves_host _ s).trans (preserves_carryOut _ _)

theorem preserves_byteTimeout (s : State) : Preserves s s.byteTimeout := by
  unfold State.byteTimeout
  split
  · exact .refl s
  · exact preserves_host _ s

theorem preserves_answerSent (s : State) : Preserves s s.answerSent := by
  unfold State.answerSent
  split
  · exact .refl s
  · split
    · exact preserves_reset rfl
    · dsimp only
      split
      · exact preserves_host _ s
      · exact (preserves_host _ s).trans (preserves_carryOut _ _)

end Sys2Proof.Machine
end

section
/-! SUPPORT. Every command and every step keeps the bounds and the places. -/

namespace Sys2Proof.Machine

variable {s t : State}

/-! ## Every command -/

/-- What a meaning leaves, if it is carried out, keeps the bounds and the places. -/
def Outcome.Preserved (s : State) (o : Host.Outcome State Fault Refusal) : Prop := ∀ t, o = .next t → Preserves s t

theorem Preserves.outcome (h : Preserves s t) : Outcome.Preserved s (.next t) := by
  rintro t' ⟨⟩
  exact h

/-- A yard event, through the rule of its action. -/
theorem event_preserved {f : Env → Yard → Yard} (h : ∀ {e y z}, Keeps e y z → Keeps e y (f e z)) :
    Outcome.Preserved s (.next (s.whenRunning f)) :=
  (preserves_whenRunning (h (.refl _ _))).outcome

/-- A host command taken outside CONFIG alone. -/
theorem row_preserved {i : Instr} {code : Nat} {f : State → Reply} (low : 11 ≤ code) (high : code ≤ 22)
    (h : s.phase ≠ .config → (f s).Preserved s) : Outcome.Preserved s (.next (s.hostRow i code f)) :=
  (preserves_hostRow fun ht => h (takenIn_outside_config low high ht)).outcome

/-- A host command whose own rule needs no phase. -/
theorem anyRow_preserved {i : Instr} {code : Nat} {f : State → Reply} (h : (f s).Preserved s) :
    Outcome.Preserved s (.next (s.hostRow i code f)) :=
  (preserves_hostRow fun _ => h).outcome

theorem exec_preserved (i : Instr) (s : State) : Outcome.Preserved s (exec i s) := by
  cases i with
  | setStation f => exact anyRow_preserved (preserved_storeItem _ _ s)
  | addLane f => exact anyRow_preserved (preserved_storeItem _ _ s)
  | addPump f => exact anyRow_preserved (preserved_storeItem _ _ s)
  | setIsland f => exact anyRow_preserved (preserved_storeItem _ _ s)
  | addWash f => exact anyRow_preserved (preserved_storeItem _ _ s)
  | setGate f => exact anyRow_preserved (preserved_storeItem _ _ s)
  | mapPoint f => exact anyRow_preserved (preserved_storeItem _ _ s)
  | setParameter p v => exact anyRow_preserved (preserved_storeItem _ _ s)
  | lock => exact (preserves_hostRow fun h => preserved_lock (takenIn_lock h)).outcome
  | setClock minute seconds => exact anyRow_preserved (preserved_setClock _ _ s)
  | placeParked lane bus => exact row_preserved (by decide) (by decide) (preserved_placeParked _ _)
  | setStock f v => exact row_preserved (by decide) (by decide) (preserved_setStock _ _)
  | loadDuty f => exact row_preserved (by decide) (by decide) (preserved_loadDuty _)
  | start => exact anyRow_preserved (preserved_start s)
  | dropDuty n => exact row_preserved (by decide) (by decide) (preserved_dropDuty _)
  | delivery f v => exact row_preserved (by decide) (by decide) (preserved_delivery _ _)
  | closeLane l => exact row_preserved (by decide) (by decide) (preserved_setClosed _ _)
  | openLane l => exact row_preserved (by decide) (by decide) (preserved_setClosed _ _)
  | reopenPump p => exact row_preserved (by decide) (by decide) (preserved_reopenPump _)
  | reopenWash w => exact row_preserved (by decide) (by decide) (preserved_reopenWash _)
  | admitBus bus => exact row_preserved (by decide) (by decide) (preserved_admit _)
  | resolveAtPoint f k i => exact row_preserved (by decide) (by decide) (preserved_resolveAtPoint _ _ _)
  | resolveReseek f => exact row_preserved (by decide) (by decide) (preserved_resolveReseek _)
  | resolveLeftYard f => exact row_preserved (by decide) (by decide) (preserved_resolveLeftYard _)
  | readRecord f => exact anyRow_preserved (preserved_readRecord _ s)
  | readLane l => exact anyRow_preserved (preserved_readLane _ s)
  | readApron => exact anyRow_preserved (preserved_readApron s)
  | readWashQueue w => exact anyRow_preserved (preserved_readWashQueue _ s)
  | readDuty n => exact anyRow_preserved (preserved_readDuty _ s)
  | readDuties => exact anyRow_preserved (preserved_readDuties s)
  | readSeekTable => exact anyRow_preserved (Preserves.refl s)
  | readCounters => exact anyRow_preserved (Preserves.refl s)
  | readLineSummary => exact anyRow_preserved (Preserves.refl s)
  | readStatus => exact anyRow_preserved (Preserves.refl s)
  | clearFlags f => exact anyRow_preserved (preserved_clearFlags _ s)
  | takeNotice => exact anyRow_preserved (preserved_takeNotice s)
  | reset => exact anyRow_preserved (preserved_reset s)
  | unknownCommandCode code =>
    refine Preserves.outcome ?_
    split
    · exact .refl s
    · exact preserves_carryOut _ s
  | resetAfterAnswer =>
    refine Preserves.outcome ?_
    split
    · exact .refl s
    · exact preserves_reset rfl
  | hostByteReceived byte fault => exact (preserves_hostByte _ _ s).outcome
  | hostInterbyteTimeout => exact (preserves_byteTimeout s).outcome
  | hostAnswerSent => exact (preserves_answerSent s).outcome
  | resetPinAsserted => exact (preserves_reset rfl).outcome
  | resetPinReleased =>
    refine Preserves.outcome ?_
    split
    · exact preserves_reset rfl
    · exact .refl s
  | powerUp => exact (preserves_reset rfl).outcome
  | opening others => exact event_preserved (keeps_opening _)
  | frameCarried bits => exact event_preserved (keeps_frameCarried _)
  | frameDamaged cause => exact event_preserved (keeps_frameDamaged _)
  | sendDamaged => exact event_preserved keeps_sendDamaged
  | lineFollowBegin => exact event_preserved fun h => h.same rfl
  | seekReceived => exact event_preserved keeps_seekReceived
  | offerReceived => exact event_preserved keeps_offerReceived
  | takenReceived => exact event_preserved (keeps_answerReceived _)
  | holdReceived => exact event_preserved (keeps_answerReceived _)
  | refuseReceived => exact event_preserved (keeps_answerReceived _)
  | handoverReceived => exact event_preserved keeps_handoverReceived
  | claimReceived => exact event_preserved keeps_claimReceived
  | cancelReceived => exact event_preserved keeps_cancelReceived
  | repinReceived => exact event_preserved keeps_repinReceived
  | timeReceived => exact (preserves_timeReceived s).outcome
  | minuteRollover => exact (preserves_rollover s).outcome
  | retryTimerExpiry n => exact event_preserved (keeps_retryExpiry _)
  | offerHoldExpiry offer => exact event_preserved (keeps_offerHoldExpiry _ _)
  | awaitingHoldExpiry n => exact event_preserved (keeps_awaitingHoldExpiry _)
  | answerTimerExpiry i => exact event_preserved (keeps_answerExpiry _)
  | holdIntervalEnd i => exact event_preserved (keeps_holdEnd _)
  | rowScan cols => exact (preserves_rowScan _ s).outcome
  | dwellTimerExpiry row col => exact event_preserved (keeps_dwellExpiry _ _)
  | travelTimeout f => exact event_preserved (keeps_travelTimeout _)
  | pumpCallTimeout p => exact event_preserved (keeps_pumpSkip _)
  | nozzleLift p => exact event_preserved (keeps_nozzleLift _)
  | nozzleHang p => exact event_preserved (keeps_nozzleHang _)
  | meterPulse p => exact event_preserved (keeps_meterPulse _)
  | noFlowTimeout p => exact event_preserved (keeps_noFlow _)
  | agingTimerExpiry => exact event_preserved keeps_agingEnd
  | washCallTimeout w => exact event_preserved (keeps_washSkip _)
  | busy w => exact (preserves_plantInput (keeps_washBusy _)).outcome
  | startTimeout w => exact event_preserved (keeps_startExpiry _)
  | done w => exact (preserves_plantInput (keeps_washDone _)).outcome
  | fault w => exact (preserves_plantInput (keeps_washOut _ _)).outcome
  | pollTimerExpiry low => exact event_preserved (keeps_pollTimer _)
  | pollTransactionEnd sda => exact event_preserved (keeps_pollEnd _)
  | tagWindowExpiry arrivals => exact event_preserved (keeps_windowEnd _)
  | signRecordSent => exact event_preserved keeps_signSent
  | plantInputReleased w i =>
    exact (preserves_onYard (keeps_setPlant _ _ _ (.refl _ _)) (quiet_setPlant _ _ _)).outcome
  | i2cStartStopSeen start => exact (preserves_onYard (keeps_startStop _ (.refl _ _)) (quiet_startStop _ _)).outcome
  | secondsCount => exact (preserves_countSecond s).outcome

theorem step_preserved (s : State) : Outcome.Preserved s (step s) := by
  unfold step
  split
  · rename_i c rest _
    have taken : Preserves s { s with pending := rest } := .of_same rfl rfl rfl
    exact fun t ht => taken.trans (exec_preserved c _ t ht)
  · exact (preserves_idle s).outcome

end Sys2Proof.Machine
end
section
/-! The statement on the bounds. -/
namespace Sys2Proof.Proofs.Bounds
open Sys2Proof Sys2Proof.Machine

/-- Settles O9: every operation of the yard keeps the bounds and, with them, the places (Keeps); each command is such an
operation on a yard outside CONFIG, or leaves what the places rest on, or starts from a yard where nothing has a place. -/
theorem stepKeepsTheListBounds : Obligations.StepKeepsTheListBounds := by
  unfold Obligations.StepKeepsTheListBounds
  intro s t bounds ht
  have kept := step_preserved s t ht
  have bounded := withinBounds_iff.1 bounds
  exact ⟨withinBounds_iff.2 (kept.bounded bounded), kept.placed bounded⟩

end Sys2Proof.Proofs.Bounds
end

section
/-! SUPPORT. An answer to a HANDOVER (R59 to R64, R69): the entry that it matches, what TAKEN, HOLD and REFUSE do to
that entry, and how a position changes its state (R94, R103). -/

namespace Sys2Proof.Machine

/-! ## A position's state (R94, R102, R103) -/

section SetPosition

variable {e : Env} {n f : Nat} {st : PosState} {y : Yard} {l : Lane}

/-- The positions whose state can change: those of the fleet that are not LEAVING. -/
theorem position_changes_iff {p : Position} :
    (p.fleet == f && !p.state.isLeaving) = true ↔ p.fleet = f ∧ (p.state = .parked ∨ p.state = .calledOut) := by
  rw [Bool.and_eq_true, beq_iff_eq, Bool.not_eq_true']
  cases p.state <;> simp [PosState.isLeaving]

theorem position_stays {p : Position} (h : p.fleet = f → ∃ r, p.state = .leaving r) :
    (p.fleet == f && !p.state.isLeaving) = false := by
  refine Bool.eq_false_iff.2 fun hp => ?_
  obtain ⟨hf, hs⟩ := position_changes_iff.1 hp
  obtain ⟨r, hr⟩ := h hf
  simp [hr] at hs

theorem lane?_setPosition_self (e : Env) (f : Nat) (st : PosState) (hl : y.lane? n = some l) :
    (setPosition e n f st y).lane? n = some { l with
      positions := updFirst (fun p => p.fleet == f && !p.state.isLeaving) (fun p => { p with state := st }) l.positions } :=
  (lane?_onPositions_self e n _ y).trans (by rw [hl, Option.map_some])

/-- The first position of the fleet that is not LEAVING takes the state, in its place. -/
theorem lane?_setPosition_first {before after : List Position} {p : Position} (hl : y.lane? n = some l)
    (hp : l.positions = before ++ p :: after) (hf : p.fleet = f) (hs : p.state = .parked ∨ p.state = .calledOut)
    (hb : ∀ z ∈ before, z.fleet = f → ∃ r, z.state = .leaving r) :
    (setPosition e n f st y).lane? n = some { l with positions := before ++ ⟨f, st⟩ :: after } := by
  rw [lane?_setPosition_self e f st hl, hp,
    updFirst_append _ (fun z hz => position_stays (hb z hz)) (position_changes_iff.2 ⟨hf, hs⟩), hf]

/-- A lane with no such position stays. -/
theorem lane?_setPosition_leaving (hl : y.lane? n = some l)
    (h : ∀ z ∈ l.positions, z.fleet = f → ∃ r, z.state = .leaving r) :
    (setPosition e n f st y).lane? n = some l := by
  rw [lane?_setPosition_self e f st hl, updFirst_of_none fun z hz => position_stays (h z hz)]

theorem setPosition_parts (e : Env) (n f : Nat) (st : PosState) (y : Yard) : setPosition e n f st y = { y with
    lanes := (setPosition e n f st y).lanes, signs := (setPosition e n f st y).signs } := by
  apply yard_eq_of_parts <;> simp

end SetPosition

/-! ## The entry that an answer matches (R59, R69) -/

section TakeAnswer

variable {e : Env} {q f : Nat} {ref : SeekRef} {y : Yard} {en : SeekEntry} {w : Winner} {o : OfferEntry}

/-- A handover of the entry runs (R59). -/
def SeekState.isHanding : SeekState → Bool
  | .handing _ => true
  | _ => false

theorem isHanding_iff {st : SeekState} : st.isHanding = true ↔ ∃ ph, st = .handing ph := by
  cases st <;> simp [SeekState.isHanding]

theorem pushMatch?_eq (e : Env) (q : Nat) (ref : SeekRef) (f : Nat) (y : Yard) : pushMatch? e q ref f y
    = (ownSeek? e ref y).filter fun en =>
      en.isFor f && (en.winner.map (·.station)) == some q && en.state.isHanding := rfl

/-- The PUSH entry in HANDING of this station's seek number, the bus and the winner. -/
theorem pushMatch?_eq_some : pushMatch? e q ref f y = some en ↔
    ref.station = e.layout.own ∧ y.seekEntry? ref.number = some en ∧ (∃ sv, en.subject = .bus f sv)
      ∧ (∃ w, en.winner = some w ∧ w.station = q) ∧ ∃ ph, en.state = .handing ph := by
  rw [pushMatch?_eq, Option.filter_eq_some_iff, Bool.and_eq_true, Bool.and_eq_true, isFor_iff, isHanding_iff, beq_iff_eq,
    Option.map_eq_some_iff, ownSeek?]
  by_cases own : ref.station = e.layout.own <;> simp [own, and_assoc]

theorem exitMatch?_eq_some : exitMatch? q ref f y = some o ↔ ref.station = q ∧ y.exitOffer? ref f = some o := by
  simp [exitMatch?]

/-- An answer to another station's seek matches no PUSH entry. -/
theorem pushMatch?_foreign (h : ref.station ≠ e.layout.own) : pushMatch? e q ref f y = none :=
  Option.eq_none_iff_forall_ne_some.2 fun _ hm => h (pushMatch?_eq_some.1 hm).1

/-! ## What an answer does (R60 to R64, R69) -/

theorem takeAnswer_pushTaken (h : pushMatch? e q ref f y = some en) (hw : en.winner = some w) :
    takeAnswer e .taken q ref f y = handoverTaken e en f w y := by
  simp only [takeAnswer, h, hw]

theorem takeAnswer_pushHold (h : pushMatch? e q ref f y = some en) :
    takeAnswer e .hold q ref f y = pushHold e en y := by
  simp only [takeAnswer, h]

theorem takeAnswer_pushRefused (h : pushMatch? e q ref f y = some en) (hw : en.winner = some w) :
    takeAnswer e .refuse q ref f y = pushRefused e en f w y := by
  simp only [takeAnswer, h, hw]

theorem takeAnswer_exit (a : Answer) (h : pushMatch? e q ref f y = none) (ho : exitMatch? q ref f y = some o) :
    takeAnswer e a q ref f y = match a with
      | .taken => exitTaken e o y
      | .hold => exitHold e o y
      | .refuse => endCallOut e o y := by
  cases a <;> simp only [takeAnswer, h, ho]

theorem takeAnswer_stale (a : Answer) (h : pushMatch? e q ref f y = none) (ho : exitMatch? q ref f y = none) :
    takeAnswer e a q ref f y = countStale y := by
  simp only [takeAnswer, h, ho]

/-- A bus handed over is retired, and its location's sign shows the way (R60). -/
theorem handoverTaken_eq {sv : Service} {r : Record} (hs : en.subject = .bus f sv) (hr : y.rec? f = some r) :
    handoverTaken e en f w y
      = lightDirection e r.loc w.area sv (removeRec f (removeSeek en.number (withdrawHandover e en.number y))) := by
  simp only [handoverTaken, hr, Option.map_some, hs]

theorem lightDirection_eq (e : Env) (loc : Loc) (area : Nat) (sv : Service) (y : Yard) :
    lightDirection e loc area sv y = match loc with
      | .gate => setSign e 48 (destCode area sv) y
      | .pump p => setSign e (36 + p) (destCode area sv) y
      | .wash l => setSign e (42 + l) (destCode area sv) y
      | _ => y := by
  cases loc <;> rfl

theorem pushHold_pauses (h : en.attempts < e.layout.params.attempts) :
    pushHold e en y = onSeek en.number (fun x => { x with
      state := .handing .pausing, timer := some (1000 * e.layout.params.holdInterval) })
      (withdrawHandover e en.number y) := by
  simp only [pushHold, if_pos h]

theorem pushHold_fails (h : e.layout.params.attempts ≤ en.attempts) :
    pushHold e en y = handoverFailed e en.number (withdrawHandover e en.number y) := by
  simp only [pushHold, if_neg (Nat.not_lt.2 h)]

theorem exitHold_pauses (h : o.attempts < e.layout.params.attempts) :
    exitHold e o y = onOffer false o.ref o.fleet (fun x => { x with
      state := .paused, timer := some (1000 * e.layout.params.holdInterval) }) (withdrawExit e o.ref o.fleet y) := by
  simp only [exitHold, if_pos h]

theorem exitHold_fails (h : e.layout.params.attempts ≤ o.attempts) : exitHold e o y = exitFailed e o y := by
  simp only [exitHold, if_neg (Nat.not_lt.2 h)]

/-- The gate has taken the bus of lane l (R69, R103). -/
theorem exitTaken_lane {l : Nat} (hl : o.resource = .lane l) : exitTaken e o y
    = removeRec o.fleet (removeOffer false o.ref o.fleet
      (withdrawExit e o.ref o.fleet (leavePosition e l o.fleet y))) := by
  simp only [exitTaken, hl, Resource.laneNo]

/-- A handover of a called-out bus that failed names the gate's station (R69). -/
theorem exitFailed_lane {l : Nat} (hl : o.resource = .lane l) : exitFailed e o y
    = setPosition e l o.fleet .parked (removeOffer false o.ref o.fleet
      (withdraw e (fun x => x == .exitHandover o.ref o.fleet)
        (notify e .handoverFailed (some o.fleet) none [o.ref.station] y))) :=
  endCallOut_lane _ hl

end TakeAnswer

end Sys2Proof.Machine
end

section
/-! The statements on TAKEN, HOLD and REFUSE. -/

namespace Sys2Proof.Proofs.Handovers

open Sys2Proof Sys2Proof.Machine

/-- The oldest frame of the pool is an answer: it is taken out and acted on. -/
theorem exec_answerReceived {s : State} (hw : s.works) {a : Answer} {i : Instr}
    (hi : exec i s = .next (s.whenRunning fun e y => answerReceived e a y)) {q f : Nat} {ref : SeekRef} {d : Dest}
    (hh : s.yard.line.head = some ⟨q, d, ref, .answer a f⟩) {z : Yard}
    (hz : takeAnswer s.env a q ref f (dropHead s.yard) = z) :
    exec i s = .next { s with yard := settle s.env z } :=
  event_works hw hi (by simp only [answerReceived, hh, hz, if_pos])

/-- Settles O38: the state of a position is set at its first place that can change; a TAKEN ends the entry it matches. -/
theorem takenEndsTheHandover : Obligations.TakenEndsTheHandover := by
  refine ⟨fun e n f st y l hl => ⟨fun before p after => lane?_setPosition_first hl, lane?_setPosition_leaving hl,
      fun m hm => lane?_onPositions_other e _ y hm, setPosition_parts e n f st y, rfl⟩,
    fun s q f ref d hw hh => ⟨fun en sv w r ph hown hn hs hwin hq hst hr => ?_, fun o l hown ho hq hl => ?_⟩⟩
  · have matched : pushMatch? s.env q ref f (dropHead s.yard) = some en :=
      pushMatch?_eq_some.2 ⟨hown, hn, ⟨sv, hs⟩, ⟨w, hwin, hq⟩, ph, hst⟩
    have ended := (takeAnswer_pushTaken matched hwin).trans
      ((handoverTaken_eq hs (y := dropHead s.yard) hr).trans (lightDirection_eq ..))
    rw [seekEntry?_number hn] at ended
    exact exec_answerReceived hw rfl hh ended
  · obtain ⟨href, hfleet⟩ := exitOffer?_is ho
    have ended := (takeAnswer_exit .taken (pushMatch?_foreign hown)
      (exitMatch?_eq_some.2 ⟨hq, ho⟩ : exitMatch? q ref f (dropHead s.yard) = some o)).trans
        (exitTaken_lane (e := s.env) hl)
    rw [href, hfleet] at ended
    exact exec_answerReceived hw rfl hh ended

/-- Settles O39: the attempts decide between a pause and a failed handover; a REFUSE excludes the winner. -/
theorem holdPausesAndRefuseExcludes : Obligations.HoldPausesAndRefuseExcludes := by
  refine ⟨fun s q f n a d en sv w ph hw hh hn hs hwin hq hst => ?_, fun s q f l ref a d o hw hh hown ho hq hl => ?_⟩
  · have matched : pushMatch? s.env q ⟨s.env.layout.own, n⟩ f (dropHead s.yard) = some en :=
      pushMatch?_eq_some.2 ⟨rfl, hn, ⟨sv, hs⟩, ⟨w, hwin, hq⟩, ph, hst⟩
    obtain rfl : en.number = n := seekEntry?_number hn
    subst hq
    refine ⟨fun ha hlt => ?_, fun ha hle => ?_, fun ha => ?_⟩ <;> subst ha
    · exact exec_answerReceived hw rfl hh ((takeAnswer_pushHold matched).trans (pushHold_pauses hlt))
    · exact exec_answerReceived hw rfl hh ((takeAnswer_pushHold matched).trans (pushHold_fails hle))
    · exact exec_answerReceived hw rfl hh (takeAnswer_pushRefused matched hwin)
  · have matched : exitMatch? q ref f (dropHead s.yard) = some o := exitMatch?_eq_some.2 ⟨hq, ho⟩
    have acts (a : Answer) := takeAnswer_exit (e := s.env) a (pushMatch?_foreign hown) matched
    obtain ⟨rfl, rfl⟩ := exitOffer?_is ho
    subst hq
    refine ⟨fun ha hlt => ?_, fun ha hle => ?_, fun ha => ?_⟩ <;> subst ha
    · exact exec_answerReceived hw rfl hh ((acts .hold).trans (exitHold_pauses hlt))
    · exact exec_answerReceived hw rfl hh ((acts .hold).trans ((exitHold_fails hle).trans (exitFailed_lane hl)))
    · exact exec_answerReceived hw rfl hh ((acts .refuse).trans (endCallOut_lane _ hl))

/-- Settles O40: with neither match the answer is counted. -/
theorem aStaleAnswerIsCountedAndIgnored : Obligations.AStaleAnswerIsCountedAndIgnored := by
  intro s q f ref d a i hw hh hi hpush hexit
  have noPush : pushMatch? s.env q ref f (dropHead s.yard) = none := by
    refine Option.eq_none_iff_forall_ne_some.2 fun en hm => hpush ?_
    obtain ⟨hown, hn, ⟨sv, hs⟩, ⟨w, hwin, hq⟩, ph, hst⟩ := pushMatch?_eq_some.1 hm
    exact ⟨en, sv, w, ph, hown, hn, hs, hwin, hq, hst⟩
  have noExit : exitMatch? q ref f (dropHead s.yard) = none := by
    refine Option.eq_none_iff_forall_ne_some.2 fun o hm => hexit ?_
    obtain ⟨hq, ho⟩ := exitMatch?_eq_some.1 hm
    exact ⟨o, ho, hq⟩
  have stale := takeAnswer_stale a noPush noExit
  subst hi
  cases a <;> exact exec_answerReceived hw rfl hh stale

end Sys2Proof.Proofs.Handovers
end

section
/-! SUPPORT. A HANDOVER (R65 to R67): which of its cases applies, how the bus is inserted, and what a live offer and a
lapsed item answer. -/

namespace Sys2Proof.Machine

/-! ## The insertion and the commitment for a bus (R12, R66) -/

section InsertTaken

variable {e : Env} {res : Resource} {ref : SeekRef} {b : Carried} {late : Bool} {y z : Yard}

theorem insertTaken_refused (h : (y.rec? b.fleet).isSome = true) : insertTaken e res ref b late y = .refused := by
  simp only [insertTaken, insertAnswer_held h]

theorem insertTaken_taken (h : y.rec? b.fleet = none) (hn : y.records.length < 96)
    (hp : pushExpect e res.point.1 res.point.2.1 b.fleet res.point.2.2 (addRec ⟨b, .expected, res.loc⟩ y) = some z) :
    insertTaken e res ref b late y = .taken (commitRes e res ref b late z) := by
  simp only [insertTaken, insertAnswer_inserted h hn, hp]

/-- A full table or a full expectation queue holds the HANDOVER up. -/
theorem insertTaken_heldUp (h : y.rec? b.fleet = none) (hf : 96 ≤ y.records.length ∨
      pushExpect e res.point.1 res.point.2.1 b.fleet res.point.2.2 (addRec ⟨b, .expected, res.loc⟩ y) = none) :
    insertTaken e res ref b late y = .heldUp := by
  by_cases hn : y.records.length < 96
  · have noPush := hf.resolve_left (Nat.not_le.2 hn)
    simp only [insertTaken, insertAnswer_inserted h hn, noPush]
  · simp only [insertTaken, insertAnswer_full h (Nat.not_lt.1 hn)]

end InsertTaken

/-! ## A live offer (R65, case 1) -/

section TakeLive

variable {e : Env} {q : Nat} {o : OfferEntry} {b : Carried} {y z : Yard}

theorem takeLive_taken (hc : commitTest e o.resource b false y = true)
    (hi : insertTaken e o.resource o.ref b false y = .taken z) : takeLive e q o b y
      = reply e .taken q o.ref o.fleet (noteTaken o.ref o.fleet (removeOffer true o.ref o.fleet z)) := by
  simp only [takeLive, if_pos hc, hi]

theorem takeLive_heldUp (hc : commitTest e o.resource b false y = true)
    (hi : insertTaken e o.resource o.ref b false y = .heldUp) : takeLive e q o b y
      = reply e .hold q o.ref o.fleet (onOffer true o.ref o.fleet (fun x => { x with timer := some e.heldOn }) y) := by
  simp only [takeLive, if_pos hc, hi]

/-- A block that does not take the bus, or a fleet that is held, ends the offer. -/
theorem takeLive_refused
    (h : commitTest e o.resource b false y = false ∨ insertTaken e o.resource o.ref b false y = .refused) :
    takeLive e q o b y
      = reply e .refuse q o.ref o.fleet (removeOffer true o.ref o.fleet (releaseRes o.resource o.ref o.fleet y)) := by
  cases hc : commitTest e o.resource b false y with
  | false => simp only [takeLive, hc, Bool.false_eq_true, if_false]
  | true => simp only [takeLive, hc, if_true, h.resolve_left (by simp [hc])]

end TakeLive

/-! ## A lapsed item (R65, case 3) -/

section TakeLate

variable {e : Env} {q : Nat} {i : LapsedItem} {b : Carried} {y z : Yard}

theorem takeLate_taken (hc : commitTest e i.resource b true y = true)
    (hi : insertTaken e i.resource i.ref b true y = .taken z) : takeLate e q i b y
      = reply e .taken q i.ref i.fleet (noteTaken i.ref i.fleet (dropLapsed i.ref i.fleet z)) := by
  simp only [takeLate, if_pos hc, hi]

theorem takeLate_heldUp (hc : commitTest e i.resource b true y = true)
    (hi : insertTaken e i.resource i.ref b true y = .heldUp) : takeLate e q i b y = reply e .hold q i.ref i.fleet y := by
  simp only [takeLate, if_pos hc, hi]

theorem takeLate_refused (hc : commitTest e i.resource b true y = true)
    (hi : insertTaken e i.resource i.ref b true y = .refused) : takeLate e q i b y
      = reply e .refuse q i.ref i.fleet (dropLapsed i.ref i.fleet y) := by
  simp only [takeLate, if_pos hc, hi]

theorem takeLate_unrelated (hc : commitTest e i.resource b true y = false) : takeLate e q i b y
    = reply e .refuse q i.ref i.fleet (setFlag e .unrelated (dropLapsed i.ref i.fleet y)) := by
  simp only [takeLate, hc, Bool.false_eq_true, if_false]

end TakeLate

/-! ## The case that applies (R65) -/

section TakeHandover

variable {e : Env} {q : Nat} {ref : SeekRef} {b : Carried} {y : Yard}

theorem takeHandover_held {o : OfferEntry} (h : y.heldOffer? ref b.fleet = some o) :
    takeHandover e q ref b y = takeLive e q o b y := by
  simp only [takeHandover, h]

/-- With no AWAITING entry under the seek number the gate awaits nothing. -/
theorem awaiting?_eq_none {f : Nat}
    (h : ref.station = e.layout.own → ∀ en, y.seekEntry? ref.number = some en → en.state ≠ .awaiting) :
    awaiting? e q ref f y = none := by
  unfold awaiting?
  split
  · rename_i en hen
    have own : ref.station = e.layout.own ∧ y.seekEntry? ref.number = some en := by simpa [ownSeek?] using hen
    split
    · exact if_neg fun hs => h own.1 en own.2 hs.1
    · rfl
  · rfl

theorem isRepeat_eq_false {f : Nat} (h : y.seek.taken.contains ⟨ref, f⟩ = false ∨ y.rec? f = none) :
    isRepeat ref f y = false := by
  rcases h with h | h
  · rw [isRepeat, h, Bool.false_and]
  · simp [isRepeat, h]

variable (ho : y.heldOffer? ref b.fleet = none) (ha : awaiting? e q ref b.fleet y = none)
include ho ha

theorem takeHandover_repeat (h : isRepeat ref b.fleet y = true) :
    takeHandover e q ref b y = reply e .taken q ref b.fleet y := by
  simp only [takeHandover, ho, ha, if_pos h]

theorem takeHandover_late {i : LapsedItem} (h : isRepeat ref b.fleet y = false) (hi : lapsed? ref b.fleet y = some i) :
    takeHandover e q ref b y = takeLate e q i b y := by
  simp only [takeHandover, ho, ha, h, Bool.false_eq_true, if_false, hi]

theorem takeHandover_unrelated (h : isRepeat ref b.fleet y = false) (hi : lapsed? ref b.fleet y = none) :
    takeHandover e q ref b y = reply e .refuse q ref b.fleet (setFlag e .unrelated y) := by
  simp only [takeHandover, ho, ha, h, Bool.false_eq_true, if_false, hi]

end TakeHandover

end Sys2Proof.Machine
end

section
/-! The statement on repeated, late and unrelated HANDOVERs. -/

namespace Sys2Proof.Proofs.Handovers

open Sys2Proof Sys2Proof.Machine

/-- The oldest frame of the pool is a HANDOVER: it is taken out and acted on. -/
theorem exec_handoverReceived {s : State} (hw : s.works) {q : Nat} {ref : SeekRef} {b : Carried} {d : Dest}
    (hh : s.yard.line.head = some ⟨q, d, ref, .handover b⟩) {z : Yard}
    (hz : takeHandover s.env q ref b (dropHead s.yard) = z) :
    exec .handoverReceived s = .next { s with yard := settle s.env z } :=
  event_works hw rfl (by simp only [handoverReceived, hh, hz])

/-- Settles O42: the cases of R65 in their order, then for a lapsed item the block's test and the insertion. -/
theorem lateRepeatedAndUnrelatedHandovers : Obligations.LateRepeatedAndUnrelatedHandovers := by
  intro s q ref b d hw hh ho haw y
  replace ho : y.heldOffer? ref b.fleet = none := ho
  have ha : awaiting? s.env q ref b.fleet y = none := awaiting?_eq_none haw
  have notRepeat (h : s.yard.seek.taken.contains ⟨ref, b.fleet⟩ = false ∨ s.yard.rec? b.fleet = none) :
      isRepeat ref b.fleet y = false := isRepeat_eq_false h
  have late {i : LapsedItem} (hr : isRepeat ref b.fleet y = false) (hi : lapsed? ref b.fleet y = some i) {z : Yard}
      (hz : takeLate s.env q i b y = z) : exec .handoverReceived s = .next { s with yard := settle s.env z } :=
    exec_handoverReceived hw hh ((takeHandover_late ho ha hr hi).trans hz)
  refine ⟨fun ht hr => ?_, fun i y' hr hn hi hc hp => ?_, fun i hr hi => ?_, fun hr hi => ?_⟩
  · exact exec_handoverReceived hw hh (takeHandover_repeat ho ha (Bool.and_eq_true_iff.2 ⟨ht, hr⟩))
  · obtain ⟨rfl, hf⟩ := lapsed?_parts (z := y) hi
    exact late (notRepeat (.inr hr)) hi (by rw [takeLate_taken hc (insertTaken_taken (y := y) hr hn hp), hf, reply])
  · obtain ⟨rfl, hf⟩ := lapsed?_parts (z := y) hi
    refine ⟨fun hc => ?_, fun hc hheld => ?_, fun hc hnone hfull => ?_⟩
    · exact late (notRepeat hr) hi (by rw [takeLate_unrelated hc, hf, reply])
    · exact late (notRepeat hr) hi (by rw [takeLate_refused hc (insertTaken_refused (y := y) hheld), hf, reply])
    · exact late (notRepeat hr) hi (by rw [takeLate_heldUp hc (insertTaken_heldUp (y := y) hnone hfull), hf, reply])
  · exact exec_handoverReceived hw hh (takeHandover_unrelated ho ha (notRepeat hr) hi)

end Sys2Proof.Proofs.Handovers
end

section
/-! SUPPORT. What the serving block tests and commits for a HANDOVER (R97, R117, R143, R144), and the expectation queues
(R193 to R196). -/

namespace Sys2Proof.Machine

/-! ## The first item found -/

/-- Only what a change makes of the first item found matters. -/
theorem updFirst_congr_found {α : Type} {p : α → Bool} {f g : α → α} {l : List α} {a : α} (h : l.find? p = some a)
    (hfg : f a = g a) : updFirst p f l = updFirst p g l := by
  obtain ⟨hp, xs, zs, rfl, before⟩ := List.find?_eq_some_iff_append.1 h
  have hb : ∀ z ∈ xs, p z = false := fun z hz => by simpa using before z hz
  rw [updFirst_append f hb hp, updFirst_append g hb hp, hfg]

/-! ## The serving block's test (R97, R117, R143) -/

section CommitTest

variable {e : Env} {late : Bool} {y : Yard} {f : Nat}

theorem isLeaving_iff {st : PosState} : st.isLeaving = true ↔ ∃ r, st = .leaving r := by
  cases st <;> simp [PosState.isLeaving]

theorem hasLeaving_iff :
    y.hasLeaving f = true ↔ ∃ m ∈ y.lanes, ∃ p ∈ m.positions, p.fleet = f ∧ ∃ r, p.state = .leaving r := by
  simp [Yard.hasLeaving, isLeaving_iff]

theorem lane_state_closed_iff {l : Lane} : l.state = .closed ↔ l.closed = true := by
  unfold Lane.state
  cases l.closed <;> cases l.blocked <;> simp

theorem laneCommitTest_iff {n : Nat} : laneCommitTest n f late y = true ↔ ∃ l, y.lane? n = some l ∧ l.closed = false
    ∧ (∀ m ∈ y.lanes, ∀ p ∈ m.positions, ∀ r, p.state = .leaving r → p.fleet ≠ f)
    ∧ (l.positions.length + l.reservs.length < l.cfg.depth ∨ late = false ∧ ∃ q ∈ l.reservs, q.fleet = f) := by
  have noneLeaving : (!y.hasLeaving f) = true
      ↔ ∀ m ∈ y.lanes, ∀ p ∈ m.positions, ∀ r, p.state = .leaving r → p.fleet ≠ f := by
    rw [Bool.not_eq_true', Bool.eq_false_iff, ne_eq, hasLeaving_iff]
    push Not
    exact ⟨fun h m hm p hp r hr hf => h m hm p hp hf r hr, fun h m hm p hp hf r hr => h m hm p hp r hr hf⟩
  unfold laneCommitTest
  cases y.lane? n with
  | none => simp
  | some l =>
    simp only [Bool.and_eq_true, noneLeaving, decide_eq_true_eq, ne_eq, lane_state_closed_iff, Bool.not_eq_true,
      Bool.or_eq_true, lane_room_iff, Bool.not_eq_true', lane_lists_iff, and_assoc, Option.some.injEq, exists_eq_left']

/-- A pump of the type is in service. -/
theorem served_iff {fuel : Fuel} : y.served fuel = true ↔ ∃ p ∈ y.fuel.pumps, p.cfg.fuel = fuel ∧ p.state ≠ .out := by
  simp [Yard.served, Yard.inService]

theorem apronCommitTest_iff {fuel : Fuel} : apronCommitTest e f fuel late y = true ↔
    (∃ p ∈ y.fuel.pumps, p.cfg.fuel = fuel ∧ p.state ≠ .out)
      ∧ (y.fuel.queue.length + y.fuel.reservs.length < e.layout.islandCfg.capacity
        ∨ late = false ∧ ∃ q ∈ y.fuel.reservs, q.fleet = f) := by
  rw [apronCommitTest, Bool.and_eq_true, served_iff, Bool.or_eq_true, apronRoom_iff, Bool.and_eq_true, Bool.not_eq_true',
    apronLists_iff]

/-- A programme that a queue entry can be counted at: enabled and not above the wanted one (R142). -/
def WashCfg.fits (c : WashCfg) (wanted p : Prog) : Bool := decide (p.code ≤ wanted.code) && c.enables p

theorem washFits_iff {c : WashCfg} {wanted p : Prog} :
    c.fits wanted p = true ↔ p.code ≤ wanted.code ∧ c.enables p = true := by
  rw [WashCfg.fits, Bool.and_eq_true, decide_eq_true_iff]

theorem joinProg_eq (c : WashCfg) (wanted : Prog) : c.joinProg wanted =
    if c.fits wanted .full then .full else if c.fits wanted .standard then .standard
    else if c.fits wanted .rinse then .rinse else .noWash := by
  simp only [WashCfg.joinProg, WashCfg.bestProg, Bool.and_true]
  rfl

theorem joinProg_fits {c : WashCfg} {wanted : Prog} (h : c.joinProg wanted ≠ .noWash) :
    c.fits wanted (c.joinProg wanted) = true := by
  rw [joinProg_eq] at h ⊢
  split
  next full => exact full
  next =>
    split
    next standard => exact standard
    next =>
      split
      next rinse => exact rinse
      next => simp_all

/-- Of the programmes that fit it is the highest. -/
theorem joinProg_highest {c : WashCfg} {wanted q : Prog} (h : c.fits wanted q = true) :
    q.code ≤ (c.joinProg wanted).code := by
  rw [joinProg_eq]
  cases q with
  | noWash => exact Nat.zero_le _
  | full => rw [if_pos h]
  | standard =>
    rw [if_pos h]
    split <;> decide
  | rinse =>
    rw [if_pos h]
    (repeat' split) <;> decide

theorem joinProg_ne_noWash_iff {c : WashCfg} {wanted : Prog} : c.joinProg wanted ≠ .noWash ↔
    ∃ p, p ≠ .noWash ∧ p.code ≤ wanted.code ∧ c.enables p = true := by
  refine ⟨fun h => ⟨_, h, washFits_iff.1 (joinProg_fits h)⟩, fun ⟨p, hp, fits⟩ none => hp ?_⟩
  have lowest := joinProg_highest (washFits_iff.2 fits)
  rw [none] at lowest
  cases p with
  | noWash => rfl
  | rinse | standard | full => exact absurd lowest (by decide)

theorem washCommitTest_iff {w : Nat} {wanted : Prog} : washCommitTest w wanted late y = true ↔
    ∃ l, y.washLane? w = some l ∧ l.state ≠ .out ∧ (∃ p, p ≠ .noWash ∧ p.code ≤ wanted.code ∧ l.cfg.enables p = true)
      ∧ (late = true → l.queue.length + l.reservs.length < l.cfg.depth) := by
  unfold washCommitTest
  cases y.washLane? w with
  | none => simp
  | some l =>
    have room : (!late || l.room) = true ↔ (late = true → l.queue.length + l.reservs.length < l.cfg.depth) := by
      rw [← wash_room_iff]
      cases late <;> simp
    simp only [Bool.and_eq_true, bne_iff_ne, room, joinProg_ne_noWash_iff, and_assoc, Option.some.injEq, exists_eq_left']

end CommitTest

/-! ## The commitment (R97, R117, R144) -/

/-- A live HANDOVER's commitment stands where the entry of its key stood. -/
theorem commitIn_place {α : Type} {k : α → Nat} {x d : α} {before after : List α} (hd : k d = k x)
    (hb : ∀ z ∈ before, k z ≠ k x) : commitIn k false x (before ++ d :: after) = before ++ x :: after := by
  have listed : (before ++ d :: after).any (k · == k x) = true := by simp [hd]
  rw [commitIn, listed]
  exact updFirst_append _ (fun z hz => by simpa using hb z hz) (by simpa using hd)

/-- A late one's, or one whose key is not listed, joins the tail. -/
theorem commitIn_tail {α : Type} {k : α → Nat} {late : Bool} {x : α} {l : List α}
    (h : late = true ∨ ∀ z ∈ l, k z ≠ k x) : commitIn k late x l = l.filter (k · != k x) ++ [x] := by
  refine if_neg fun hl => ?_
  obtain ⟨live, listed⟩ := Bool.and_eq_true_iff.1 hl
  obtain ⟨z, hz, same⟩ := List.any_eq_true.1 listed
  exact h.elim (fun hlate => by simp [hlate] at live) fun none => none z hz (by simpa using same)

theorem lane?_laneCommit_self {n : Nat} {l : Lane} {y : Yard} (ref : SeekRef) (f : Nat) (release : Option Nat)
    (late : Bool) (hl : y.lane? n = some l) : (laneCommit n ref f release late y).lane? n
      = some { l with reservs := commitIn LaneRes.fleet late ⟨ref, f, release, true⟩ l.reservs } := by
  rw [laneCommit_eq]
  exact (lane?_onLane_self n (Lane.commit ref f release late) y fun _ => rfl).trans (by rw [hl]; rfl)

theorem lane?_laneCommit_other {n m : Nat} (ref : SeekRef) (f : Nat) (release : Option Nat) (late : Bool) (y : Yard)
    (h : m ≠ n) : (laneCommit n ref f release late y).lane? m = y.lane? m := by
  rw [laneCommit_eq]
  exact lane?_onLane_other _ y (fun _ => rfl) h

/-- On a wash lane the reservation goes as the bus joins the queue (R142, R144). -/
theorem joinWash_washRelease {w f skips : Nat} {ref : SeekRef} {y : Yard} {l : WashLane} {r : Record}
    (hl : y.washLane? w = some l) (hr : y.rec? f = some r) :
    joinWash w f skips (washRelease w ref f y) = { y with
      wash := { y.wash with lanes := updFirst (·.cfg.index == w) (fun x => { x with
        reservs := dropFirst (fun q => q.ref == ref && q.fleet == f) l.reservs
        queue := x.queue ++ [⟨f, x.cfg.joinProg r.bus.wash, skips⟩] }) y.wash.lanes } } := by
  have wanted : (washRelease w ref f y).washWanted f = r.bus.wash := by
    have held : (washRelease w ref f y).rec? f = some r := hr
    simp only [Yard.washWanted, held]
  have lanes := (updFirst_updFirst (p := fun x : WashLane => x.cfg.index == w)
    (f := fun x => { x with reservs := dropFirst (fun q => q.ref == ref && q.fleet == f) x.reservs })
    (g := fun x => { x with queue := x.queue ++ [⟨f, x.cfg.joinProg r.bus.wash, skips⟩] })
    (fun _ => rfl) y.wash.lanes).trans (updFirst_congr_found hl (g := fun x => { x with
      reservs := dropFirst (fun q => q.ref == ref && q.fleet == f) l.reservs
      queue := x.queue ++ [⟨f, x.cfg.joinProg r.bus.wash, skips⟩] }) rfl)
  rw [joinWash, wanted]
  exact congrArg (fun ls => { y with wash := { y.wash with lanes := ls } }) lanes

/-! ## Expectation queues (R193 to R196) -/

section Expectations

variable {e : Env} {k : PointKind} {i f : Nat} {timed : Bool} {y : Yard} {p : Point}

theorem pushExpect_unmapped (h : y.point? k i = none) : pushExpect e k i f timed y = none := by
  simp only [pushExpect, h]

/-- A full queue, or a fleet expected at some point, finds no place. -/
theorem pushExpect_full (hp : y.point? k i = some p)
    (h : 8 ≤ p.queue.length ∨ ∃ q ∈ y.points, ∃ x ∈ q.queue, x.fleet = f) : pushExpect e k i f timed y = none := by
  refine Option.eq_none_iff_forall_ne_some.2 fun t ht => ?_
  obtain ⟨p', hp', room, fresh, -⟩ := pushExpect_eq_some.1 ht
  obtain rfl : p = p' := Option.some.inj (hp.symm.trans hp')
  rcases h with full | ⟨q, hq, x, hx, hf⟩
  · omega
  · have expected : y.expected f = true := List.any_eq_true.2 ⟨q, hq, List.any_eq_true.2 ⟨x, hx, by simpa using hf⟩⟩
    simp [fresh] at expected

theorem pushExpect_pushed (hp : y.point? k i = some p) (room : p.queue.length < 8)
    (h : ∀ q ∈ y.points, ∀ x ∈ q.queue, x.fleet ≠ f) : pushExpect e k i f timed y
      = some (onQueue e k i (· ++ [⟨f, if timed then some (e.second + 60 * e.layout.params.travel) else none⟩]) y) :=
  pushExpect_eq_some.2 ⟨p, hp, room, by simpa [Yard.expected] using h, rfl⟩

theorem point?_onQueue_self (g : List Expect → List Expect) (hp : y.point? k i = some p) :
    (onQueue e k i g y).point? k i = some { p with queue := g p.queue } :=
  (find?_onQueue e k i g y).trans (by rw [hp, Option.map_some])

theorem point?_onQueue_other {k' : PointKind} {i' : Nat} (g : List Expect → List Expect) (y : Yard)
    (h : ¬ (k' = k ∧ i' = i)) : (onQueue e k i g y).point? k' i' = y.point? k' i' := by
  rw [Yard.point?, onQueue_points]
  refine find?_updFirst_other _ _ _ (fun q hq => ?_) _
  have same : q.is k' i' = false := by
    simp only [Point.is, Bool.and_eq_true, beq_iff_eq] at hq
    refine Bool.eq_false_iff.2 fun hq' => h ?_
    simp only [Point.is, Bool.and_eq_true, beq_iff_eq] at hq'
    exact ⟨hq'.1.symm.trans hq.1, hq'.2.symm.trans hq.2⟩
  exact ⟨same, same⟩

theorem onQueue_parts (e : Env) (k : PointKind) (i : Nat) (g : List Expect → List Expect) (y : Yard) :
    onQueue e k i g y = { y with points := (onQueue e k i g y).points, signs := (onQueue e k i g y).signs } := by
  apply yard_eq_of_parts <;> simp

end Expectations

end Sys2Proof.Machine
end

section
/-! The statement on a HANDOVER for a live offer. -/

namespace Sys2Proof.Proofs.Handovers

open Sys2Proof Sys2Proof.Machine

/-- A HANDOVER that a HELD entry matches is one for a live offer (R65, case 1). -/
theorem liveOffer_answered {s : State} {q : Nat} {ref : SeekRef} {b : Carried} {d : Dest} {o : OfferEntry} (hw : s.works)
    (hh : s.yard.line.head = some ⟨q, d, ref, .handover b⟩) (ho : s.yard.heldOffer? ref b.fleet = some o) {z : Yard}
    (hz : takeLive s.env q o b (dropHead s.yard) = z) :
    exec .handoverReceived s = .next { s with yard := settle s.env z } :=
  exec_handoverReceived hw hh ((takeHandover_held (y := dropHead s.yard) ho).trans hz)

/-- With the reservations that the release leaves, the bus joins the wash queue and the lane calls (R144). -/
theorem wash_committed {e : Env} {ref : SeekRef} {b : Carried} {late : Bool} {y : Yard} {w : Nat} {l : WashLane}
    {r : Record} {rs : List WashRes} (hl : y.washLane? w = some l) (hr : y.rec? b.fleet = some r)
    (hrs : dropFirst (fun q => q.ref == ref && q.fleet == b.fleet) l.reservs = rs) :
    commitRes e (.wash w) ref b late y = washCall e w { y with
      wash := { y.wash with lanes := updFirst (·.cfg.index == w) (fun l => { l with
        reservs := rs, queue := l.queue ++ [⟨b.fleet, l.cfg.joinProg r.bus.wash, 0⟩] }) y.wash.lanes } } :=
  congrArg (washCall e w) (hrs ▸ joinWash_washRelease hl hr)

/-- Settles O41: the block's test and the insertion decide the answer; then each block's test and commitment, and the
expectation queues, by their own cases. -/
theorem aHandoverForALiveOfferIsAnswered : Obligations.AHandoverForALiveOfferIsAnswered := by
  refine ⟨fun s q ref b d o hw hh ho => ?_, fun e b late y => ⟨fun n => laneCommitTest_iff,
      fun f => apronCommitTest_iff, fun w => washCommitTest_iff⟩,
    fun e ref b late y => ⟨fun n l hl => ⟨fun before q after hlate hq hf hb => ?_, fun h => ?_,
        fun m => lane?_laneCommit_other _ _ _ _ y, rfl⟩,
      fun f => ⟨fun before q after hlate hq hf hb => ?_, fun h => ?_⟩,
      fun w l r hl hr => ⟨fun before q after hq href hf hb => ?_, fun h => ?_⟩⟩,
    fun c wanted => ⟨fun h => (washFits_iff.1 (joinProg_fits h)).symm,
      fun q _ he hq => joinProg_highest (washFits_iff.2 ⟨hq, he⟩)⟩,
    fun e k i f y => ⟨fun timed => pushExpect_unmapped, fun p timed => pushExpect_full,
      fun p timed => pushExpect_pushed, rfl, rfl,
      fun g p hp => ⟨point?_onQueue_self g hp, fun k' i' => point?_onQueue_other g y, onQueue_parts e k i g y⟩⟩⟩
  · obtain ⟨rfl, hf, -⟩ := heldOffer?_parts ho
    refine ⟨fun y' hc hr hn hp => ?_, fun hc hr hfull => ?_, fun h => ?_⟩
    · exact liveOffer_answered hw hh ho
        (by rw [takeLive_taken hc (insertTaken_taken (y := dropHead s.yard) hr hn hp), hf, reply])
    · exact liveOffer_answered hw hh ho
        ((takeLive_heldUp hc (insertTaken_heldUp (y := dropHead s.yard) hr hfull)).trans (by rw [hf]; rfl))
    · exact liveOffer_answered hw hh ho
        (by rw [takeLive_refused (h.imp_right (insertTaken_refused (y := dropHead s.yard))), hf, reply])
  · subst hlate
    refine (lane?_laneCommit_self ref b.fleet _ false hl).trans ?_
    rw [hq, commitIn_place hf hb]
  · exact (lane?_laneCommit_self ref b.fleet _ late hl).trans (by rw [commitIn_tail h])
  · subst hlate
    refine (apronCommit_eq ref b.fleet f false y).trans ?_
    rw [hq, commitIn_place hf hb]
  · exact (apronCommit_eq ref b.fleet f late y).trans (by rw [commitIn_tail h])
  · refine wash_committed hl hr ?_
    rw [hq, dropFirst_append (fun z hz => Bool.eq_false_iff.2 (by simpa using hb z hz)) (by simp [href, hf])]
  · exact wash_committed hl hr (dropFirst_of_none fun z hz => Bool.eq_false_iff.2 (by simpa using h z hz))

end Sys2Proof.Proofs.Handovers
end

section
/-! SUPPORT. The timers of the seek engine (R49, R54, R57, R61, R63, R68, R69), and the reservation that ends with an
offer hold (R96, R117, R143). -/

namespace Sys2Proof.Machine

/-! ## A reservation released (R96, R117, R143) -/

/-- A change that leaves the first item found as it is leaves the list. -/
theorem updFirst_of_found_fixed {α : Type} {p : α → Bool} {f : α → α} {l : List α} {a : α} (h : l.find? p = some a)
    (hf : f a = a) : updFirst p f l = l :=
  (updFirst_congr_found (g := id) h hf).trans (updFirst_of_fixed fun _ _ => rfl)

/-- The HELD entries of a seek reference and a fleet. -/
theorem heldLaneRes_iff (ref : SeekRef) (f : Nat) (q : LaneRes) :
    (!q.committed && q.ref == ref && q.fleet == f) = true ↔ q.ref = ref ∧ q.fleet = f ∧ q.committed = false := by
  simp [and_assoc, and_comm, and_left_comm]

theorem heldApronRes_iff (ref : SeekRef) (f : Nat) (q : ApronRes) :
    (!q.committed && q.ref == ref && q.fleet == f) = true ↔ q.ref = ref ∧ q.fleet = f ∧ q.committed = false := by
  simp [and_assoc, and_comm, and_left_comm]

theorem heldWashRes_iff (ref : SeekRef) (f : Nat) (q : WashRes) :
    (q.ref == ref && q.fleet == f) = true ↔ q.ref = ref ∧ q.fleet = f := by
  simp

section Released

variable {α : Type} {p : α → Bool} {held : α → Prop} (iff : ∀ q, p q = true ↔ held q)
include iff

theorem dropFirst_held {before after : List α} {q : α} (hq : held q) (hb : ∀ z ∈ before, ¬ held z) :
    dropFirst p (before ++ q :: after) = before ++ after :=
  dropFirst_append (fun z hz => Bool.eq_false_iff.2 (mt (iff z).1 (hb z hz))) ((iff q).2 hq)

theorem dropFirst_noneHeld {l : List α} (h : ∀ z ∈ l, ¬ held z) : dropFirst p l = l :=
  dropFirst_of_none fun z hz => Bool.eq_false_iff.2 (mt (iff z).1 (h z hz))

end Released

section Lanes

variable {n : Nat} {ref : SeekRef} {f : Nat} {y : Yard} {l : Lane}

theorem lane?_laneRelease_self (hl : y.lane? n = some l) : (laneRelease n ref f y).lane? n = some { l with
    reservs := dropFirst (fun r => !r.committed && r.ref == ref && r.fleet == f) l.reservs } :=
  (lane?_onLane_self n (fun l => { l with
    reservs := dropFirst (fun r => !r.committed && r.ref == ref && r.fleet == f) l.reservs }) y fun _ => rfl).trans
      (by rw [hl, Option.map_some])

theorem laneRelease_fixed (hl : y.lane? n = some l)
    (h : dropFirst (fun r => !r.committed && r.ref == ref && r.fleet == f) l.reservs = l.reservs) :
    laneRelease n ref f y = y := by
  rw [laneRelease, onLane, updFirst_of_found_fixed hl (by rw [h])]

end Lanes

section Washes

variable {w : Nat} {ref : SeekRef} {f : Nat} {y : Yard} {l : WashLane}

theorem washLane?_washRelease_self (hl : y.washLane? w = some l) : (washRelease w ref f y).washLane? w = some { l with
    reservs := dropFirst (fun r => r.ref == ref && r.fleet == f) l.reservs } :=
  (washLane?_washRelease w ref f y).trans (by rw [hl, Option.map_some])

theorem washLane?_onWash_other {v : Nat} (g : WashLane → WashLane) (y : Yard) (hg : ∀ l, (g l).cfg = l.cfg) (h : v ≠ w) :
    (onWash w g y).washLane? v = y.washLane? v := by
  refine find?_updFirst_other _ _ _ (fun l hl => ?_) _
  simp only [beq_iff_eq] at hl
  simp [hg, hl, Ne.symm h]

theorem washRelease_fixed (hl : y.washLane? w = some l)
    (h : dropFirst (fun r => r.ref == ref && r.fleet == f) l.reservs = l.reservs) : washRelease w ref f y = y := by
  rw [washRelease, onWash, updFirst_of_found_fixed hl (by rw [h])]

end Washes

/-! ## The seek engine's timers (R54, R57, R61, R63, R68, R69) -/

section Timers

variable {e : Env} {n : Nat} {y : Yard} {en : SeekEntry}

/-- An entry goes to QUEUED with the first number from the counter on that no entry holds (R49, R52). -/
theorem newRound_eq {j : Nat} (h : y.seekEntry? n = some en) (hj : j ≤ y.seek.table.length)
    (held : ∀ i, i < j → ∃ x ∈ y.seek.table, x.number = (y.seek.counter + i) % 256)
    (free : ∀ x ∈ y.seek.table, x.number ≠ (y.seek.counter + j) % 256) :
    newRound e n y = send e (.seek ((y.seek.counter + j) % 256)) (noteGiven ((y.seek.counter + j) % 256) en.subject
      (countFrom ((y.seek.counter + j) % 256) (onSeek n (fun x => { x with
        number := (y.seek.counter + j) % 256, state := .queued, timer := none }) y))) := by
  have number : y.seek.nextNumber = (y.seek.counter + j) % 256 := firstFree_eq j hj held free
  simp only [newRound, h, number]

theorem retryExpiry_waiting (h : y.seekEntry? n = some en) (hs : en.state = .waitRetry) :
    retryExpiry e n y = newRound e n y := by
  simp only [retryExpiry, h, if_pos hs]

theorem offerHoldExpiry_held {ref : SeekRef} {f : Nat} {o : OfferEntry} (h : y.heldOffer? ref f = some o) :
    offerHoldExpiry ref f y =
      let z := removeOffer true ref f (releaseRes o.resource ref f y)
      { z with seek := { z.seek with lapsed := pushOldest 8 ⟨ref, o.service, o.resource, f⟩ y.seek.lapsed } } := by
  have lapsed : (removeOffer true ref f (releaseRes o.resource ref f y)).seek.lapsed = y.seek.lapsed := by simp
  simp only [offerHoldExpiry, h, lapsed]
  rfl

theorem awaitingHoldExpiry_awaiting {w : Winner} (h : y.seekEntry? n = some en) (hs : en.state = .awaiting)
    (hw : en.winner = some w) : awaitingHoldExpiry e n y = excludeAndRetry e n w.station y := by
  simp only [awaitingHoldExpiry, h, hs, hw]

theorem answerExpiry_pushAgain (h : y.seekEntry? n = some en) (hs : en.state = .handing .awaiting)
    (ha : en.attempts < e.layout.params.attempts) : answerExpiry e (.push n) y = sendPush e n y := by
  simp only [answerExpiry, h, if_pos hs, if_pos ha]

theorem answerExpiry_pushFails (h : y.seekEntry? n = some en) (hs : en.state = .handing .awaiting)
    (ha : e.layout.params.attempts ≤ en.attempts) : answerExpiry e (.push n) y = settle e (handoverFailed e n y) := by
  simp only [answerExpiry, h, if_pos hs, if_neg (Nat.not_lt.2 ha)]

theorem handoverFailed_eq {f : Nat} {sv : Service} {w : Winner} (h : y.seekEntry? n = some en)
    (hs : en.subject = .bus f sv) (hw : en.winner = some w) : handoverFailed e n y
      = excludeAndRetry e n w.station (enterSeeking f (notify e .handoverFailed (some f) none [w.station] y)) := by
  simp only [handoverFailed, h, hs, hw]

theorem holdEnd_push (h : y.seekEntry? n = some en) (hs : en.state = .handing .pausing) :
    holdEnd e (.push n) y = sendPush e n y := by
  simp only [holdEnd, h, if_pos hs]

variable {ref : SeekRef} {f : Nat} {o : OfferEntry} (ho : y.exitOffer? ref f = some o)
include ho

theorem answerExpiry_exitAgain (hs : o.state = .sending) (ht : o.timer.isSome = true)
    (ha : o.attempts < e.layout.params.attempts) : answerExpiry e (.exit ref f) y = sendExit e o y := by
  simp only [answerExpiry, ho, if_pos (And.intro hs ht), if_pos ha]

theorem answerExpiry_exitFails (hs : o.state = .sending) (ht : o.timer.isSome = true)
    (ha : e.layout.params.attempts ≤ o.attempts) : answerExpiry e (.exit ref f) y = settle e (exitFailed e o y) := by
  simp only [answerExpiry, ho, if_pos (And.intro hs ht), if_neg (Nat.not_lt.2 ha)]

theorem holdEnd_exit (hs : o.state = .paused) : holdEnd e (.exit ref f) y = sendExit e o y := by
  simp only [holdEnd, ho, if_pos hs]

end Timers

end Sys2Proof.Machine
end

section
/-! The statement on the timers of the seek engine. -/

namespace Sys2Proof.Proofs.Handovers

open Sys2Proof Sys2Proof.Machine

/-- Settles O48: each timer by the state of its entry; what an offer hold releases by the resource it reserved. -/
theorem seekAndHandoverTimersAct : Obligations.SeekAndHandoverTimersAct := by
  refine ⟨fun s hw => ⟨fun n en j hn hs hj held => ?_, fun hlen => firstFree_free (by omega) _, fun ref f o ho => ?_,
      fun n en w hn hs hwin => ?_⟩,
    fun ref f y => ⟨fun n l hl => ⟨fun before q after hq hheld hb =>
          ⟨?_, fun m => lane?_onLane_other _ y fun _ => rfl, rfl⟩, fun h => ?_⟩,
      fun fuel => ⟨fun before q after hq hheld hb => ?_, fun h => ?_⟩,
      fun w l hl => ⟨fun before q after hq hheld hb => ⟨?_, fun v => washLane?_onWash_other _ y fun _ => rfl, rfl⟩,
        fun h => ?_⟩⟩,
    fun s hw => ⟨fun n en hn => ⟨fun h => ?_, fun hs => ?_, fun f sv w hs ha hsub hwin => ?_⟩, fun ref f o ho => ?_⟩⟩
  · intro k free
    exact event_works hw rfl ((retryExpiry_waiting hn hs).trans (newRound_eq hn hj held free))
  · exact event_works hw rfl (offerHoldExpiry_held ho)
  · exact event_works hw rfl (awaitingHoldExpiry_awaiting hn hs hwin)
  · refine (lane?_laneRelease_self hl).trans ?_
    rw [hq, dropFirst_held (heldLaneRes_iff ref f) hheld hb]
  · exact laneRelease_fixed hl (dropFirst_noneHeld (heldLaneRes_iff ref f) h)
  · refine congrArg (fun rs => { y with fuel := { y.fuel with reservs := rs } }) ?_
    rw [hq, dropFirst_held (heldApronRes_iff ref f) hheld hb]
  · exact congrArg (fun rs => { y with fuel := { y.fuel with reservs := rs } })
      (dropFirst_noneHeld (heldApronRes_iff ref f) h)
  · refine (washLane?_washRelease_self hl).trans ?_
    rw [hq, dropFirst_held (heldWashRes_iff ref f) hheld hb]
  · exact washRelease_fixed hl (dropFirst_noneHeld (heldWashRes_iff ref f) h)
  · exact event_works hw rfl (answerExpiry_pushAgain hn h.1 h.2)
  · exact event_works hw rfl (holdEnd_push hn hs)
  · exact event_works hw rfl
      ((answerExpiry_pushFails hn hs ha).trans (congrArg (settle s.env) (handoverFailed_eq hn hsub hwin)))
  · obtain ⟨rfl, rfl⟩ := exitOffer?_is ho
    exact ⟨fun hs ht ha => event_works hw rfl (answerExpiry_exitAgain ho hs ht ha),
      fun hs => event_works hw rfl (holdEnd_exit ho hs),
      fun l hs ht ha hl => event_works hw rfl
        ((answerExpiry_exitFails ho hs ht ha).trans (congrArg (settle s.env) (exitFailed_lane hl)))⟩

end Sys2Proof.Proofs.Handovers
end

section
/-! SUPPORT. The cost unit (chapter 4): which resources of this station are candidates for a SEEK, and at what cost. -/

namespace Sys2Proof.Machine

/-- A candidate is known by its four parts. -/
theorem candidate_eq_iff {raw : Nat} {res : Resource} {area : Nat} {fleet : Option Nat} {c : Candidate} :
    (⟨raw, res, area, fleet⟩ : Candidate) = c
      ↔ c.resource = res ∧ c.area = area ∧ c.fleet = fleet ∧ c.raw = raw := by
  obtain ⟨_, _, _, _⟩ := c
  rw [Candidate.mk.injEq]
  constructor <;> rintro ⟨rfl, rfl, rfl, rfl⟩ <;> exact ⟨rfl, rfl, rfl, rfl⟩

/-! ## Placement (R80 to R82) -/

section Placement

variable {e : Env} {y : Yard} {b : BusSummary} {c : Candidate}

theorem lane_state_opened_iff {l : Lane} : l.state = .opened ↔ l.closed = false ∧ l.blocked = false := by
  unfold Lane.state
  cases l.closed <;> cases l.blocked <;> simp

/-- A truncated difference counts the later occupants alone. -/
theorem sub_eq_ite_lt (x r : Nat) : x - r = if r < x then x - r else 0 := by
  split <;> omega

theorem blockingSum_eq (rs : List Nat) (r : Nat) :
    blockingSum rs r = (rs.map fun x => if r < x then x - r else 0).sum :=
  congrArg (fun f => (rs.map f).sum) (funext fun x => sub_eq_ite_lt x r)

theorem tailGap_eq (gEmpty : Nat) (rs : List Nat) (r : Nat) : tailGap gEmpty rs r
    = if h : rs = [] then gEmpty else if rs.getLast h < r then r - rs.getLast h else 0 := by
  split
  next h => rw [h]; rfl
  next h => rw [tailGap, List.getLast?_eq_getLast_of_ne_nil h]; exact sub_eq_ite_lt r _

theorem placementCost_eq (p : Params) (l : Lane) (rs : List Nat) (r : Nat) : placementCost p l rs r
    = p.wB * (rs.map fun x => if r < x then x - r else 0).sum
      + (if h : rs = [] then p.gEmpty else if rs.getLast h < r then r - rs.getLast h else 0) / 4
      + p.wS * (l.cfg.depth - rs.length - 1) + l.cfg.bias := by
  rw [placementCost, blockingSum_eq, tailGap_eq]

/-- The OPEN lanes that take the class and have a free place, at their raw placement costs (R81, R82). -/
theorem mem_berthCandidates_iff : c ∈ berthCandidates e y b ↔ ∃ l ∈ y.lanes, ∃ rs : List Nat,
    rs = occupantReleases e.layout.params.spareRelease y l
    ∧ l.closed = false ∧ l.blocked = false ∧ l.cfg.mask.getLsbD b.cls = true ∧ rs.length < l.cfg.depth
    ∧ c.resource = .lane l.cfg.number ∧ c.area = l.cfg.area ∧ c.fleet = none
    ∧ c.raw = placementCost e.layout.params l rs (b.release.getD e.layout.params.spareRelease) := by
  simp only [berthCandidates, List.mem_filterMap, Option.ite_none_right_eq_some, Option.some.injEq,
    candidate_eq_iff, lane_state_opened_iff, and_assoc, exists_eq_left]

end Placement

/-! ## Exit (R89, R90) -/

section Exit

variable {y : Yard} {d : DutySummary} {c : Candidate}

theorem exitCost_eq (d : DutySummary) (r : Record) : exitCost d r
    = (match r.bus.pin with
      | none => if d.pinned = some r.bus.fleet then 0 else 256
      | some p =>
        if d.pinned = some r.bus.fleet ∨ p.duty = d.duty then 0
        else 1024 + (720 - ((p.release : Int) - d.release)).toNat)
      + (if r.bus.wash ≠ .noWash ∧ r.bus.washMark ≠ .done then 64 else 0)
      + (if r.bus.fuelMark = .partly ∨ r.bus.fuelMark = .deferred then 128 else 0) := by
  unfold exitCost
  cases r.bus.pin with
  | none => simp
  | some p =>
    have later : 720 + d.release - p.release = (720 - ((p.release : Int) - d.release)).toNat := by omega
    simp [later]

/-- The fronts that may serve a duty, at their raw exit costs (R89, R90). -/
theorem mem_exitCandidates_iff : c ∈ exitCandidates y d ↔ ∃ l ∈ y.lanes, ∃ f rest r,
    l.closed = false ∧ l.positions = ⟨f, .parked⟩ :: rest
    ∧ y.rec? f = some r ∧ r.state = .parked ∧ d.mask.getLsbD r.bus.cls = true ∧ r.bus.fuel = d.fuel
    ∧ d.minLevel ≤ r.bus.level
    ∧ c.resource = .lane l.cfg.number ∧ c.area = l.cfg.area ∧ c.fleet = some f ∧ c.raw = exitCost d r := by
  rw [exitCandidates, List.mem_filterMap]
  refine exists_congr fun l => and_congr_right fun _ => ?_
  rcases l.positions with _ | ⟨⟨f, st⟩, rest⟩
  case nil => simp
  case cons =>
    cases hr : y.rec? f with
    | none => simp +contextual [hr]
    | some r =>
      simp only [hr, Option.ite_none_right_eq_some, Option.some.injEq, candidate_eq_iff, ne_eq, lane_state_closed_iff,
        Bool.not_eq_true, List.cons.injEq, Position.mk.injEq]
      constructor
      · rintro ⟨⟨hclosed, rfl, hstate, hmask, hfuel, hlevel⟩, hc⟩
        exact ⟨f, rest, r, hclosed, ⟨⟨rfl, rfl⟩, rfl⟩, hr, hstate, hmask, hfuel, hlevel, hc⟩
      · rintro ⟨f, rest, r', hclosed, ⟨⟨rfl, rfl⟩, rfl⟩, hr', hstate, hmask, hfuel, hlevel, hc⟩
        cases hr.symm.trans hr'
        exact ⟨⟨hclosed, rfl, hstate, hmask, hfuel, hlevel⟩, hc⟩

end Exit

/-! ## Fuel (R83 to R85) -/

section FuelCosts

variable {e : Env} {y : Yard} {b : BusSummary} {c : Candidate}

theorem listMax_eq {l : List Nat} {m : Nat} (hm : m ∈ l) (h : ∀ x ∈ l, x ≤ m) : listMax l = m := by
  have bound : (0 :: l).max? = some m :=
    List.max?_eq_some_iff.2 ⟨.tail _ hm, List.forall_mem_cons.2 ⟨Nat.zero_le m, h⟩⟩
  exact Option.some.inj bound

theorem listMin_eq {l : List Nat} {m : Nat} (hm : m ∈ l) (h : ∀ x ∈ l, m ≤ x) : listMin l = m := by
  have bound : l.min? = some m := List.min?_eq_some_iff.2 ⟨hm, h⟩
  cases l with
  | nil => cases hm
  | cons x xs => exact Option.some.inj bound

theorem maxTurn_eq {fuel : Fuel} {largest : Nat} (hm : largest ∈ (y.inService fuel).map (·.cfg.maxTurn))
    (h : ∀ p ∈ y.inService fuel, p.cfg.maxTurn ≤ largest) : y.maxTurn fuel = largest :=
  listMax_eq hm (List.forall_mem_map.2 h)

/-- The fills ahead at the lowest rate and the turns in progress, shared among the pumps of the type (R84, R85). -/
theorem fuelWait_eq {fuel : Fuel} {lowest : Nat} (release : Option Nat)
    (hm : lowest ∈ (y.inService fuel).map (·.cfg.rate)) (h : ∀ p ∈ y.inService fuel, lowest ≤ p.cfg.rate) :
    fuelWait e y fuel release =
      ceilDiv (((y.fuel.queue.filter fun x => x.fuel == fuel && decide (x.level ≤ turnLevel e release)).map
          fun x => fillMinutes x.target lowest).sum + ((y.inService fuel).map remainingMinutes).sum)
        (y.inService fuel).length := by
  rw [← listMin_eq hm (List.forall_mem_map.2 h), fuelWait]

theorem fillTarget_eq (fuel : Fuel) (capacity level largest : Nat) (release : Option Nat) :
    fillTarget e y fuel capacity level largest release
      = min (min (capacity * (100 - level)) largest)
        (if slackOf e.minute release ≤ e.layout.islandCfg.horizon then (y.fuel.account fuel).stock
          else (y.fuel.account fuel).stock - e.layout.islandCfg.reserve fuel) :=
  (apply_ite ..).symm

theorem fuelCandidates_unserved (h : y.inService b.fuel = []) : fuelCandidates e y b = [] := by
  simp [fuelCandidates, Yard.served, h]

/-- The island, while it has room and the fill target is at least the minimum fill (R83 to R85). -/
theorem mem_fuelCandidates_iff (h : y.inService b.fuel ≠ []) : c ∈ fuelCandidates e y b ↔ b.fuel ≠ .noFuel
    ∧ y.fuel.queue.length + y.fuel.reservs.length < e.layout.islandCfg.capacity
    ∧ e.layout.islandCfg.minFill ≤ fillTarget e y b.fuel b.capacity b.level (y.maxTurn b.fuel) b.release
    ∧ c.resource = .apron b.fuel ∧ c.area = e.layout.islandCfg.area ∧ c.fleet = none
    ∧ c.raw = 4 * fuelWait e y b.fuel b.release + e.layout.islandCfg.bias := by
  have served : y.served b.fuel = true := by simpa [Yard.served] using h
  simp only [fuelCandidates, served, apronRoom_iff, List.mem_ite_nil_right, List.mem_singleton, eq_comm (a := c),
    candidate_eq_iff, true_and, and_assoc]

end FuelCosts

/-! ## Wash (R86 to R88) -/

/-- The highest programme that passes a test; NONE if there is none. -/
def highestProg (fits : Prog → Bool) : Prog :=
  if fits .full then .full else if fits .standard then .standard else if fits .rinse then .rinse else .noWash

theorem highestProg_fits {fits : Prog → Bool} (h : highestProg fits ≠ .noWash) : fits (highestProg fits) = true := by
  unfold highestProg at h ⊢
  split
  next full => exact full
  next =>
    split
    next standard => exact standard
    next =>
      split
      next rinse => exact rinse
      next => simp_all

theorem code_le_highestProg {fits : Prog → Bool} {p : Prog} (h : fits p = true) :
    p.code ≤ (highestProg fits).code := by
  unfold highestProg
  cases p with
  | noWash => exact Nat.zero_le _
  | full => rw [if_pos h]
  | standard => rw [if_pos h]; split <;> decide
  | rinse => rw [if_pos h]; (repeat' split) <;> decide

theorem code_eq_zero_iff {p : Prog} : p.code = 0 ↔ p = .noWash := by cases p <;> decide

section WashCosts

variable {e : Env} {y : Yard} {b : BusSummary} {c : Candidate} {l : WashLane} {wanted p : Prog} {x s : Nat}

/-- The test of R87 for one programme: enabled, not above the wanted one, and ending, wait and margin counted, within
the slack. -/
def WashLane.endsWithin (l : WashLane) (wanted : Prog) (x s : Nat) (p : Prog) : Bool :=
  decide (p.code ≤ wanted.code) && l.cfg.enables p && decide ((x + l.estimate p + 15) / 16 + l.cfg.margin ≤ s)

theorem endsWithin_iff : l.endsWithin wanted x s p = true ↔ p ≠ .noWash ∧ p.code ≤ wanted.code
    ∧ l.cfg.enables p = true ∧ (x + l.estimate p + 15) / 16 + l.cfg.margin ≤ s := by
  have washes (he : l.cfg.enables p = true) : p ≠ .noWash := by
    rintro rfl
    cases he
  simp only [WashLane.endsWithin, Bool.and_eq_true, decide_eq_true_eq, and_assoc]
  exact ⟨fun ⟨hcode, he, hs⟩ => ⟨washes he, hcode, he, hs⟩, fun ⟨_, h⟩ => h⟩

theorem downgrade_eq (l : WashLane) (wanted : Prog) (x s : Nat) :
    l.downgrade wanted x s = highestProg (l.endsWithin wanted x s) := rfl

theorem downgrade_endsWithin (h : l.downgrade wanted x s ≠ .noWash) :
    l.endsWithin wanted x s (l.downgrade wanted x s) = true :=
  highestProg_fits (downgrade_eq l wanted x s ▸ h)

theorem code_le_downgrade (h : l.endsWithin wanted x s p = true) : p.code ≤ (l.downgrade wanted x s).code :=
  code_le_highestProg h

theorem downgrade_ne_noWash_iff : l.downgrade wanted x s ≠ .noWash ↔ ∃ p, l.endsWithin wanted x s p = true := by
  refine ⟨fun h => ⟨_, downgrade_endsWithin h⟩, fun ⟨p, hp⟩ none => (endsWithin_iff.1 hp).1 ?_⟩
  have lowest := code_le_downgrade hp
  rw [none] at lowest
  exact code_eq_zero_iff.1 (Nat.le_zero.1 lowest)

/-- The wash now under way, as far as it is still to come, and the washes of the queue (R86). -/
theorem washWait_eq (l : WashLane) : washWait l = (match l.called, l.state with
      | some z, .calling | some z, .loading | some z, .starting => l.estimate z.prog
      | some z, .washing => l.estimate z.prog - l.washMs / 1000 * 16 / 60
      | _, _ => 0) + (l.queue.map fun z => l.estimate z.prog).sum := by
  unfold washWait
  cases l.called with
  | none => cases l.state <;> simp
  | some z => cases l.state <;> rfl

/-- The lanes not OUT with room for which a programme ends within the slack, at their waits (R87, R88). -/
theorem mem_washCandidates_iff : c ∈ washCandidates e y b ↔ ∃ l ∈ y.wash.lanes, ∃ x p,
    x = washWait l ∧ l.state ≠ .out ∧ l.queue.length + l.reservs.length < l.cfg.depth
    ∧ l.endsWithin b.wash x (slackOf e.minute b.release) p = true
    ∧ c.resource = .wash l.cfg.index ∧ c.area = l.cfg.area ∧ c.fleet = none
    ∧ c.raw = 4 * ((x + 15) / 16) + l.cfg.bias := by
  simp only [washCandidates, List.mem_filterMap, Option.ite_none_right_eq_some, Option.some.injEq,
    candidate_eq_iff, wash_room_iff, downgrade_ne_noWash_iff, ceilDiv, and_assoc]
  refine exists_congr fun l => and_congr_right fun _ => ⟨?_, ?_⟩
  · rintro ⟨hout, hroom, ⟨p, hp⟩, hc⟩
    exact ⟨_, p, rfl, hout, hroom, hp, hc⟩
  · rintro ⟨_, p, rfl, hout, hroom, hp, hc⟩
    exact ⟨hout, hroom, ⟨p, hp⟩, hc⟩

end WashCosts

end Sys2Proof.Machine
end

section
/-! The statement on the candidates of the four services and their costs. -/

namespace Sys2Proof.Proofs.Costs

open Sys2Proof Sys2Proof.Machine

/-- Settles O36: the candidates of each service by their own membership rule, with the costs written out. -/
theorem candidatesAndTheirCosts : Obligations.CandidatesAndTheirCosts := by
  refine ⟨fun e y b c => ?_, fun y d c => ?_, fun e y b c => ⟨fuelCandidates_unserved,
    fun largest hlargest upper lowest hlowest lower => ?_⟩, fun e y b c => ?_, fun l wanted x s => ⟨?_, fun h => ?_⟩⟩
  · have members := mem_berthCandidates_iff (e := e) (y := y) (b := b) (c := c)
    simp only [placementCost_eq] at members
    exact members
  · have members := mem_exitCandidates_iff (y := y) (d := d) (c := c)
    simp only [exitCost_eq] at members
    exact members
  · obtain ⟨p, hp, -⟩ := List.mem_map.1 hlowest
    refine (mem_fuelCandidates_iff (List.ne_nil_of_mem hp)).trans ?_
    rw [fuelWait_eq _ hlowest lower, fillTarget_eq, maxTurn_eq hlargest upper]
    rfl
  · have members := mem_washCandidates_iff (e := e) (y := y) (b := b) (c := c)
    simp only [washWait_eq, endsWithin_iff, and_assoc] at members
    exact members
  · rw [← not_iff_not, ← ne_eq, downgrade_ne_noWash_iff]
    simp only [endsWithin_iff, not_forall, not_not]
  · exact ⟨endsWithin_iff.1 (downgrade_endsWithin h), fun p hp => code_le_downgrade (endsWithin_iff.2 hp)⟩

end Sys2Proof.Proofs.Costs
end

section
/-! SUPPORT. The host's commands of the RUNNING phase on lanes, pumps and wash lanes (R109, R136, R155), and on a STRAY or
ADRIFT record: what a RESOLVE names, and what the owner of the point replies (R111, R137, R156, R185, R198 to R200). -/

namespace Sys2Proof.Machine

/-! ## A host command in the RUNNING phase -/

/-- The codes 15 to 26 are taken in the RUNNING phase (R210): the command sends its block's reply. -/
theorem running_reply {s : State} (h : s.ready) (hp : s.phase = .running) {code : Nat} (low : 15 ≤ code)
    (high : code ≤ 26) {i : Instr} {f : State → Reply} (hi : exec i s = .next (s.hostRow i code f)) {r : Reply} (hr : f s = r) :
    exec i s = .next (r.give code s) := by
  have taken : takenIn code s.phase = true := by simp [hp, takenIn, low, high]
  rw [hi, hostRow_taken h taken, hr]

/-! ## CLOSE LANE, OPEN LANE, REOPEN PUMP, REOPEN WASH (R109, R136, R155) -/

section Reopen

variable {s : State}

theorem setClosed_laid {n : Nat} {l : Lane} (b : Bool) (hl : s.yard.lane? n = some l) :
    setClosed n b s = .ok { s with yard := onLane n (fun l => { l with closed := b }) s.yard } := by
  simp only [setClosed, hl]

theorem setClosed_unlaid {n : Nat} (b : Bool) (hl : s.yard.lane? n = none) : setClosed n b s = .no .range := by
  simp only [setClosed, hl]

theorem cmdReopenPump_out {p : Nat} {q : Pump} (hq : s.yard.pump? p = some q) (hs : q.state = .out) :
    cmdReopenPump p s = .ok (s.inYard fun e y => reopenPump e p y) := by
  simp only [cmdReopenPump, hq, hs, if_pos]

theorem cmdReopenPump_inService {p : Nat} {q : Pump} (hq : s.yard.pump? p = some q) (hs : q.state ≠ .out) :
    cmdReopenPump p s = .ok s := by
  simp only [cmdReopenPump, hq, if_neg hs]

theorem cmdReopenPump_unlaid {p : Nat} (hq : s.yard.pump? p = none) : cmdReopenPump p s = .no .range := by
  simp only [cmdReopenPump, hq]

/-- The lane is freed from DRAINING, and from OUT with nothing inside and FAULT released (R155). -/
theorem cmdReopenWash_frees {w : Nat} {l : WashLane} (hl : s.yard.washLane? w = some l)
    (hs : (l.state = .out ∧ l.current = none ∧ s.yard.faultSeen w = false) ∨ l.state = .draining) :
    cmdReopenWash w s = .ok (s.inYard fun e y => freeWash e w y) := by
  rcases hs with ⟨hs, hc, hf⟩ | hs
  · simp [cmdReopenWash, hl, hs, hc, hf]
  · simp only [cmdReopenWash, hl, hs]

theorem cmdReopenWash_refused {w : Nat} {l : WashLane} (hl : s.yard.washLane? w = some l) (hs : l.state = .out)
    (hb : l.current.isSome = true ∨ s.yard.faultSeen w = true) : cmdReopenWash w s = .no .conflict := by
  have blocked : (l.current.isSome || s.yard.faultSeen w) = true := Bool.or_eq_true_iff.2 hb
  simp only [cmdReopenWash, hl, hs, if_pos blocked]

theorem cmdReopenWash_inService {w : Nat} {l : WashLane} (hl : s.yard.washLane? w = some l) (hout : l.state ≠ .out)
    (hdr : l.state ≠ .draining) : cmdReopenWash w s = .ok s := by
  cases hs : l.state with
  | out => exact absurd hs hout
  | draining => exact absurd hs hdr
  | _ => simp only [cmdReopenWash, hl, hs]

theorem cmdReopenWash_unlaid {w : Nat} (hl : s.yard.washLane? w = none) : cmdReopenWash w s = .no .range := by
  simp only [cmdReopenWash, hl]

end Reopen

/-! ## The record that a RESOLVE names (R198) -/

theorem rec?_fleet {y : Yard} {f : Nat} {r : Record} (h : y.rec? f = some r) : r.bus.fleet = f := by
  simpa using List.find?_some h

section Resolvable

variable {f : Nat} {y : Yard} {r : Record}

theorem resolvable_lost (h : 1 ≤ f) (h' : f ≤ 4095) (hr : y.rec? f = some r)
    (hs : r.state = .stray ∨ r.state = .adrift) : resolvable f y = .ok r := by
  simp only [resolvable, fleetOk_iff.2 ⟨h, h'⟩, hr, if_pos hs, if_pos]

theorem resolvable_range (h : f = 0 ∨ 4095 < f) : resolvable f y = .error .range := by
  have outside : ¬ fleetOk f = true := by
    rw [fleetOk_iff]
    omega
  simp only [resolvable, if_neg outside]

theorem resolvable_unknown (h : 1 ≤ f) (h' : f ≤ 4095) (hr : y.rec? f = none) : resolvable f y = .error .unknown := by
  simp only [resolvable, fleetOk_iff.2 ⟨h, h'⟩, hr, if_pos]

theorem resolvable_known (h : 1 ≤ f) (h' : f ≤ 4095) (hr : y.rec? f = some r) (hs : r.state ≠ .stray)
    (hs' : r.state ≠ .adrift) : resolvable f y = .error .conflict := by
  simp only [resolvable, fleetOk_iff.2 ⟨h, h'⟩, hr, if_pos, if_neg (not_or.2 ⟨hs, hs'⟩)]

end Resolvable

/-! ## What the owner of a mapped point replies (R111, R137, R156, R185) -/

section ResolveAt

variable {s : State} {r : Record} {f : Nat}

theorem cmdResolveAtPoint_mapped {k : PointKind} {i : Nat} (hr : resolvable f s.yard = .ok r)
    (hp : (s.yard.point? k i).isSome = true) : cmdResolveAtPoint f k i s = resolveAt r k i s := by
  simp only [cmdResolveAtPoint, hr, if_pos hp]

theorem cmdResolveAtPoint_unmapped {k : PointKind} {i : Nat} (hr : resolvable f s.yard = .ok r)
    (hp : s.yard.point? k i = none) : cmdResolveAtPoint f k i s = .no .range := by
  simp only [cmdResolveAtPoint, hr, hp, Option.isSome_none, Bool.false_eq_true, if_false]

/-- No bus can be entered at BAY, WASH_OUT and LANE_OUT (R199). -/
theorem resolveAt_leaving {k : PointKind} (h : k = .bay ∨ k = .washOut ∨ k = .laneOut) (i : Nat) :
    resolveAt r k i s = .no .conflict := by
  rcases h with rfl | rfl | rfl <;> rfl

theorem resolveAt_lane {n : Nat} {l : Lane} (hl : s.yard.lane? n = some l)
    (room : l.positions.length + l.reservs.length < l.cfg.depth) (hh : s.yard.hasLeaving r.bus.fleet = false) :
    resolveAt r .laneIn n s = .ok (s.inYard (resolveLane n r.bus.fleet)) := by
  simp [resolveAt, hl, lane_room_iff.2 room, hh]

theorem resolveAt_lane_full {n : Nat} {l : Lane} (hl : s.yard.lane? n = some l)
    (full : l.cfg.depth ≤ l.positions.length + l.reservs.length) : resolveAt r .laneIn n s = .no .full := by
  simp only [resolveAt, hl, if_neg (mt lane_room_iff.1 (Nat.not_lt.2 full))]

theorem resolveAt_lane_leaving {n : Nat} {l : Lane} (hl : s.yard.lane? n = some l)
    (room : l.positions.length + l.reservs.length < l.cfg.depth) (hh : s.yard.hasLeaving r.bus.fleet = true) :
    resolveAt r .laneIn n s = .no .conflict := by
  simp only [resolveAt, hl, if_pos (lane_room_iff.2 room), if_pos hh]

theorem resolveAt_apron (hf : r.bus.itinerary.head? = some .fuel) (hs : s.yard.served r.bus.fuel = true)
    (room : s.yard.apronOccupancy < s.layout.islandCfg.capacity) :
    resolveAt r .apronIn 0 s = .ok (s.inYard (resolveApron r)) := by
  have free : apronRoom s.env s.yard = true := decide_eq_true room
  simp [resolveAt, hf, hs, free]

theorem resolveAt_apron_refused (h : r.bus.itinerary.head? ≠ some .fuel ∨ s.yard.served r.bus.fuel = false) :
    resolveAt r .apronIn 0 s = .no .conflict := by
  simp only [resolveAt, if_pos h]

theorem resolveAt_apron_full (hf : r.bus.itinerary.head? = some .fuel) (hs : s.yard.served r.bus.fuel = true)
    (full : s.layout.islandCfg.capacity ≤ s.yard.apronOccupancy) : resolveAt r .apronIn 0 s = .no .full := by
  have taken : apronRoom s.env s.yard = false := decide_eq_false (Nat.not_lt.2 full)
  simp [resolveAt, hf, hs, taken]

/-- The wash lane cannot wash the bus: it asks for no wash, the lane is OUT, or no programme fits (R156). -/
def WashLane.refuses (l : WashLane) (r : Record) : Prop :=
  r.bus.itinerary.head? ≠ some .wash ∨ l.state = .out ∨ l.cfg.joinProg r.bus.wash = .noWash

theorem not_refuses {l : WashLane} (hw : r.bus.itinerary.head? = some .wash) (hs : l.state ≠ .out)
    (hj : l.cfg.joinProg r.bus.wash ≠ .noWash) : ¬ l.refuses r :=
  not_or.2 ⟨not_not.2 hw, not_or.2 ⟨hs, hj⟩⟩

theorem resolveAt_wash_refused {w : Nat} {l : WashLane} (hl : s.yard.washLane? w = some l) (h : l.refuses r) :
    resolveAt r .washIn w s = .no .conflict := by
  unfold WashLane.refuses at h
  simp only [resolveAt, hl, if_pos h]

theorem resolveAt_wash {w : Nat} {l : WashLane} {y : Yard} (hl : s.yard.washLane? w = some l) (h : ¬ l.refuses r)
    (room : l.queue.length + l.reservs.length < l.cfg.depth)
    (hp : pushExpect s.env .washIn w r.bus.fleet false s.yard = some y) :
    resolveAt r .washIn w s = .ok ({ s with yard := y }.inYard (resolveWash w r.bus.fleet)) := by
  unfold WashLane.refuses at h
  simp only [resolveAt, hl, if_neg h, if_pos (wash_room_iff.2 room), hp]

theorem resolveAt_wash_full {w : Nat} {l : WashLane} (hl : s.yard.washLane? w = some l) (h : ¬ l.refuses r)
    (full : l.cfg.depth ≤ l.queue.length + l.reservs.length
      ∨ pushExpect s.env .washIn w r.bus.fleet false s.yard = none) : resolveAt r .washIn w s = .no .full := by
  unfold WashLane.refuses at h
  by_cases room : l.room = true
  · have noPlace := full.resolve_left (Nat.not_le.2 (wash_room_iff.1 room))
    simp only [resolveAt, hl, if_neg h, if_pos room, noPlace]
  · simp only [resolveAt, hl, if_neg h, if_neg room]

end ResolveAt

end Sys2Proof.Machine
end

section
/-! The statements on lanes, pumps and wash lanes opened and closed, and on RESOLVE. -/

namespace Sys2Proof.Proofs.Hosts

open Sys2Proof Sys2Proof.Machine

/-! ## CLOSE LANE, OPEN LANE, REOPEN PUMP, REOPEN WASH (R109, R136, R155) -/

/-- CLOSE LANE and OPEN LANE write the closed field of their lane and nothing else (R109). -/
theorem lane_closed_written {s : State} (h : s.ready) (hp : s.phase = .running) {code : Nat} (low : 15 ≤ code)
    (high : code ≤ 26) {i : Instr} {n : Nat} {b : Bool} (hi : exec i s = .next (s.hostRow i code (setClosed n b)))
    {l : Lane} (hl : s.yard.lane? n = some l) : ∃ t, exec i s = .next t ∧ t.host.answer = some ⟨code, .done, []⟩
      ∧ t.yard.lane? n = some { l with closed := b } ∧ (∀ m, m ≠ n → t.yard.lane? m = s.yard.lane? m)
      ∧ t = { s with host := t.host, yard := { s.yard with lanes := t.yard.lanes } } :=
  ⟨_, running_reply h hp low high hi (setClosed_laid b hl), rfl,
    (lane?_onLane_self n (fun l => { l with closed := b }) s.yard fun _ => rfl).trans (by rw [hl]; rfl),
    fun _ => lane?_onLane_other (fun l => { l with closed := b }) s.yard fun _ => rfl, rfl⟩

/-- Settles O26: one write for both lane commands; the pump's and the wash lane's replies by their states. -/
theorem lanesPumpsAndWashLanesAreOpenedAndClosed : Obligations.LanesPumpsAndWashLanesAreOpenedAndClosed := by
  refine ⟨fun s n h hp => ⟨fun l hl => ⟨?_, ?_⟩, fun hl => ⟨?_, ?_⟩⟩,
    fun s h hp => ⟨fun p q hq hs => ?_, fun p q hq hs => ?_, fun p hq => ?_, fun w hl => ?_, fun w l hl hs => ?_,
      fun w l hl hs hb => ?_, fun w l hl hout hdr => ?_⟩⟩
  · obtain ⟨t, ran, answered, written, others, parts⟩ :=
      lane_closed_written (b := true) h hp (by decide) (by decide) (rfl : exec (.closeLane n) s = _) hl
    exact ⟨t, ran, answered, written, lane_state_closed_iff.2 rfl, others, parts⟩
  · obtain ⟨t, ran, answered, written, others, parts⟩ :=
      lane_closed_written (b := false) h hp (by decide) (by decide) (rfl : exec (.openLane n) s = _) hl
    exact ⟨t, ran, answered, written, rfl, others, parts⟩
  · exact running_reply h hp (by decide) (by decide) rfl (setClosed_unlaid true hl)
  · exact running_reply h hp (by decide) (by decide) rfl (setClosed_unlaid false hl)
  · exact running_reply h hp (by decide) (by decide) rfl (cmdReopenPump_out hq hs)
  · exact running_reply h hp (by decide) (by decide) rfl (cmdReopenPump_inService hq hs)
  · exact running_reply h hp (by decide) (by decide) rfl (cmdReopenPump_unlaid hq)
  · exact running_reply h hp (by decide) (by decide) rfl (cmdReopenWash_unlaid hl)
  · exact running_reply h hp (by decide) (by decide) rfl (cmdReopenWash_frees hl hs)
  · exact running_reply h hp (by decide) (by decide) rfl (cmdReopenWash_refused hl hs hb)
  · exact running_reply h hp (by decide) (by decide) rfl (cmdReopenWash_inService hl hout hdr)

/-! ## RESOLVE (R111, R137, R156, R185, R198 to R200) -/

section Resolve

variable {s : State} {f : Nat} {r : Record}

/-- At a mapped point its owner's reply is the answer. -/
theorem resolve_reply (h : s.ready) (hp : s.phase = .running) {k : PointKind} {i : Nat}
    (hr : resolvable f s.yard = .ok r) (hm : (s.yard.point? k i).isSome = true) {reply : Reply}
    (ho : resolveAt r k i s = reply) : exec (.resolveAtPoint f k i) s = .next (reply.give 22 s) :=
  running_reply h hp (by decide) (by decide) rfl ((cmdResolveAtPoint_mapped hr hm).trans ho)

/-- A RESOLVE that names no record to resolve is refused in each of its three forms. -/
theorem resolve_refused (h : s.ready) (hp : s.phase = .running) {why : HostResult}
    (hr : resolvable f s.yard = .error why) (k : PointKind) (i : Nat) :
    exec (.resolveAtPoint f k i) s = .next (s.answer 22 why [])
      ∧ exec (.resolveReseek f) s = .next (s.answer 22 why [])
      ∧ exec (.resolveLeftYard f) s = .next (s.answer 22 why []) :=
  ⟨running_reply h hp (by decide) (by decide) rfl (by simp only [cmdResolveAtPoint, hr] : _ = Reply.no why),
    running_reply h hp (by decide) (by decide) rfl (by simp only [cmdResolveReseek, hr] : _ = Reply.no why),
    running_reply h hp (by decide) (by decide) rfl (by simp only [cmdResolveLeftYard, hr] : _ = Reply.no why)⟩

end Resolve

/-- Settles O28: the record named decides first, then the point's owner by its own tests. -/
theorem resolveSettlesOrRefuses : Obligations.ResolveSettlesOrRefuses := by
  refine ⟨fun s f r h hp h1 h2 hr hs => ?_, fun s f h hp => ⟨fun hf => resolve_refused h hp (resolvable_range hf),
    fun h1 h2 hr => resolve_refused h hp (resolvable_unknown h1 h2 hr),
    fun r h1 h2 hr hs hs' => resolve_refused h hp (resolvable_known h1 h2 hr hs hs'),
    fun r h1 h2 hr hs k i => ⟨fun hm => ?_, fun hm hk => ?_⟩⟩⟩
  · obtain rfl := rec?_fleet hr
    have named := resolvable_lost h1 h2 hr hs
    refine ⟨?_, ?_, fun hm => ?_, fun hm => ?_, fun n l hm hl room hh => ?_, fun hm hf hsv room => ?_,
      fun w l y hm hl hw hout hj room hy => ?_, fun n l hm hl => ⟨fun full => ?_, fun room hh => ?_⟩,
      fun hm => ⟨fun hc => ?_, fun hf hsv full => ?_⟩, fun w l hm hl => ⟨fun hc => ?_, fun hc full => ?_⟩⟩
    · exact running_reply (r := .ok (s.inYard (resolveReseek r.bus.fleet))) h hp (by decide) (by decide) rfl
        (by simp only [cmdResolveReseek, named])
    · exact running_reply (r := .ok (s.inYard (resolveGone r.bus.fleet))) h hp (by decide) (by decide) rfl
        (by simp only [cmdResolveLeftYard, named])
    · exact resolve_reply h hp named hm rfl
    · exact resolve_reply h hp named hm rfl
    · exact resolve_reply h hp named hm (resolveAt_lane hl room hh)
    · exact resolve_reply h hp named hm (resolveAt_apron hf hsv room)
    · exact resolve_reply h hp named hm (resolveAt_wash hl (not_refuses hw hout hj) room hy)
    · exact resolve_reply h hp named hm (resolveAt_lane_full hl full)
    · exact resolve_reply h hp named hm (resolveAt_lane_leaving hl room hh)
    · exact resolve_reply h hp named hm (resolveAt_apron_refused hc)
    · exact resolve_reply h hp named hm (resolveAt_apron_full hf hsv full)
    · exact resolve_reply h hp named hm (resolveAt_wash_refused hl hc)
    · exact resolve_reply h hp named hm (resolveAt_wash_full hl hc full)
  · exact running_reply h hp (by decide) (by decide) rfl (cmdResolveAtPoint_unmapped (resolvable_lost h1 h2 hr hs) hm)
  · exact resolve_reply h hp (resolvable_lost h1 h2 hr hs) hm (resolveAt_leaving hk i)

end Sys2Proof.Proofs.Hosts
end

section
/-! SUPPORT. Signs (R201, R204): the send list after a new value, the record begun at an idle port, and the lights and call
signs that follow their resource (R104, R115, R141, R193). -/

namespace Sys2Proof.Machine

/-! ## The sign port (R204) -/

theorem kick_sending {sending : Option SignRec} (h : sending.isSome = true) (signs : List Sign) (list : List SignRec) :
    SignPort.kick ⟨signs, list, sending⟩ = ⟨signs, list, sending⟩ := by
  obtain ⟨r, rfl⟩ := Option.isSome_iff_exists.1 h
  rfl

/-- An idle port begins the oldest waiting record, if there is one. -/
theorem kick_idle {sending : Option SignRec} (h : sending = none) (signs : List Sign) (list : List SignRec) :
    SignPort.kick ⟨signs, list, sending⟩ = ⟨signs, list.drop 1, list.head?⟩ := by
  subst h
  cases list <;> rfl

/-- The send list after a sign has been given a value: the record that waits for the sign goes or takes the value, else
one joins the tail, unless the value is the one in hand. -/
def SignPort.listFor (x : Sign) (v : Nat) (p : SignPort) : List SignRec :=
  if p.list.any (·.number == x.number) then
    if x.inHand p = some v then p.list.filter (·.number != x.number)
    else p.list.map fun r => if r.number = x.number then ⟨x.number, v⟩ else r
  else if x.inHand p = some v then p.list else p.list ++ [⟨x.number, v⟩]

theorem handOver_found {p : SignPort} {n v : Nat} {x : Sign} (hx : p.signs.find? (·.number == n) = some x) :
    p.handOver n v = { p with list := p.listFor x v } := by
  obtain rfl : x.number = n := by simpa using List.find?_some hx
  have replaced (r : SignRec) : (if r.number = x.number then { r with value := v } else r)
      = if r.number = x.number then ⟨x.number, v⟩ else r := by
    split
    next same => rw [← same]
    next => rfl
  simp only [SignPort.handOver, hx, SignPort.listFor, replaced]
  (repeat' split) <;> rfl

/-! ## A sign given a value (R201, R204) -/

theorem setSign_absent {e : Env} {n v : Nat} {y : Yard} (h : ∀ z ∈ y.signs.signs, z.number ≠ n) :
    setSign e n v y = y := by
  have absent : y.signs.signs.find? (·.number == n) = none := List.find?_eq_none.2 fun z hz => by simpa using h z hz
  simp only [setSign, absent]

section SetSign

/-! The first sign of the number is the one that is given the value. -/

variable {e : Env} {n v : Nat} {y : Yard} {a b : List Sign} {x : Sign} (hs : y.signs.signs = a ++ x :: b)
  (hx : x.number = n) (ha : ∀ z ∈ a, z.number ≠ n)

include hs hx ha

theorem sign_found : y.signs.signs.find? (·.number == n) = some x := by
  rw [hs]
  exact find?_append_first (fun z hz => by simpa using ha z hz) (by simp [hx])

theorem sign_shown : updFirst (·.number == n) (fun s => { s with current := v }) y.signs.signs
    = a ++ { x with current := v } :: b := by
  rw [hs]
  exact updFirst_append _ (fun z hz => by simpa using ha z hz) (by simp [hx])

theorem setSign_same (hv : x.current = v) : setSign e n v y = y := by
  simp only [setSign, sign_found hs hx ha, if_pos hv]

theorem setSign_idle (hv : x.current ≠ v) (he : e.running = false) : setSign e n v y
    = { y with signs := ⟨a ++ { x with current := v } :: b, y.signs.list, y.signs.sending⟩ } := by
  simp only [setSign, sign_found hs hx ha, if_neg hv, he, sign_shown hs hx ha, Bool.false_eq_true, if_false]

/-- In the RUNNING phase the change goes to the send list, and an idle port begins its first record. -/
theorem setSign_running (hv : x.current ≠ v) (he : e.running = true) : setSign e n v y = { y with
    signs := SignPort.kick ⟨a ++ { x with current := v } :: b, y.signs.listFor x v, y.signs.sending⟩ } := by
  have given := handOver_found (p := ⟨a ++ { x with current := v } :: b, y.signs.list, y.signs.sending⟩) (v := v)
    (find?_append_first (p := fun z : Sign => z.number == n) (fun z hz => by simpa using ha z hz) (by simp [hx]))
  simp only [setSign, sign_found hs hx ha, if_neg hv, he, sign_shown hs hx ha, if_true, given]
  rfl

end SetSign

/-- The end of a record: its value is sent, and the port begins the next (R204). -/
theorem signSent_next {y : Yard} {r : SignRec} (h : y.signs.sending = some r) : signSent y = { y with signs :=
    ⟨updFirst (·.number == r.number) (fun x => { x with sent := some r.value }) y.signs.signs,
      y.signs.list.drop 1, y.signs.list.head?⟩ } := by
  simp only [signSent, h]
  rw [kick_idle rfl]

/-! ## Lights and call signs that follow (R104, R115, R141, R193) -/

section Follow

variable {e : Env} {y : Yard}

theorem onPositions_found {n : Nat} (g : List Position → List Position) {l : Lane} (hl : y.lane? n = some l) :
    onPositions e n g y = setSign e (16 + n) ({ l with positions := g l.positions } : Lane).light
      (onLane n (fun l => { l with positions := g l.positions }) y) := by
  have written := lane?_onLane_self n (fun l => { l with positions := g l.positions }) y fun _ => rfl
  rw [hl, Option.map_some] at written
  simp only [onPositions, laneLight, written]

theorem onQueue_lane {n : Nat} (g : List Expect → List Expect) {p : Point} (hp : y.point? .laneIn n = some p) :
    onQueue e .laneIn n g y = setSign e n (if g p.queue = [] then 0 else 1) { y with
      points := updFirst (Point.is .laneIn n) (fun p => { p with queue := g p.queue }) y.points } := by
  have written : Yard.point? { y with
      points := updFirst (Point.is .laneIn n) (fun p => { p with queue := g p.queue }) y.points } .laneIn n
      = some { p with queue := g p.queue } :=
    (find?_updFirst_self (Point.is .laneIn n) (fun p => { p with queue := g p.queue }) (fun _ h => h) _).trans
      (congrArg (Option.map _) hp)
  simp only [onQueue, entryLight, written]

theorem onQueue_other {k : PointKind} (hk : k ≠ .laneIn) (i : Nat) (g : List Expect → List Expect) :
    onQueue e k i g y = { y with points := updFirst (Point.is k i) (fun p => { p with queue := g p.queue }) y.points } := by
  cases k with
  | laneIn => exact absurd rfl hk
  | _ => rfl

theorem setPump_found {p : Nat} {g : Pump → Pump} {q : Pump} (hq : y.pump? p = some q) (hg : ∀ x, (g x).cfg = x.cfg) :
    setPump e p g y = setSign e (32 + p) (g q).callSign (onPump p g y) := by
  have written : (onPump p g y).pump? p = some (g q) :=
    (find?_updFirst_self _ g (by simp [hg]) _).trans (congrArg (Option.map g) hq)
  simp only [setPump, written]

theorem setWash_found {w : Nat} {g : WashLane → WashLane} {l : WashLane} (hl : y.washLane? w = some l)
    (hg : ∀ x, (g x).cfg = x.cfg) : setWash e w g y = setSign e (40 + w) (g l).entrySign (onWash w g y) := by
  have written : (onWash w g y).washLane? w = some (g l) := (washLane?_onWash w g y hg).trans (congrArg (Option.map g) hl)
  simp only [setWash, written]

end Follow

end Sys2Proof.Machine
end

section
/-! SUPPORT. Dwells (R191, R192, R108, R148) and the travel timeout (R197). -/

namespace Sys2Proof.Machine

variable {e : Env} {y : Yard}

/-! ## Dwells -/

/-- A running dwell timer that runs out starts again or stops, and the owner gets the DWELL. -/
theorem dwellExpiry_acts {row col left : Nat} {p : Point} (hp : y.contactPoint? row col = some p)
    (hd : p.dwell = some left) : dwellExpiry e row col y = dwellAt e p.cfg.kind p.cfg.index
      (setDwell row col (if p.cfg.repeats then some (1000 * p.cfg.dwell) else none) y) := by
  simp only [dwellExpiry, hp, hd]

theorem laneDwell_found {n : Nat} {l : Lane} (hl : y.lane? n = some l) : laneDwell e n y =
    if l.blocked then y
    else notify e .laneBlocked none (some (.lane n)) [] (onLane n (fun l => { l with blocked := true }) y) := by
  simp only [laneDwell, hl]

theorem washDwell_found {w : Nat} {l : WashLane} (hl : y.washLane? w = some l) : washDwell e w y =
    if l.state = .loading then setWash e w (fun l => { l with
      state := .starting, timer := some (1000 * l.cfg.startTimeout) }) y else y := by
  simp only [washDwell, hl]

/-- The owners of the other points do nothing more. -/
theorem dwellAt_other {k : PointKind} (hl : k ≠ .laneIn) (hw : k ≠ .washIn) (i : Nat) : dwellAt e k i y = y := by
  cases k with
  | laneIn => exact absurd rfl hl
  | washIn => exact absurd rfl hw
  | _ => rfl

/-! ## The travel timeout -/

theorem travelTimeout_acts {f : Nat} {p : Point} {x : Expect} {second : Nat} (hx : y.expectation? f = some (p, x))
    (hu : x.expiry = some second) : travelTimeout e f y
      = settle e (notify e .stray (some f) (some (.point p.cfg.kind p.cfg.index)) []
        (ownerTimeout e p.cfg.kind p.cfg.index f
          (loseRec f .stray (removeExpect e p.cfg.kind p.cfg.index f y)))) := by
  simp only [travelTimeout, hx, hu]

theorem ownerTimeout_eq (e : Env) (k : PointKind) (i f : Nat) (y : Yard) : ownerTimeout e k i f y = match k with
    | .laneIn => laneUncommit i f y
    | .apronIn => apronUncommit f y
    | .gateOut => recallFor e f y
    | _ => y := by
  cases k <;> rfl

end Sys2Proof.Machine
end

section
/-! The statement on dwells, travel timeouts and signs. -/

namespace Sys2Proof.Proofs.Tracker

open Sys2Proof Sys2Proof.Machine

/-- The DWELL reaches the owner of the contact's point. -/
theorem dwell_acts {s : State} {row col left : Nat} {p : Point} (hw : s.works)
    (hp : s.yard.contactPoint? row col = some p) (hd : p.dwell = some left) {z : Yard}
    (hz : dwellAt s.env p.cfg.kind p.cfg.index
      (setDwell row col (if p.cfg.repeats then some (1000 * p.cfg.dwell) else none) s.yard) = z) :
    exec (.dwellTimerExpiry row col) s = .next { s with yard := z } :=
  event_works hw rfl ((dwellExpiry_acts hp hd).trans hz)

/-- Settles O51: the owner of a dwell by its kind, the port of a sign busy or idle, and each sign by its resource. -/
theorem dwellTravelAndSignTimersAct : Obligations.DwellTravelAndSignTimersAct := by
  refine ⟨fun s row col p left hw hp hd => ⟨fun l hk hl => ?_, fun l hk hl => ?_, fun hk hk' => ?_⟩,
    fun s f p x second hw hx hu => ?_, fun s r hw hr => event_works hw rfl (signSent_next hr),
    fun e n v y => ⟨setSign_absent, fun a x b hs hx ha => ⟨setSign_same hs hx ha, setSign_idle hs hx ha,
      fun hv he busy => ?_, fun hv he idle => ?_⟩⟩,
    fun e y => ⟨fun n g l hl => ?_, fun n g p => onQueue_lane g, fun k i g hk => onQueue_other hk i g,
      fun p g q hq hg => ?_, fun w g l hl hg => ?_⟩⟩
  · exact dwell_acts hw hp hd (by rw [hk]; exact laneDwell_found hl)
  · exact dwell_acts hw hp hd (by rw [hk]; exact washDwell_found hl)
  · exact dwell_acts hw hp hd (dwellAt_other hk hk' _)
  · exact event_works hw rfl ((travelTimeout_acts hx hu).trans (congrArg
      (fun z => settle s.env (notify s.env .stray (some f) (some (.point p.cfg.kind p.cfg.index)) [] z))
      (ownerTimeout_eq ..)))
  · subst hx
    rw [setSign_running hs rfl ha hv he, kick_sending busy]
    rfl
  · subst hx
    rw [setSign_running hs rfl ha hv he, kick_idle idle]
    rfl
  · refine (onPositions_found g hl).trans (congrArg (setSign e (16 + n) · _) ?_)
    rcases g l.positions with _ | ⟨⟨_, _ | _ | _⟩, _⟩ <;> rfl
  · exact setPump_found hq hg
  · exact setWash_found hl hg

end Sys2Proof.Proofs.Tracker
end

section
/-! SUPPORT. Point events (R191, R192, R195): a contact's change at its point, and what the owners of LANE_IN, LANE_OUT,
GATE_OUT and GATE_IN do (R99, R105 to R107, R167, R180). -/

namespace Sys2Proof.Machine

variable {e : Env} {y : Yard}

/-! ## Contacts and expectation queues (R188, R191, R192, R195) -/

theorem contactEvent_unmapped {row col : Nat} (h : y.contactPoint? row col = none) (b : Bool) :
    contactEvent e row y (col, b) = y := by
  simp only [contactEvent, h]

theorem contactEvent_rise {row col : Nat} {p : Point} (h : y.contactPoint? row col = some p) :
    contactEvent e row y (col, true)
      = settle e (arriveAt e p.cfg.kind p.cfg.index (setDwell row col (some (1000 * p.cfg.dwell)) y)) := by
  simp only [contactEvent, h, if_true]

theorem contactEvent_fall {row col : Nat} {p : Point} (h : y.contactPoint? row col = some p) :
    contactEvent e row y (col, false) = settle e (clearAt e p.cfg.kind p.cfg.index (setDwell row col none y)) := by
  simp only [contactEvent, h, Bool.false_eq_true, if_false]

theorem receiving_iff {k : PointKind} :
    k.receiving = true ↔ k = .gateOut ∨ k = .apronIn ∨ k = .washIn ∨ k = .laneIn := by
  cases k <;> simp [PointKind.receiving]

/-- At a receiving point the oldest expectation leaves the queue and goes to the owner. -/
theorem arriveAt_expected {k : PointKind} {i : Nat} {p : Point} {x : Expect} {rest : List Expect}
    (hp : y.point? k i = some p) (hq : p.queue = x :: rest) (hk : k.receiving = true) :
    arriveAt e k i y = arrival e k i x (onQueue e k i (·.drop 1) y) := by
  have popped : popExpect e k i y = (some x, onQueue e k i (·.drop 1) y) := by simp only [popExpect, hp, hq]
  simp only [arriveAt, if_pos hk, popped]

theorem arriveAt_unexpected {k : PointKind} {i : Nat} {p : Point} (hp : y.point? k i = some p) (hq : p.queue = [])
    (hk : k.receiving = true) : arriveAt e k i y = intruder e k i y := by
  have popped : popExpect e k i y = (none, y) := by simp only [popExpect, hp, hq]
  simp only [arriveAt, if_pos hk, popped]

/-! ## Reads through an operation that leaves their table alone -/

theorem lane?_of_lanes {z : Yard} (h : z.lanes = y.lanes) (n : Nat) : z.lane? n = y.lane? n := by
  rw [Yard.lane?, Yard.lane?, h]

theorem rec?_of_records {z : Yard} (h : z.records = y.records) (f : Nat) : z.rec? f = y.rec? f := by
  rw [Yard.rec?, Yard.rec?, h]

theorem rec?_loseRec_self {f : Nat} {r : Record} (st : RecState) (hr : y.rec? f = some r) :
    (loseRec f st y).rec? f = some { r with state := st, loc := .nowhere } :=
  rec?_onRec_self (g := fun r => { r with state := st, loc := .nowhere }) (fun _ => rfl) hr

/-! ## An arrival at LANE_IN (R99) -/

/-- The record of a bus that has arrived in a lane. -/
def Record.park (n : Nat) (r : Record) : Record :=
  { r with state := .parked, loc := .lane n, bus.itinerary := (r.popHead .berth).bus.itinerary }

theorem popHead_itinerary (sv : Service) (r : Record) : (r.popHead sv).bus.itinerary =
    if r.bus.itinerary.head? = some sv then r.bus.itinerary.tail else r.bus.itinerary := by
  unfold Record.popHead
  cases h : r.bus.itinerary with
  | nil => simp [h]
  | cons s rest => by_cases hs : s = sv <;> simp [h, hs]

section LaneArrival

variable {n f : Nat}

theorem lane?_laneArrival_self {l : Lane} (hl : y.lane? n = some l) : (laneArrival e n f y).lane? n = some { l with
    reservs := l.reservs.filter fun q => !(q.committed && q.fleet == f)
    positions := l.positions ++ [⟨f, .parked⟩] } := by
  have uncommitted : (laneUncommit n f y).lane? n
      = some { l with reservs := l.reservs.filter fun q => !(q.committed && q.fleet == f) } :=
    (lane?_onLane_self n (fun l => { l with reservs := l.reservs.filter fun q => !(q.committed && q.fleet == f) }) y
      fun _ => rfl).trans (by rw [hl]; rfl)
  refine (lane?_onPositions_self e n (· ++ [⟨f, .parked⟩]) (onRec f (Record.park n) (laneUncommit n f y))).trans ?_
  rw [lane?_of_lanes (y := laneUncommit n f y) (by simp), uncommitted, Option.map_some]

theorem lane?_laneArrival_other {m : Nat} (h : m ≠ n) : (laneArrival e n f y).lane? m = y.lane? m :=
  (lane?_onPositions_other e _ _ h).trans (lane?_onLane_other _ y (fun _ => rfl) h)

theorem rec?_laneArrival (g : Nat) : (laneArrival e n f y).rec? g = (onRec f (Record.park n) y).rec? g :=
  rec?_of_records ((onPositions_frame ..).1.trans rfl) g

theorem laneArrival_parts : laneArrival e n f y = { y with
    records := (laneArrival e n f y).records
    lanes := (laneArrival e n f y).lanes
    signs := (laneArrival e n f y).signs } := by
  apply yard_eq_of_parts <;> simp [laneArrival]

end LaneArrival

/-! ## A CLEAR at LANE_OUT (R105 to R107) -/

theorem onPositions_parts (e : Env) (n : Nat) (g : List Position → List Position) (y : Yard) :
    onPositions e n g y = { y with lanes := (onPositions e n g y).lanes, signs := (onPositions e n g y).signs } := by
  apply yard_eq_of_parts <;> simp

theorem clearAt_laneOut (e : Env) (n : Nat) (y : Yard) : clearAt e .laneOut n y = laneExit e n y := rfl

section LaneExit

variable {n f : Nat} {l : Lane} {rest : List Position} (hl : y.lane? n = some l)

include hl

theorem lane?_frontGone {st : PosState} (hp : l.positions = ⟨f, st⟩ :: rest) :
    (onPositions e n (·.drop 1) y).lane? n = some { l with positions := rest } :=
  (lane?_onPositions_self e n (·.drop 1) y).trans (by rw [hl, Option.map_some, hp]; rfl)

theorem laneExit_empty (hp : l.positions = []) : laneExit e n y = countEmptyClear y := by
  simp [laneExit, hl, Lane.front, hp]

theorem laneExit_leaving {rel : Option Nat} (hp : l.positions = ⟨f, .leaving rel⟩ :: rest) :
    laneExit e n y = onPositions e n (·.drop 1) y := by
  simp [laneExit, hl, Lane.front, hp]

theorem laneExit_parked (hp : l.positions = ⟨f, .parked⟩ :: rest) : laneExit e n y
    = notify e .unplannedExit (some f) (some (.lane n)) [] (loseRec f .adrift (onPositions e n (·.drop 1) y)) := by
  simp [laneExit, hl, Lane.front, hp]

/-- A called-out bus that drives away ends its EXIT offer. -/
theorem laneExit_calledOut {o : OfferEntry} (hp : l.positions = ⟨f, .calledOut⟩ :: rest)
    (ho : y.seek.offers.find? (fun o => o.service == .exit && o.fleet == f) = some o) : laneExit e n y
      = notify e .unplannedExit (some f) (some (.lane n)) [] (removeOffer false o.ref f
        (withdraw e (fun x => x == .exitHandover o.ref f) (loseRec f .adrift (onPositions e n (·.drop 1) y)))) := by
  have listed : (loseRec f .adrift (onPositions e n (·.drop 1) y)).seek.offers.find?
      (fun o => o.service == .exit && o.fleet == f) = some o := by simpa using ho
  rw [← dropExitOffer_some listed]
  simp [laneExit, hl, Lane.front, hp]

/-- After an unplanned exit the front position is gone. -/
theorem lane?_unplannedExit (e : Env) {st : PosState} {z : Yard} (hp : l.positions = ⟨f, st⟩ :: rest)
    (lanes : z.lanes = (onPositions e n (·.drop 1) y).lanes) : z.lane? n = some { l with positions := rest } :=
  (lane?_of_lanes lanes n).trans (lane?_frontGone hl hp)

end LaneExit

/-- And the record of its bus is ADRIFT. -/
theorem rec?_unplannedExit (e : Env) {n f : Nat} {r : Record} {z : Yard} (hr : y.rec? f = some r)
    (records : z.records = (loseRec f .adrift (onPositions e n (·.drop 1) y)).records) :
    z.rec? f = some { r with state := .adrift, loc := .nowhere } :=
  (rec?_of_records records f).trans (rec?_loseRec_self .adrift ((rec?_of_records (by simp) f).trans hr))

/-! ## The exit passage (R180) -/

theorem notify_withGate (e : Env) (k : NoticeKind) (f : Option Nat) (r : Option NoticeRes) (d : List Nat) (g : GateUnit)
    (y : Yard) : notify e k f r d { y with gate := g } = { notify e k f r d y with gate := g } := by
  unfold notify
  dsimp only
  split <;> rfl

theorem exitPassage_served {f : Nat} {a b : List Duty} {d : Duty} (hy : y.gate.duties = a ++ d :: b)
    (hd : d.state = .outbound f) (ha : ∀ z ∈ a, z.state ≠ .outbound f ∧ z.number ≠ d.number) : exitPassage e f y
      = notify e .dutyServed (some f) none [d.number, lateness e.minute d.release] (removeRec f
        { y with gate := { y.gate with duties := a ++ b } }) := by
  have found : y.gate.duties.find? (fun d => d.state == .outbound f) = some d := by
    rw [hy]
    exact find?_append_first (fun z hz => by simpa using (ha z hz).1) (by simp [hd])
  have left : dropFirst (fun z : Duty => z.number == d.number) y.gate.duties = a ++ b := by
    rw [hy]
    exact dropFirst_append (fun z hz => by simpa using (ha z hz).2) (by simp)
  have passed : exitPassage e f y = removeDuty d.number
      (notify e .dutyServed (some f) none [d.number, lateness e.minute d.release] (removeRec f y)) := by
    simp only [exitPassage, removeRec_frame, found]
  have gate : (notify e .dutyServed (some f) none [d.number, lateness e.minute d.release] (removeRec f y)).gate
      = y.gate := by simp
  rw [passed, removeDuty, gate, left]
  exact (notify_withGate e _ _ _ _ { y.gate with duties := a ++ b } (removeRec f y)).symm

theorem exitPassage_unserved {f : Nat} (h : ∀ d ∈ y.gate.duties, d.state ≠ .outbound f) :
    exitPassage e f y = removeRec f y := by
  have absent : y.gate.duties.find? (fun d => d.state == .outbound f) = none :=
    List.find?_eq_none.2 fun d hd => by simpa using h d hd
  simp only [exitPassage, removeRec_frame, absent]

/-! ## An ARRIVE at GATE_IN in the loop cross-check (R167) -/

theorem crossArrive_matched {x : Nat} {rest : List Nat} (h : y.gate.reads = x :: rest) :
    crossArrive e y = { y with gate := { y.gate with reads := rest } } := by
  simp only [crossArrive, h]

theorem crossArrive_joins (h : y.gate.reads = []) (room : y.gate.arrivals.length < 8) :
    crossArrive e y = { y with gate := { y.gate with arrivals := y.gate.arrivals ++ [e.second] } } := by
  have free : y.gate.arrivals.length < Config.fifoCap := room
  simp only [crossArrive, h, if_pos free, pushOldest]

theorem crossArrive_full {x : Nat} {rest : List Nat} (h : y.gate.reads = []) (ha : y.gate.arrivals = x :: rest)
    (full : 8 ≤ y.gate.arrivals.length) : crossArrive e y
      = { gateIntruder e y with gate := { y.gate with arrivals := rest ++ [e.second] } } := by
  have taken : ¬ y.gate.arrivals.length < Config.fifoCap := Nat.not_lt.2 full
  have gate : (gateIntruder e y).gate = y.gate := by simp [gateIntruder]
  simp only [crossArrive, h, if_neg taken, gate, pushOldest]
  rw [ha, List.drop_one, List.tail_cons]

end Sys2Proof.Machine
end

section
/-! The statement on contacts and their owners. -/

namespace Sys2Proof.Proofs.Tracker

open Sys2Proof Sys2Proof.Machine

/-- Settles O50: a contact's event by its point, then each owner by the front of what it keeps. -/
theorem contactsReachTheirOwners : Obligations.ContactsReachTheirOwners := by
  refine ⟨fun e row col y => ⟨contactEvent_unmapped, fun p hp => ⟨contactEvent_rise hp, contactEvent_fall hp⟩,
      fun k i p x rest hp hq hk => arriveAt_expected hp hq (receiving_iff.2 hk),
      fun k i p hp hq hk => arriveAt_unexpected hp hq (receiving_iff.2 hk)⟩,
    fun e n y l hl => ⟨fun x r hr => ⟨lane?_laneArrival_self hl, ?_, fun g hg => ?_,
        fun m hm => lane?_laneArrival_other hm, laneArrival_parts⟩, rfl,
      ⟨(lane?_onLane_self n (fun l => { l with blocked := false }) y fun _ => rfl).trans (by rw [hl]; rfl),
        fun m hm => lane?_onLane_other _ y (fun _ => rfl) hm, rfl⟩,
      fun f rel rest hp => ?_, fun f rest r hp hr => ?_, fun f rest r o hp hr ho => ?_, laneExit_empty hl⟩,
    fun e i x y => ⟨fun a d b => exitPassage_served, exitPassage_unserved, rfl, rfl⟩,
    fun e i y => ⟨fun x rest => crossArrive_matched, crossArrive_joins, fun x rest => crossArrive_full, rfl⟩⟩
  · refine (rec?_laneArrival x.fleet).trans ((rec?_onRec_self (g := Record.park n) (fun _ => rfl) hr).trans ?_)
    rw [Record.park, popHead_itinerary]
    rcases r.bus.itinerary with _ | ⟨_ | _ | _ | _, rest⟩ <;> rfl
  · exact (rec?_laneArrival g).trans (rec?_onRec_other (g := Record.park n) y hg fun _ => rfl)
  · rw [clearAt_laneOut, laneExit_leaving hl hp]
    exact ⟨lane?_frontGone hl hp, onPositions_parts e n (·.drop 1) y⟩
  · rw [clearAt_laneOut, laneExit_parked hl hp]
    exact ⟨lane?_unplannedExit hl e hp (by simp), rec?_unplannedExit e (n := n) hr (by simp),
      fun room => by rw [notify_room _ _ _ _ _ (by simpa using room)]; simp⟩
  · rw [clearAt_laneOut, laneExit_calledOut hl hp ho]
    exact ⟨lane?_unplannedExit hl e hp (by simp), rec?_unplannedExit e (n := n) hr (by simp), rfl⟩

end Sys2Proof.Proofs.Tracker
end

section
/-! SUPPORT. The stock accounts (R114, R130, R134, R135): an account after a write, and STOCK_LOW. -/

namespace Sys2Proof.Machine

/-! ## The fuel unit's parts, and a notice raised with room -/

/-- Two fuel units with the same parts are the same. -/
theorem fuel_eq_of_parts {a b : FuelUnit} (pumps : a.pumps = b.pumps) (queue : a.queue = b.queue)
    (reservs : a.reservs = b.reservs) (diesel : a.diesel = b.diesel) (gas : a.gas = b.gas) (aging : a.aging = b.aging) :
    a = b := by
  cases a
  cases b
  simp_all

/-- With room a notice joins the tail and none is lost. -/
theorem notify_joins (e : Env) (k : NoticeKind) (f : Option Nat) (r : Option NoticeRes) (d : List Nat) {y : Yard}
    (room : y.notices.length < 32) : (notify e k f r d y).lost = y.lost ∧ (notify e k f r d y).notices
      = y.notices ++ [⟨k, if e.clockValid then e.minute else 0, f, r, d⟩] := by
  rw [notify_room _ _ _ _ _ room]
  exact ⟨rfl, rfl⟩

/-! ## An account after a write (R114) -/

section Accounts

variable {f g : Fuel} (u : FuelUnit) (a : Stock)

theorem account_setAccount_self (hf : f ≠ .noFuel) : (u.setAccount f a).account f = a := by
  cases f with
  | noFuel => exact absurd rfl hf
  | diesel => rfl
  | gas => rfl

theorem account_setAccount_other (h : g ≠ f) (hg : g ≠ .noFuel) : (u.setAccount f a).account g = u.account g := by
  cases f with
  | noFuel => rfl
  | diesel =>
    cases g with
    | noFuel => exact absurd rfl hg
    | diesel => exact absurd rfl h
    | gas => rfl
  | gas =>
    cases g with
    | noFuel => exact absurd rfl hg
    | diesel => rfl
    | gas => exact absurd rfl h

/-- Writing an account writes the two accounts and nothing beside them. -/
theorem setAccount_parts (f : Fuel) :
    u.setAccount f a = { u with diesel := (u.setAccount f a).diesel, gas := (u.setAccount f a).gas } := by
  cases f <;> rfl

end Accounts

/-! ## STOCK_LOW (R130, R135) -/

section CheckLow

variable {e : Env} {f : Fuel} {y : Yard}

/-- The notice of a stock below its reserve. -/
def lowNotice (e : Env) (f : Fuel) (stock : Nat) : Notice :=
  ⟨.stockLow, if e.clockValid then e.minute else 0, none, some (.fuel f), [stock]⟩

theorem checkLow_raised (hs : (y.fuel.account f).stock < e.layout.islandCfg.reserve f)
    (hr : (y.fuel.account f).lowReported = false) : checkLow e f y
      = notify e .stockLow none (some (.fuel f)) [(y.fuel.account f).stock]
        { y with fuel := y.fuel.setAccount f { y.fuel.account f with lowReported := true } } := if_pos ⟨hs, hr⟩

theorem checkLow_quiet (h : ¬ ((y.fuel.account f).stock < e.layout.islandCfg.reserve f
    ∧ (y.fuel.account f).lowReported = false)) : checkLow e f y = y := if_neg h

/-- The account looked at is reported low from the first time its stock is below the reserve. -/
theorem account_checkLow_self (hf : f ≠ .noFuel) : (checkLow e f y).fuel.account f = { y.fuel.account f with
    lowReported := (y.fuel.account f).lowReported
      || decide ((y.fuel.account f).stock < e.layout.islandCfg.reserve f) } := by
  by_cases h : (y.fuel.account f).stock < e.layout.islandCfg.reserve f ∧ (y.fuel.account f).lowReported = false
  · rw [checkLow_raised h.1 h.2]
    simp [account_setAccount_self _ _ hf, h.1]
  · rw [checkLow_quiet h]
    have kept : ((y.fuel.account f).lowReported
        || decide ((y.fuel.account f).stock < e.layout.islandCfg.reserve f)) = (y.fuel.account f).lowReported := by
      cases hr : (y.fuel.account f).lowReported <;> simp_all
    rw [kept]

theorem account_checkLow_other {g : Fuel} (h : g ≠ f) (hg : g ≠ .noFuel) :
    (checkLow e f y).fuel.account g = y.fuel.account g := by
  unfold checkLow
  dsimp only
  split
  · simp [account_setAccount_other _ _ h hg]
  · rfl

theorem checkLow_notices (room : y.notices.length < 32) : (checkLow e f y).lost = y.lost ∧ (checkLow e f y).notices
    = y.notices ++ if (y.fuel.account f).stock < e.layout.islandCfg.reserve f ∧ (y.fuel.account f).lowReported = false
      then [lowNotice e f (y.fuel.account f).stock] else [] := by
  by_cases h : (y.fuel.account f).stock < e.layout.islandCfg.reserve f ∧ (y.fuel.account f).lowReported = false
  · rw [checkLow_raised h.1 h.2, if_pos h]
    exact notify_joins e _ _ _ _ room
  · rw [checkLow_quiet h, if_neg h]
    exact ⟨rfl, (List.append_nil _).symm⟩

end CheckLow

end Sys2Proof.Machine
end

section
/-! The statement on SET STOCK and DELIVERY. -/

namespace Sys2Proof.Proofs.Stock

open Sys2Proof Sys2Proof.Machine

/-! ## SET STOCK (R135) -/

theorem exec_setStock {s : State} (h : s.ready) (hp : s.phase = .locked ∨ s.phase = .running) (f : Fuel) (v : Nat) :
    exec (.setStock f v) s = .next ((cmdSetStock f v s).give 12 s) := by
  have taken : takenIn 12 s.phase = true := by rcases hp with hp | hp <;> rw [hp] <;> rfl
  exact congrArg Host.Outcome.next (hostRow_taken h taken (.setStock f v) (cmdSetStock f v))

theorem hasFuel_iff {y : Yard} : y.hasFuel = true ↔ y.fuel.pumps ≠ [] := by
  simp [Yard.hasFuel]

theorem cmdSetStock_inRange {s : State} {f : Fuel} {v : Nat} (hpumps : s.yard.fuel.pumps ≠ []) (hf : f ≠ .noFuel)
    (hv : v ≤ 4294967295) : cmdSetStock f v s = .ok (s.inYard (setStock f v)) := by
  simp [cmdSetStock, hasFuel_iff.2 hpumps, hf, Config.maxStock, hv]

section SetStock

variable {e : Env} {f : Fuel} (v : Nat) (y : Yard)

theorem account_setStock_self (hf : f ≠ .noFuel) :
    (setStock f v e y).fuel.account f = ⟨v, v, 0, false, decide (v < e.layout.islandCfg.reserve f)⟩ := by
  rw [setStock, account_checkLow_self hf]
  simp [account_setAccount_self _ _ hf]

theorem account_setStock_other {g : Fuel} (h : g ≠ f) (hg : g ≠ .noFuel) :
    (setStock f v e y).fuel.account g = y.fuel.account g :=
  (account_checkLow_other h hg).trans (account_setAccount_other _ _ h hg)

theorem setStock_parts : setStock f v e y = { y with
    fuel := { y.fuel with diesel := (setStock f v e y).fuel.diesel, gas := (setStock f v e y).fuel.gas }
    notices := (setStock f v e y).notices
    lost := (setStock f v e y).lost } := by
  have fuel : (setStock f v e y).fuel
      = { y.fuel with diesel := (setStock f v e y).fuel.diesel, gas := (setStock f v e y).fuel.gas } := by
    apply fuel_eq_of_parts <;> simp [setStock]
  apply yard_eq_of_parts
  case fuel => exact fuel
  all_goals simp [setStock]

/-- With enough in stock nothing is reported. -/
theorem setStock_enough (h : e.layout.islandCfg.reserve f ≤ v) (hf : f ≠ .noFuel) :
    (setStock f v e y).notices = y.notices ∧ (setStock f v e y).lost = y.lost := by
  rw [setStock, checkLow_quiet fun low => ?_]
  · exact ⟨rfl, rfl⟩
  · rw [account_setAccount_self _ _ hf] at low
    exact Nat.not_lt.2 h low.1

/-- Below the reserve one STOCK_LOW is raised. -/
theorem setStock_low (h : v < e.layout.islandCfg.reserve f) (hf : f ≠ .noFuel) (room : y.notices.length < 32) :
    (setStock f v e y).lost = y.lost ∧ (setStock f v e y).notices = y.notices ++ [lowNotice e f v] := by
  have raised := checkLow_notices (e := e) (f := f)
    (y := { y with fuel := y.fuel.setAccount f { stock := v, setTotal := v } }) room
  rwa [account_setAccount_self _ _ hf, if_pos ⟨h, rfl⟩] at raised

end SetStock

/-! ## DELIVERY (R134) -/

/-- A delivery that leaves both sums in range is taken. -/
theorem cmdDelivery_inRange {s : State} {f : Fuel} {v : Nat} (hpumps : s.yard.fuel.pumps ≠ []) (hf : f ≠ .noFuel)
    (hv : 1 ≤ v) (hs : (s.yard.fuel.account f).stock + v ≤ 4294967295)
    (ht : (s.yard.fuel.account f).setTotal + v ≤ 4294967295) : cmdDelivery f v s = .ok (s.inYard (deliver f v)) := by
  have amount : within 1 4294967295 v = true := by
    rw [within, decide_eq_true hv, decide_eq_true (Nat.le_trans (Nat.le_add_left _ _) hs)]
    rfl
  simp [cmdDelivery, hasFuel_iff.2 hpumps, hf, amount, Config.maxStock, hs, ht]

theorem cmdDelivery_outOfRange {s : State} {f : Fuel} {v : Nat} (h : 4294967295 < (s.yard.fuel.account f).stock + v
    ∨ 4294967295 < (s.yard.fuel.account f).setTotal + v) : cmdDelivery f v s = .no .range := by
  refine if_neg fun taken => ?_
  simp only [Bool.and_eq_true, decide_eq_true_eq] at taken
  exact h.elim (Nat.not_lt.2 taken.1.2) (Nat.not_lt.2 taken.2)

/-- Settles O23: the ranges decide the reply; then one account is written, and checkLow says what SET STOCK reports. -/
theorem stockAccountsAreSetAndDelivered : Obligations.StockAccountsAreSetAndDelivered := by
  intro s f v h hpumps hf hv
  refine ⟨fun hp => ⟨_, exec_setStock h hp f v, ?_⟩, fun hp hv hs ht => ?_, fun hp out => ?_⟩
  · rw [cmdSetStock_inRange hpumps hf hv, give_ok]
    exact ⟨rfl, account_setStock_self v s.yard hf, fun enough => setStock_enough v s.yard enough hf,
      fun low room => setStock_low v s.yard low hf room, fun g hg hn => account_setStock_other v s.yard hg hn,
      congrArg (fun y => ({ s with yard := y } : State).answer 12 .done []) (setStock_parts v s.yard)⟩
  · refine ⟨_, running_reply h hp (by decide) (by decide) rfl (cmdDelivery_inRange hpumps hf hv hs ht), rfl, ?_,
      fun g hg hn => account_setAccount_other _ _ hg hn, ?_⟩
    · exact account_setAccount_self _ _ hf
    · exact congrArg (fun u => ({ s with yard := { s.yard with fuel := u } } : State).answer 16 .done [])
        (setAccount_parts s.yard.fuel _ f)
  · exact running_reply h hp (by decide) (by decide) rfl (cmdDelivery_outOfRange out)

end Sys2Proof.Proofs.Stock
end

section
/-! SUPPORT. START (R121, R186, R189, R205, R211): what the blocks begin, then the calls and the REPINs of the gate; and
a duty called when it is due (R174). -/

namespace Sys2Proof.Machine

variable {e : Env} {y : Yard} {contacts : List Contact}

/-! ## What the blocks begin (R121, R189, R205) -/

/-- The gate's poll timer starts, where there is a gate (R186). -/
def startPoll (e : Env) (y : Yard) : Yard :=
  match e.layout.gate with
  | some g => { y with gate := { y.gate with pollTimer := some g.poll } }
  | none => y

/-- The yard with signs, dwell timers, aging timer and poll timer begun, before the gate calls a duty. -/
def startBegun (contacts : List Contact) (e : Env) (y : Yard) : Yard :=
  startPoll e (startAging e (startDwell contacts (startSigns y)))

theorem startAging_eq : startAging e y = { y with fuel := { y.fuel with
    aging := if y.fuel.pumps = [] then y.fuel.aging else some (60000 * e.layout.islandCfg.aging) } } := by
  by_cases hp : y.fuel.pumps = []
  · rw [startAging, if_pos (by simp [hp]), if_pos hp]
  · rw [startAging, if_neg (by simpa using hp), if_neg hp]

theorem startPoll_eq : startPoll e y = { y with gate := { y.gate with pollTimer := match e.layout.gate with
    | some g => some g.poll
    | none => y.gate.pollTimer } } := by
  unfold startPoll
  cases e.layout.gate <;> rfl

/-- Each block writes its own part of the yard. -/
theorem startBegun_eq : startBegun contacts e y = { y with
    signs := (startSigns y).signs
    points := (startDwell contacts y).points
    fuel := (startAging e y).fuel
    gate := { y.gate with pollTimer := (startPoll e y).gate.pollTimer } } := by
  simp only [startBegun, startPoll_eq, startAging_eq]
  rfl

/-- Every sign has one record on its way, in ascending number: the first is being sent, the others wait. -/
theorem startSigns_records : (startSigns y).signs.sending.toList ++ (startSigns y).signs.list
    = y.signs.signs.map fun x => ⟨x.number, x.current⟩ := by
  rw [startSigns, kick_idle rfl]
  cases y.signs.signs <;> rfl

theorem startSigns_sent : (startSigns y).signs.signs = y.signs.signs.map fun x => { x with sent := none } := by
  rw [startSigns, kick_idle rfl]

theorem startDwell_points : (startDwell contacts y).points = y.points.map fun p =>
    if (contacts[8 * p.cfg.row + p.cfg.col]?).any (·.occupied) then { p with dwell := some (1000 * p.cfg.dwell) }
    else p := by
  refine List.map_congr_left fun p _ => ?_
  cases contacts[8 * p.cfg.row + p.cfg.col]? <;> rfl

/-! ## The gate at START (R186) -/

/-- The duties of the list are called when they are due, in list order. -/
def startCalls (e : Env) (y : Yard) : Yard := (y.gate.duties.map (·.number)).foldl (fun y n => callIfDue e n y) y

/-- A REPIN for each pin of the list whose fleet is not held, in list order. -/
def startRepins (e : Env) (y : Yard) : Yard := (y.gate.duties.map (·.number)).foldl (startRepin e) y

theorem startGate_none (h : e.layout.gate = none) : startGate e y = startPoll e y := by
  simp only [startGate, startPoll, h]

theorem startGate_some (h : e.layout.gate.isSome = true) :
    startGate e y = startRepins e (startCalls e (startPoll e y)) := by
  obtain ⟨g, hg⟩ := Option.isSome_iff_exists.1 h
  simp only [startGate, startPoll, hg]
  rfl

@[simp] theorem startRepins_frame (e : Env) (y : Yard) :
    (startRepins e y).lanes = y.lanes ∧ (startRepins e y).fuel = y.fuel ∧ (startRepins e y).wash = y.wash ∧
      (startRepins e y).gate = y.gate ∧ (startRepins e y).points = y.points ∧ (startRepins e y).signs = y.signs := by
  unfold startRepins
  generalize y.gate.duties.map (·.number) = l
  induction l generalizing y with
  | nil => simp
  | cons n l ih =>
    have repin : (startRepin e y n).lanes = y.lanes ∧ (startRepin e y n).fuel = y.fuel ∧
        (startRepin e y n).wash = y.wash ∧ (startRepin e y n).gate = y.gate ∧ (startRepin e y n).points = y.points ∧
        (startRepin e y n).signs = y.signs := by
      unfold startRepin sendRepin
      (repeat' split) <;> simp
    simpa [repin] using ih (startRepin e y n)

/-- The calls, the REPINs and the end of the event leave what the blocks have begun. -/
theorem startBlocks_begun : let t := startBlocks contacts e y
    t.signs = (startSigns y).signs ∧ t.points = (startDwell contacts y).points ∧ t.fuel = (startAging e y).fuel
      ∧ t.gate.pollTimer = (startPoll e y).gate.pollTimer ∧ t.lanes = y.lanes ∧ t.wash = y.wash := by
  intro t
  have settled : t = settle e (startGate e (startAging e (startDwell contacts (startSigns y)))) := rfl
  have begun : startPoll e (startAging e (startDwell contacts (startSigns y))) = _ := startBegun_eq
  rw [settled]
  cases h : e.layout.gate with
  | none => rw [startGate_none h, begun]; simp
  | some g => rw [startGate_some (by simp [h]), begun]; simp [startCalls]

/-- What START has made of the yard is settled from what the blocks have begun, at a gate station with the duties called
and the REPINs queued. -/
theorem startBlocks_settles (contacts : List Contact) (e : Env) (y : Yard) :
    (e.layout.gate = none → startBlocks contacts e y = settle e (startBegun contacts e y))
    ∧ (e.layout.gate.isSome = true →
      startBlocks contacts e y = settle e (startRepins e (startCalls e (startBegun contacts e y)))) :=
  ⟨fun hg => congrArg (settle e) (startGate_none hg), fun hg => congrArg (settle e) (startGate_some hg)⟩

/-! ## A duty called when it is due (R174) -/

section Due

variable {n : Nat}

theorem callIfDue_waiting {d : Duty} (h : y.duty? n = some d) (hs : d.state = .unpinned ∨ d.state = .pinned) :
    callIfDue e n y
      = if slackTo e.minute d.release ≤ e.layout.gateCfg.callLead then enterCalling e d y else y := by
  rcases hs with hs | hs <;> simp only [callIfDue, h, hs]

/-- A duty that is due goes to CALLING, and is uncovered at once with its grace over. -/
theorem enterCalling_found {d : Duty} (h : y.duty? n = some d) : enterCalling e d y
    = if graceOverNow e d.release
      then uncoverDuty e n (onDuty n (fun x => { x with state := .calling true (graceOverNow e d.release) }) y)
      else onDuty n (fun x => { x with state := .calling true (graceOverNow e d.release) }) y := by
  rw [← duty?_number h]
  rfl

theorem callIfDue_called (h : ∀ d, y.duty? n = some d → d.state ≠ .unpinned ∧ d.state ≠ .pinned) :
    callIfDue e n y = y := by
  unfold callIfDue
  cases hd : y.duty? n with
  | none => rfl
  | some d =>
    obtain ⟨hu, hp⟩ := h d hd
    cases hs : d.state with
    | unpinned => exact absurd hs hu
    | pinned => exact absurd hs hp
    | calling _ _ => simp only [hs]
    | outbound _ => simp only [hs]

end Due

end Sys2Proof.Machine
end

section
/-! The statement on START. -/

namespace Sys2Proof.Proofs.Start

open Sys2Proof Sys2Proof.Machine

theorem exec_start {s : State} (h : s.ready) (hp : s.phase = .locked) :
    exec .start s = .next ((cmdStart s).give 14 s) :=
  congrArg Host.Outcome.next (hostRow_taken h (by rw [hp]; rfl) .start cmdStart)

theorem cmdStart_invalid {s : State} (hv : s.clock.valid = false) : cmdStart s = .no .conflict := by
  simp [cmdStart, hv]

theorem cmdStart_valid {s : State} (hv : s.clock.valid = true) : cmdStart s = .ok { s with
    phase := .running
    yard := startBlocks s.scan.contacts ({ s with phase := .running } : State).env s.yard } := if_pos hv

/-- Settles O20: the clock decides; then what the blocks begin stays through the gate's calls and REPINs. -/
theorem startSetsTheBlocksGoing : Obligations.StartSetsTheBlocksGoing := by
  intro s h hp
  refine ⟨fun hv => ?_, fun hv => ?_, fun e n y => ⟨fun d hd hs => ?_, callIfDue_called⟩⟩
  · rw [exec_start h hp, cmdStart_invalid hv, give_no]
  · rw [exec_start h hp, cmdStart_valid hv, give_ok]
    have settles := startBlocks_settles s.scan.contacts ({ s with phase := .running } : State).env s.yard
    have begun := startBlocks_begun (e := ({ s with phase := .running } : State).env) (y := s.yard)
      (contacts := s.scan.contacts)
    generalize startBlocks s.scan.contacts ({ s with phase := .running } : State).env s.yard = z at settles begun ⊢
    obtain ⟨signs, points, fuel, pollTimer, lanes, wash⟩ := begun
    rw [startBegun_eq, ← signs, ← points, ← fuel, ← pollTimer] at settles
    have unit := fuel.trans (congrArg Yard.fuel startAging_eq)
    have aging := congrArg FuelUnit.aging unit
    exact ⟨_, rfl, rfl, rfl, (congrArg SignPort.signs signs).trans startSigns_sent,
      (congrArg (fun p => p.sending.toList ++ p.list) signs).trans startSigns_records,
      points.trans startDwell_points, aging, pollTimer.trans (congrArg (·.gate.pollTimer) startPoll_eq), lanes, wash,
      unit.trans (congrArg (fun a => { s.yard.fuel with aging := a }) aging.symm), settles⟩
  · rw [callIfDue_waiting hd hs, enterCalling_found hd]
    exact ⟨fun late => if_neg (Nat.not_le.2 late), fun due => if_pos due⟩

end Sys2Proof.Proofs.Start
end

section
/-! SUPPORT. A pump after a write (R115), and the nozzle and the meter (R127, R128). -/

namespace Sys2Proof.Machine

/-! ## A pump after a write (R115) -/

section Pumps

variable {e : Env} {y : Yard} {p : Nat} {g : Pump → Pump}

theorem pump?_of_pumps {z : Yard} (h : z.fuel.pumps = y.fuel.pumps) (n : Nat) : z.pump? n = y.pump? n := by
  rw [Yard.pump?, Yard.pump?, h]

theorem pump?_index {q : Pump} (h : y.pump? p = some q) : q.cfg.index = p := by
  simpa using List.find?_some h

/-- Beside its call sign a write to a pump reaches the pumps alone. -/
theorem setPump_fuel : (setPump e p g y).fuel = (onPump p g y).fuel := by
  unfold setPump
  dsimp only
  split
  · simp
  · rfl

theorem setPump_parts : setPump e p g y
    = { y with fuel := { y.fuel with pumps := (setPump e p g y).fuel.pumps }, signs := (setPump e p g y).signs } := by
  apply yard_eq_of_parts
  case fuel => rw [setPump_fuel]; rfl
  all_goals simp

theorem pump?_setPump_self {q : Pump} (hq : y.pump? p = some q) (hg : ∀ x, (g x).cfg = x.cfg) :
    (setPump e p g y).pump? p = some (g q) :=
  (pump?_of_pumps (congrArg FuelUnit.pumps setPump_fuel) p).trans
    ((find?_updFirst_self _ g (by simp [hg]) _).trans (congrArg (Option.map g) hq))

theorem pump?_setPump_other {r : Nat} (h : r ≠ p) (hg : ∀ x, (g x).cfg = x.cfg) :
    (setPump e p g y).pump? r = y.pump? r := by
  refine (pump?_of_pumps (congrArg FuelUnit.pumps setPump_fuel) r).trans (find?_updFirst_other _ _ g (fun x hx => ?_) _)
  simp only [beq_iff_eq] at hx
  simp [hg, hx, Ne.symm h]

end Pumps

/-! ## The nozzle and the meter (R127, R128) -/

section NozzleAndMeter

variable {e : Env} {y : Yard} {p : Nat} {q : Pump} (hq : y.pump? p = some q)
include hq

theorem nozzleLift_occupied {u : Turn} (hs : q.state = .occupied) (hu : q.turn = some u) :
    nozzleLift e p y = setPump e p (fun q => { q with
      state := .fuelling, enable := true, turn := some { u with pulses := 0, dispensed := 0 }
      timer := some (1000 * e.layout.islandCfg.noFlow) }) y := by
  simp only [nozzleLift, hq, hs, hu]

theorem nozzleLift_ignored (hs : q.state ≠ .occupied) : nozzleLift e p y = countNozzleIgnored y := by
  simp only [nozzleLift, hq]
  split
  next occupied _ => exact absurd occupied hs
  next => rfl

theorem nozzleHang_ignored (hs : q.state ≠ .fuelling) : nozzleHang e p y = y := by
  simp only [nozzleHang, hq]
  split
  next fuelling _ => exact absurd fuelling hs
  next => rfl

theorem meterPulse_fuelling {u : Turn} (hs : q.state = .fuelling) (hu : q.turn = some u) :
    let pulses := min 16777215 (u.pulses + 1)
    let amount := pulses * 100 / q.cfg.pulses
    let on := q.enable && decide (amount < u.target)
    meterPulse e p y = onPump p (fun q => { q with
      turn := some { u with pulses := pulses, dispensed := amount }, enable := on
      timer := if on then some (1000 * e.layout.islandCfg.noFlow) else none }) y := by
  simp only [meterPulse, hq, hs, hu]
  rfl

theorem meterPulse_ignored (hs : q.state ≠ .fuelling) : meterPulse e p y = y := by
  simp only [meterPulse, hq]
  split
  next fuelling _ => exact absurd fuelling hs
  next => rfl

end NozzleAndMeter

end Sys2Proof.Machine
end

section
/-! The statement on nozzle lifts and meter pulses. -/

namespace Sys2Proof.Proofs.Fuels

open Sys2Proof Sys2Proof.Machine

theorem enablePin_works {s : State} (hw : s.works) {p : Nat} {q : Pump} (hq : s.yard.pump? p = some q) :
    s.enablePin p = q.enable := by
  simp [State.enablePin, hw.1, hq]

/-- Settles O52: a lift and a pulse each act in one state of the pump, in the others they only count or do nothing. -/
theorem nozzleLiftsAndMeterPulses : Obligations.NozzleLiftsAndMeterPulses := by
  intro s p q hw hq
  refine ⟨fun u hs hu => ⟨_, event_works hw rfl (nozzleLift_occupied hq hs hu), ?_, ?_, ?_⟩, enablePin_works hw hq,
    fun hs => event_works hw rfl (nozzleLift_ignored hq hs), fun u hs hu => ?_, fun hs => ⟨?_, ?_⟩⟩
  · exact pump?_setPump_self hq fun _ => rfl
  · exact fun r hr => pump?_setPump_other hr fun _ => rfl
  · exact congrArg (fun y => { s with yard := y }) setPump_parts
  · exact event_works hw rfl (meterPulse_fuelling hq hs hu)
  · exact event_works hw rfl (meterPulse_ignored hq hs)
  · exact event_works hw rfl (nozzleHang_ignored hq hs)

end Sys2Proof.Proofs.Fuels
end

section
/-! SUPPORT. The end of a turn (R129 to R133): the account charged, the record written and sent seeking, a pump gone
OUT, and the CLEAR at the BAY. -/

namespace Sys2Proof.Machine

variable {e : Env} {y : Yard}

/-! ## The account charged (R130) -/

/-- The dispensed amount leaves the account, down to a stock of 0, with STOCK_SHORT when it does not suffice; whether
the stock is low is looked at after. -/
def drawStock (e : Env) (f : Fuel) (d : Nat) (y : Yard) : Yard :=
  let a := y.fuel.account f
  let total := min Config.maxStock (a.dispensed + d)
  if d ≤ a.stock then { y with fuel := y.fuel.setAccount f { a with stock := a.stock - d, dispensed := total } }
  else notify e .stockShort none (some (.fuel f)) [d - a.stock]
    { y with fuel := y.fuel.setAccount f { a with stock := 0, dispensed := total, short := true } }

theorem chargeStock_eq (f : Fuel) (d : Nat) : chargeStock e f d y = checkLow e f (drawStock e f d y) := rfl

/-- The notice of what a stock is short by. -/
def shortNotice (e : Env) (f : Fuel) (missing : Nat) : Notice :=
  ⟨.stockShort, if e.clockValid then e.minute else 0, none, some (.fuel f), [missing]⟩

section Charge

variable {f : Fuel} (d : Nat)

theorem account_drawStock (hf : f ≠ .noFuel) : (drawStock e f d y).fuel.account f = { y.fuel.account f with
    stock := (y.fuel.account f).stock - d
    dispensed := min 4294967295 ((y.fuel.account f).dispensed + d)
    short := (y.fuel.account f).short || decide ((y.fuel.account f).stock < d) } := by
  unfold drawStock
  dsimp only
  split
  next enough => simp [account_setAccount_self _ _ hf, Nat.not_lt.2 enough, Config.maxStock]
  next short =>
    have less : (y.fuel.account f).stock < d := Nat.not_le.1 short
    simp [account_setAccount_self _ _ hf, less, Nat.sub_eq_zero_of_le less.le, Config.maxStock]

theorem drawStock_notices (room : y.notices.length < 32) : (drawStock e f d y).lost = y.lost
    ∧ (drawStock e f d y).notices = y.notices
      ++ if (y.fuel.account f).stock < d then [shortNotice e f (d - (y.fuel.account f).stock)] else [] := by
  unfold drawStock
  dsimp only
  split
  next enough =>
    rw [if_neg (Nat.not_lt.2 enough)]
    exact ⟨rfl, (List.append_nil _).symm⟩
  next short =>
    rw [if_pos (Nat.not_le.1 short)]
    exact notify_joins e _ _ _ _ room

theorem account_chargeStock (hf : f ≠ .noFuel) : (chargeStock e f d y).fuel.account f = { y.fuel.account f with
    stock := (y.fuel.account f).stock - d
    dispensed := min 4294967295 ((y.fuel.account f).dispensed + d)
    short := (y.fuel.account f).short || decide ((y.fuel.account f).stock < d)
    lowReported := (y.fuel.account f).lowReported
      || decide ((y.fuel.account f).stock - d < e.layout.islandCfg.reserve f) } := by
  rw [chargeStock_eq, account_checkLow_self hf, account_drawStock d hf]

/-- With room for both notices, STOCK_SHORT comes before STOCK_LOW. -/
theorem chargeStock_notices (hf : f ≠ .noFuel) (room : y.notices.length ≤ 30) : (chargeStock e f d y).lost = y.lost
    ∧ (chargeStock e f d y).notices = y.notices
      ++ (if (y.fuel.account f).stock < d then [shortNotice e f (d - (y.fuel.account f).stock)] else [])
      ++ (if (y.fuel.account f).stock - d < e.layout.islandCfg.reserve f ∧ (y.fuel.account f).lowReported = false
          then [lowNotice e f ((y.fuel.account f).stock - d)] else []) := by
  obtain ⟨lost, drawn⟩ := drawStock_notices (e := e) (f := f) (y := y) d (by omega)
  have room' : (drawStock e f d y).notices.length < 32 := by
    rw [drawn, List.length_append]
    split <;> simp <;> omega
  obtain ⟨lost', low⟩ := checkLow_notices (e := e) (f := f) room'
  rw [account_drawStock d hf, drawn] at low
  exact ⟨lost'.trans lost, low⟩

end Charge

/-! ## The record of an ended turn (R8, R129) -/

/-- The itinerary that a bus seeks with: one that has ended, or begins with EXIT, sends it to a berth (R8). -/
def seekItinerary : List Service → List Service
  | [] => [.berth]
  | .exit :: _ => [.berth]
  | it => it

/-- An itinerary with FUEL off its head (R5). -/
def afterFuel : List Service → List Service
  | .fuel :: rest => rest
  | it => it

theorem popHead_fuel (r : Record) : (r.popHead .fuel).bus.itinerary = afterFuel r.bus.itinerary := by
  unfold Record.popHead
  cases hi : r.bus.itinerary with
  | nil => simp [hi, afterFuel]
  | cons sv rest => cases sv <;> simp [hi, afterFuel]

theorem rec?_nextStep {f : Nat} {r : Record} (h : y.rec? f = some r) : (nextStep f y).rec? f
    = some { r with state := .seeking, bus.itinerary := seekItinerary r.bus.itinerary } := by
  refine (rec?_enterSeeking_self (rec?_onRec_self (fun x => ?_) h)).trans ?_
  · split <;> rfl
  · cases hi : r.bus.itinerary with
    | nil => simp [seekItinerary]
    | cons sv rest => cases sv <;> simp [seekItinerary, ← hi]

/-- What the end of a turn writes into its record, before its next step (R129). -/
def Record.fuelled (d : Nat) (mark : FuelMark) (r : Record) : Record :=
  { r with
    state := .served
    bus.level := min 100 (r.bus.level + d / r.bus.capacity)
    bus.fuelMark := mark
    bus.itinerary := (r.popHead .fuel).bus.itinerary }

section TurnRecord

variable {q : Pump} {u : Turn} {r : Record} (d : Nat) (mark : FuelMark)

/-- The record in service at the pump takes the mark and the whole percents, and seeks its next service. -/
theorem rec?_endTurnRec (hr : y.rec? u.fleet = some r) (hs : r.state = .inService) (hl : r.loc = .pump q.cfg.index) :
    (endTurnRec q u d mark y).rec? u.fleet = some { r with
      state := .seeking
      bus.level := min 100 (r.bus.level + d / r.bus.capacity)
      bus.fuelMark := mark
      bus.itinerary := seekItinerary (afterFuel r.bus.itinerary) } := by
  have held : y.heldAt u.fleet .inService (.pump q.cfg.index) = true := by simp [Yard.heldAt, hr, hs, hl]
  unfold endTurnRec
  rw [if_pos held]
  refine (rec?_nextStep (rec?_onRec_self (g := Record.fuelled d mark) (fun _ => rfl) hr)).trans ?_
  rw [Record.fuelled, popHead_fuel]

end TurnRecord

/-! ## The nozzle hang (R129) -/

theorem account_setPump (e : Env) (p : Nat) (g : Pump → Pump) (y : Yard) (f : Fuel) :
    (setPump e p g y).fuel.account f = y.fuel.account f := by
  rw [setPump_fuel]
  cases f <;> rfl

/-- The pump of a turn ended by a hang. -/
def Pump.finish (q : Pump) : Pump := { q with state := .finished, enable := false, timer := none }

/-- The yard that a nozzle hang leaves, before the end of the event. -/
def hungUp (e : Env) (p : Nat) (q : Pump) (u : Turn) (y : Yard) : Yard :=
  endTurn e q u u.dispensed (setPump e p Pump.finish y)

section HungUp

variable {p : Nat} {q : Pump} {u : Turn}

theorem hungUp_pumps : (hungUp e p q u y).fuel.pumps = (setPump e p Pump.finish y).fuel.pumps := by
  simp [hungUp]

theorem pump?_hungUp_self (hq : y.pump? p = some q) :
    (hungUp e p q u y).pump? p = some q.finish :=
  (pump?_of_pumps hungUp_pumps p).trans (pump?_setPump_self hq fun _ => rfl)

theorem pump?_hungUp_other {r : Nat} (h : r ≠ p) : (hungUp e p q u y).pump? r = y.pump? r :=
  (pump?_of_pumps hungUp_pumps r).trans (pump?_setPump_other h fun _ => rfl)

theorem account_hungUp (hf : q.cfg.fuel ≠ .noFuel) :
    let a := y.fuel.account q.cfg.fuel
    (hungUp e p q u y).fuel.account q.cfg.fuel = { a with
      stock := a.stock - u.dispensed
      dispensed := min 4294967295 (a.dispensed + u.dispensed)
      short := a.short || decide (a.stock < u.dispensed)
      lowReported := a.lowReported || decide (a.stock - u.dispensed < e.layout.islandCfg.reserve q.cfg.fuel) } := by
  intro a
  simp only [hungUp, endTurn, endTurnRec_frame]
  rw [account_chargeStock _ hf, account_setPump]

theorem hungUp_notices (hf : q.cfg.fuel ≠ .noFuel) (room : y.notices.length ≤ 30) :
    let a := y.fuel.account q.cfg.fuel
    (hungUp e p q u y).lost = y.lost ∧ (hungUp e p q u y).notices = y.notices
      ++ (if a.stock < u.dispensed then [shortNotice e q.cfg.fuel (u.dispensed - a.stock)] else [])
      ++ (if a.stock - u.dispensed < e.layout.islandCfg.reserve q.cfg.fuel ∧ a.lowReported = false
          then [lowNotice e q.cfg.fuel (a.stock - u.dispensed)] else []) := by
  intro a
  have charged := chargeStock_notices (e := e) (d := u.dispensed) (y := setPump e p Pump.finish y) hf
    (by simpa using room)
  rw [account_setPump] at charged
  simpa [hungUp, endTurn] using charged

theorem rec?_hungUp {r : Record} (hr : y.rec? u.fleet = some r) (hs : r.state = .inService)
    (hl : r.loc = .pump q.cfg.index) : (hungUp e p q u y).rec? u.fleet = some { r with
      state := .seeking
      bus.level := min 100 (r.bus.level + u.dispensed / r.bus.capacity)
      bus.fuelMark := if u.target ≤ u.dispensed then .full else .partly
      bus.itinerary := seekItinerary (afterFuel r.bus.itinerary) } :=
  rec?_endTurnRec _ _ ((rec?_of_records (by simp) u.fleet).trans hr) hs hl

end HungUp

/-! ## A record at the end of an event (R11, R50) -/

/-- The FIFO's head makes a record of its own and leaves those that are held. -/
theorem rec?_fifoStep_held {f : Nat} {r : Record} (h : y.rec? f = some r) : (fifoStep e y).rec? f = some r := by
  cases hf : y.gate.fifo with
  | nil => rwa [fifoStep_empty hf]
  | cons x rest =>
    cases hx : y.rec? x.bus.fleet with
    | some r' =>
      rw [fifoStep_held hf (by simp [hx])]
      exact h
    | none =>
      by_cases hn : y.records.length < 96
      · have other : f ≠ x.bus.fleet := fun same => by simp [← same, h] at hx
        rwa [Proofs.Custody.rec?_fifoStep_other hf hx hn other]
      · rwa [fifoStep_full hf hx (Nat.not_lt.1 hn)]

theorem rec?_settle {f : Nat} {r : Record} (h : y.rec? f = some r) : (settle e y).rec? f = some r := by
  have fifo : ∀ n (z : Yard), z.rec? f = some r → (fifoTimes e n z).rec? f = some r := by
    intro n
    induction n with
    | zero => exact fun _ hz => hz
    | succ n ih => exact fun z hz => ih _ (rec?_fifoStep_held hz)
  exact (rec?_of_records (giveEntries_frame ..).1 f).trans (fifo _ y h)

/-! ## A pump gone OUT (R132) -/

theorem served_eq_any (f : Fuel) :
    y.served f = y.fuel.pumps.any fun x => x.cfg.fuel == f && x.state != .out := by
  rw [Bool.eq_iff_iff, served_iff]
  simp

theorem pumpOut_served {f : Fuel} (h : y.fuel.pumps.any (fun x => x.cfg.fuel == f && x.state != .out) = true) :
    pumpOut f y = y := if_pos ((served_eq_any f).trans h)

/-- With no other pump of the type in service the queue's entries of the type go seeking. -/
theorem pumpOut_unserved {f : Fuel} (h : y.fuel.pumps.any (fun x => x.cfg.fuel == f && x.state != .out) = false) :
    pumpOut f y = ((y.fuel.queue.filter (·.fuel == f)).map (·.fleet)).foldl (fun y g => enterSeeking g y)
      { y with fuel := { y.fuel with queue := y.fuel.queue.filter (·.fuel != f) } } :=
  if_neg (by rw [served_eq_any, h]; exact Bool.false_ne_true)

/-! ## The events that end a turn (R129, R131) -/

section Turn

variable {p : Nat} {q : Pump} {u : Turn} (hq : y.pump? p = some q) (hu : q.turn = some u)
include hq hu

theorem nozzleHang_fuelling (hs : q.state = .fuelling) : nozzleHang e p y = settle e (hungUp e p q u y) := by
  simp only [nozzleHang, hq, hs, hu]
  rfl

theorem noFlow_fuelling (hs : q.state = .fuelling) {left : Nat} (ht : q.timer = some left) :
    noFlow e p y = settle e (pumpOut q.cfg.fuel (notify e .pumpFault none (some (.pump p)) [0]
      (setPump e p (fun q => { q with state := .out }) (endTurn e q u u.dispensed
        (setPump e p (fun q => { q with enable := false, timer := none }) y))))) := by
  simp only [noFlow, hq, hs, hu, ht]

/-! ## A CLEAR at the BAY (R133) -/

theorem bayClear_finished (hs : q.state = .finished) : bayClear e p y
    = settle e (checkAdrift e u.fleet (.pump p) (.pump p) (lookForHeads e (freePump e p y))) := by
  simp only [bayClear, hq, hs, hu]

theorem bayClear_out (hs : q.state = .out) : bayClear e p y
    = settle e (checkAdrift e u.fleet (.pump p) (.pump p) (setPump e p (fun q => { q with turn := none }) y)) := by
  simp only [bayClear, hq, hs, hu]

theorem bayClear_occupied (hs : q.state = .occupied) : bayClear e p y = settle e (checkAdrift e u.fleet (.pump p)
    (.pump p) (lookForHeads e (freePump e p (endTurnRec q u 0 .partly y)))) := by
  simp only [bayClear, hq, hs, hu]

theorem bayClear_fuelling (hs : q.state = .fuelling) : bayClear e p y = settle e (checkAdrift e u.fleet (.pump p)
    (.pump p) (pumpOut q.cfg.fuel (notify e .pumpFault none (some (.pump p)) [1]
      (setPump e p (fun q => { q with state := .out, turn := none }) (endTurn e q u u.dispensed
        (setPump e p (fun q => { q with enable := false, timer := none }) y)))))) := by
  simp only [bayClear, hq, hs, hu]

end Turn

theorem bayClear_nothing {p : Nat} {q : Pump} (hq : y.pump? p = some q)
    (h : q.turn = none ∨ q.state = .calling ∨ q.state = .free) : bayClear e p y = y := by
  simp only [bayClear, hq]
  split <;> simp_all

/-- The direction sign blanked at a CLEAR leaves the pumps. -/
theorem pump?_blanked (e : Env) {p n : Nat} {q : Pump} (hq : y.pump? p = some q) :
    (setSign e n 0 y).pump? p = some q := (pump?_of_pumps (by simp) p).trans hq

theorem clearAt_bay (e : Env) (p : Nat) (y : Yard) : clearAt e .bay p y = bayClear e p (setSign e (36 + p) 0 y) := rfl

/-! ## A bus that has left (R133, R151) -/

theorem checkAdrift_left {f : Nat} {loc : Loc} {r : Record} (hr : y.rec? f = some r)
    (hs : r.state = .seeking ∨ r.state = .handing) (hl : r.loc = loc) (res : NoticeRes) : checkAdrift e f loc res y
      = notify e .unplannedExit (some f) (some res) [] (cancelBusSeek e f (loseRec f .adrift y)) := by
  simp only [checkAdrift, hr, if_pos (And.intro hs hl)]

theorem checkAdrift_stays {f : Nat} {loc : Loc}
    (h : ∀ r, y.rec? f = some r → ¬ ((r.state = .seeking ∨ r.state = .handing) ∧ r.loc = loc)) (res : NoticeRes) :
    checkAdrift e f loc res y = y := by
  cases hr : y.rec? f with
  | none => simp only [checkAdrift, hr]
  | some r => simp only [checkAdrift, hr, if_neg (h r hr)]

end Sys2Proof.Machine
end

section
/-! The statement on a nozzle hang, the no-flow timer and a CLEAR at the bay. -/

namespace Sys2Proof.Proofs.Fuels

open Sys2Proof Sys2Proof.Machine

/-- Settles O53: a hang and a no-flow end the turn alike; a CLEAR by the pump's state; then the bus that has left. -/
theorem hangAndNoFlowEndTheTurn : Obligations.HangAndNoFlowEndTheTurn := by
  refine ⟨fun s p q u hw hq hu hs hf => ?_, fun s p q u left hw hq hu hs ht => ⟨fun h => ?_, fun h => ?_⟩,
    fun e p y q hq => ⟨fun u hu => ⟨fun hs => ?_, fun hs => ?_, fun hs => ?_, fun hs => ⟨fun h => ?_, fun h => ?_⟩,
      fun r hr hs hl hlevel => ?_⟩, fun h => ?_⟩, fun e f loc res y => ⟨fun r hr hs hl => ?_, fun h => ?_⟩⟩
  · have fuel : (settle s.env (hungUp s.env p q u s.yard)).fuel = (hungUp s.env p q u s.yard).fuel := by simp
    have account := (congrArg (FuelUnit.account · q.cfg.fuel) fuel).trans (account_hungUp hf)
    refine ⟨{ s with yard := settle s.env (hungUp s.env p q u s.yard) },
      event_works hw rfl (nozzleHang_fuelling hq hu hs), ?_, fun r hr => ?_, congrArg Stock.stock account,
      (congrArg Stock.setTotal account).trans rfl, congrArg Stock.dispensed account, congrArg Stock.short account,
      congrArg Stock.lowReported account, fun room => ?_, fun r hr hs hl => ?_, ?_, ?_, ?_, ?_, ?_, rfl⟩
    · exact (pump?_of_pumps (congrArg FuelUnit.pumps fuel) p).trans (pump?_hungUp_self hq)
    · exact (pump?_of_pumps (congrArg FuelUnit.pumps fuel) r).trans (pump?_hungUp_other hr)
    · obtain ⟨lost, raised⟩ := hungUp_notices (e := s.env) (p := p) (u := u) hf room
      have settled := settle_frame s.env (hungUp s.env p q u s.yard)
      simp only [settled]
      exact ⟨lost, raised⟩
    · exact (rec?_settle (rec?_hungUp hr hs hl)).trans rfl
    all_goals simp [hungUp]
  · exact event_works hw rfl ((noFlow_fuelling hq hu hs ht).trans (congrArg (settle s.env) (pumpOut_served h)))
  · exact event_works hw rfl ((noFlow_fuelling hq hu hs ht).trans (congrArg (settle s.env) (pumpOut_unserved h)))
  · exact bayClear_finished (pump?_blanked e hq) hu hs
  · exact bayClear_out (pump?_blanked e hq) hu hs
  · exact bayClear_occupied (pump?_blanked e hq) hu hs
  · exact (bayClear_fuelling (pump?_blanked e hq) hu hs).trans
      (congrArg (fun z => settle e (checkAdrift e u.fleet (.pump p) (.pump p) z)) (pumpOut_served h))
  · exact (bayClear_fuelling (pump?_blanked e hq) hu hs).trans
      (congrArg (fun z => settle e (checkAdrift e u.fleet (.pump p) (.pump p) z)) (pumpOut_unserved h))
  · refine (rec?_endTurnRec 0 .partly hr hs hl).trans ?_
    rw [Nat.zero_div, Nat.add_zero, Nat.min_eq_right hlevel]
    rfl
  · exact bayClear_nothing (pump?_blanked e hq) h
  · exact checkAdrift_left hr hs hl res
  · exact checkAdrift_stays h res

end Sys2Proof.Proofs.Fuels
end

section
/-! SUPPORT. The apron (R118 to R126): the head of a fuel type and the next call, one look for heads and the end of the
looking, arrivals, the call timer and the aging timer. -/

namespace Sys2Proof.Machine

variable {e : Env} {y : Yard}

/-! ## The head of a fuel type (R122) -/

/-- An entry that stands before every entry of its type: none earlier has as low a level, none later a lower one. -/
def IsHead (f : Fuel) (q : List ApronEntry) (x : ApronEntry) : Prop :=
  ∃ left right, q = left ++ x :: right ∧ x.fuel = f ∧ (∀ z ∈ left, z.fuel = f → x.level < z.level)
    ∧ ∀ z ∈ right, z.fuel = f → x.level ≤ z.level

/-- An entry that joins the queue's tail is compared with the head so far, when it is of the type. -/
theorem apronHead_concat (f : Fuel) (q : List ApronEntry) (z : ApronEntry) :
    apronHead f (q ++ [z]) = if z.fuel = f then lowerOf (apronHead f q) z else apronHead f q := by
  by_cases hz : z.fuel = f <;> simp [apronHead_eq, List.filter_append, hz]

theorem isHead_of_apronHead {f : Fuel} {q : List ApronEntry} {x : ApronEntry} (h : apronHead f q = some x) :
    IsHead f q x := by
  induction q using List.reverseRecOn generalizing x with
  | nil => cases h
  | append_singleton q z ih =>
    rw [apronHead_concat] at h
    have keeps (hq : apronHead f q = some x) (hz : z.fuel = f → x.level ≤ z.level) : IsHead f (q ++ [z]) x := by
      obtain ⟨left, right, hl, hx, before, after⟩ := ih hq
      refine ⟨left, right ++ [z], by simp [hl], hx, before, fun w hw => ?_⟩
      rcases List.mem_append.1 hw with hw | hw
      · exact after w hw
      · exact List.mem_singleton.1 hw ▸ hz
    by_cases hz : z.fuel = f
    · rw [if_pos hz] at h
      cases hq : apronHead f q with
      | none =>
        rw [hq] at h
        obtain rfl : z = x := Option.some.inj h
        exact ⟨q, [], rfl, hz, fun w hw hf => absurd hf (apronHead_eq_none.1 hq w hw), by simp⟩
      | some b =>
        rw [hq] at h
        by_cases lower : z.level < b.level
        · obtain rfl : z = x := Option.some.inj ((if_pos lower).symm.trans h)
          exact ⟨q, [], rfl, hz, fun w hw hf => lower.trans_le ((apronHead_some hq).2.2 w hw hf), by simp⟩
        · obtain rfl : b = x := Option.some.inj ((if_neg lower).symm.trans h)
          exact keeps hq fun _ => Nat.not_lt.1 lower
    · rw [if_neg hz] at h
      exact keeps h fun hf => absurd hf hz

theorem apronHead_of_isHead {f : Fuel} {q : List ApronEntry} {x : ApronEntry} (h : IsHead f q x) :
    apronHead f q = some x := by
  obtain ⟨left, right, rfl, hx, before, after⟩ := h
  induction right using List.reverseRecOn with
  | nil =>
    rw [apronHead_concat, if_pos hx]
    cases hl : apronHead f left with
    | none => rfl
    | some b =>
      obtain ⟨mem, fuel, -⟩ := apronHead_some hl
      exact if_pos (before b mem fuel)
  | append_singleton right z ih =>
    rw [← List.cons_append, ← List.append_assoc, apronHead_concat,
      ih fun w hw => after w (List.mem_append_left _ hw)]
    by_cases hz : z.fuel = f
    · rw [if_pos hz]
      exact if_neg (Nat.not_lt.2 (after z (by simp) hz))
    · exact if_neg hz

theorem apronHead_eq_some_iff {f : Fuel} {q : List ApronEntry} {x : ApronEntry} :
    apronHead f q = some x ↔ IsHead f q x := ⟨isHead_of_apronHead, apronHead_of_isHead⟩

/-! ## The next call (R122) -/

/-- What a pump offers to the search for the next call. -/
def Pump.headOf (q : List ApronEntry) (p : Pump) : Option (Pump × ApronEntry) :=
  if p.state = .free then (apronHead p.cfg.fuel q).map (p, ·) else none

theorem headOf_eq_some_iff {q : List ApronEntry} {p r : Pump} {x : ApronEntry} :
    p.headOf q = some (r, x) ↔ p = r ∧ p.state = .free ∧ IsHead p.cfg.fuel q x := by
  by_cases hp : p.state = .free <;> simp [Pump.headOf, hp, apronHead_eq_some_iff, and_comm]

theorem headOf_eq_none_iff {q : List ApronEntry} {p : Pump} :
    p.headOf q = none ↔ (p.state = .free → ∀ z ∈ q, z.fuel ≠ p.cfg.fuel) := by
  by_cases hp : p.state = .free <;> simp [Pump.headOf, hp, apronHead_eq_none]

theorem nextCall_eq_some_iff {p : Pump} {x : ApronEntry} : y.nextCall = some (p, x) ↔
    ∃ before after, y.fuel.pumps = before ++ p :: after ∧ p.state = .free
      ∧ (∀ q ∈ before, q.state = .free → ∀ z ∈ y.fuel.queue, z.fuel ≠ q.cfg.fuel)
      ∧ IsHead p.cfg.fuel y.fuel.queue x := by
  have search : y.nextCall = y.fuel.pumps.findSome? (Pump.headOf y.fuel.queue) := rfl
  rw [search, List.findSome?_eq_some_iff]
  constructor
  · rintro ⟨before, r, after, hp, found, none⟩
    obtain ⟨rfl, free, head⟩ := headOf_eq_some_iff.1 found
    exact ⟨before, after, hp, free, fun q hq => headOf_eq_none_iff.1 (none q hq), head⟩
  · rintro ⟨before, after, hp, free, none, head⟩
    exact ⟨before, p, after, hp, headOf_eq_some_iff.2 ⟨rfl, free, head⟩, fun q hq => headOf_eq_none_iff.2 (none q hq)⟩

theorem nextCall_mem {p : Pump} {x : ApronEntry} (h : y.nextCall = some (p, x)) : x ∈ y.fuel.queue := by
  obtain ⟨_, _, _, _, _, left, right, hq, _⟩ := nextCall_eq_some_iff.1 h
  simp [hq]

/-! ## Looking for heads (R122 to R124) -/

theorem lookOnce_idle (h : y.nextCall = none) : lookOnce e y = y := by
  simp only [lookOnce, h]

section Look

variable {p : Pump} {x : ApronEntry} (h : y.nextCall = some (p, x))
include h

theorem lookOnce_calls (enough : e.layout.islandCfg.minFill ≤ callTarget e p x y) :
    lookOnce e y = callHead e p x (callTarget e p x y) y := by
  simp only [lookOnce, h, if_pos enough]

theorem lookOnce_defers (little : callTarget e p x y < e.layout.islandCfg.minFill) :
    lookOnce e y = deferHead e x (callTarget e p x y) y := by
  simp only [lookOnce, h, if_neg (Nat.not_le.2 little)]

/-- Called or deferred, the head leaves the queue. -/
theorem lookOnce_queue : (lookOnce e y).fuel.queue = y.fuel.queue.filter (·.fleet != x.fleet) := by
  rcases Nat.lt_or_ge (callTarget e p x y) e.layout.islandCfg.minFill with little | enough
  · rw [lookOnce_defers h little]
    simp [deferHead, dropApronEntry]
  · rw [lookOnce_calls h enough]
    simp [callHead, dropApronEntry]

theorem lookOnce_shorter : (lookOnce e y).fuel.queue.length < y.fuel.queue.length := by
  rw [lookOnce_queue h]
  exact List.length_filter_lt_length_iff_exists.2 ⟨x, nextCall_mem h, by simp⟩

end Look

theorem lookTimes_idle (n : Nat) (h : y.nextCall = none) : lookTimes e n y = y := by
  induction n with
  | zero => rfl
  | succ n ih => rw [lookTimes, lookOnce_idle h, ih]

/-- As many looks as the queue has entries leave no FREE pump with a head. -/
theorem lookTimes_ends (n : Nat) (h : y.fuel.queue.length ≤ n) : (lookTimes e n y).nextCall = none := by
  induction n generalizing y with
  | zero =>
    cases hc : y.nextCall with
    | none => exact hc
    | some c => exact absurd (nextCall_mem hc) (by simp [List.length_eq_zero_iff.1 (Nat.le_zero.1 h)])
  | succ n ih =>
    cases hc : y.nextCall with
    | none => rwa [lookTimes_idle _ hc]
    | some c => exact ih (Nat.le_of_lt_succ ((lookOnce_shorter hc).trans_le h))

theorem callTarget_held {p : Pump} {x : ApronEntry} {r : Record} (hr : y.rec? x.fleet = some r) : callTarget e p x y
    = fillTarget e y x.fuel r.bus.capacity r.bus.level p.cfg.maxTurn (r.bus.pin.map (·.release)) := by
  simp only [callTarget, hr]
  rfl

/-- A deferred head has FUEL off its itinerary and takes its next step (R123). -/
theorem deferHead_eq (x : ApronEntry) (target : Nat) : deferHead e x target y
    = notify e .fuelDeferred (some x.fleet) none [target] (nextStep x.fleet (onRec x.fleet (fun r => { r with
        state := .served, bus.fuelMark := .deferred, bus.itinerary := afterFuel r.bus.itinerary })
      (dropApronEntry x.fleet y))) := by
  simp only [deferHead, popHead_fuel]

/-! ## Arrivals (R118, R126) -/

section Arrivals

variable {f : Nat} {r : Record} (hr : y.rec? f = some r)
include hr

theorem apronArrival_served (h : y.served r.bus.fuel = true) : apronArrival e f y
    = settle e (lookForHeads e (enqueueApron e r (apronUncommit f y))) := by
  have found : (apronUncommit f y).rec? f = some r := hr
  have served : (apronUncommit f y).served r.bus.fuel = true := h
  simp only [apronArrival, found, if_pos served]

theorem apronArrival_unserved (h : y.served r.bus.fuel = false) : apronArrival e f y
    = settle e (enterSeeking f (placeRec f .queued .apron (apronUncommit f y))) := by
  have found : (apronUncommit f y).rec? f = some r := hr
  have unserved : (apronUncommit f y).served r.bus.fuel = false := h
  simp only [apronArrival, found, unserved, Bool.false_eq_true, if_false]

/-- A bus that no pump serves stands at the apron and seeks again. -/
theorem rec?_sentOn_self : (enterSeeking f (placeRec f .queued .apron (apronUncommit f y))).rec? f
    = some { r with state := .seeking, loc := .apron } :=
  rec?_enterSeeking_self (rec?_onRec_self (g := fun r => { r with state := .queued, loc := .apron }) (fun _ => rfl) hr)

end Arrivals

theorem rec?_sentOn_other {f k : Nat} (hk : k ≠ f) :
    (enterSeeking f (placeRec f .queued .apron (apronUncommit f y))).rec? k = y.rec? k :=
  (rec?_enterSeeking_other _ hk).trans
    (rec?_onRec_other (g := fun r => { r with state := .queued, loc := .apron }) (apronUncommit f y) hk fun _ => rfl)

section Bay

variable {p : Nat} {q : Pump} (hq : y.pump? p = some q)
include hq

theorem bayArrive_calling {u : Turn} (hs : q.state = .calling) (hu : q.turn = some u) : bayArrive e p y
    = placeRec u.fleet .inService (.pump p)
      (setPump e p (fun q => { q with state := .occupied, timer := none }) y) := by
  simp only [bayArrive, hq, hs, hu]

theorem bayArrive_intruder (hs : q.state = .free ∨ q.state = .finished ∨ q.state = .out) :
    bayArrive e p y = notify e .intruder none (some (.pump p)) [] y := by
  rcases hs with hs | hs | hs <;> simp only [bayArrive, hq, hs]

end Bay

/-! ## The call timer and the aging timer (R121, R125) -/

/-- The turn has left the pump with its PUMP_SKIP. -/
def skipped (e : Env) (p : Nat) (u : Turn) (y : Yard) : Yard :=
  notify e .pumpSkip (some u.fleet) (some (.pump p)) [u.skips + 1] (freePump e p y)

theorem skipped_room {p : Nat} {u : Turn} : apronRoom e (skipped e p u y) = apronRoom e y := by
  rw [Bool.eq_iff_iff, apronRoom_iff, apronRoom_iff]
  simp [skipped]

section Skip

variable {p : Nat} {q : Pump} {u : Turn} (hq : y.pump? p = some q) (hu : q.turn = some u) (hs : q.state = .calling)
include hq hu hs

theorem pumpSkip_requeues (few : u.skips + 1 < e.layout.islandCfg.maxSkips) (room : apronRoom e y = true) :
    pumpSkip e p y = settle e (lookForHeads e (placeRec u.fleet .queued .apron
      { skipped e p u y with fuel := { (skipped e p u y).fuel with
        queue := (skipped e p u y).fuel.queue ++ [⟨u.fleet, q.cfg.fuel, u.level, u.skips + 1, u.target⟩] } })) := by
  have back : u.skips + 1 < e.layout.islandCfg.maxSkips ∧ apronRoom e (skipped e p u y) = true :=
    ⟨few, skipped_room.trans room⟩
  simp only [pumpSkip, hq, hs, hu]
  exact if_pos back

theorem pumpSkip_strays (h : e.layout.islandCfg.maxSkips ≤ u.skips + 1 ∨ apronRoom e y = false) :
    pumpSkip e p y = settle e (lookForHeads e (notify e .stray (some u.fleet) none []
      (loseRec u.fleet .stray (skipped e p u y)))) := by
  have gone : ¬ (u.skips + 1 < e.layout.islandCfg.maxSkips ∧ apronRoom e (skipped e p u y) = true) := by
    rw [skipped_room]
    rintro ⟨few, room⟩
    rcases h with h | h
    · exact Nat.not_lt.2 h few
    · exact Bool.false_ne_true (h.symm.trans room)
  simp only [pumpSkip, hq, hs, hu]
  exact if_neg gone

end Skip

theorem agingEnd_running {left : Nat} (h : y.fuel.aging = some left) : agingEnd e y = { y with fuel := { y.fuel with
    queue := y.fuel.queue.map fun x => { x with level := x.level - 1 }
    aging := some (60000 * e.layout.islandCfg.aging) } } := by
  simp only [agingEnd, h]

end Sys2Proof.Machine
end

section
/-! The statement on arrivals, skips, aging and the looking for heads. -/

namespace Sys2Proof.Proofs.Fuels

open Sys2Proof Sys2Proof.Machine

/-- Settles O54: an arrival by the service of its fuel, the next call by the search's own cases, and each timer. -/
theorem apronArrivalsSkipsAndAging : Obligations.ApronArrivalsSkipsAndAging := by
  refine ⟨fun e y => ⟨fun i x r hr => ⟨fun h => ?_, fun h => ?_⟩, fun p q u hq hs hu => ?_, fun p q hq hs => ?_,
      fun i => rfl, lookTimes_ends _ (Nat.le_refl _), lookOnce_idle, fun p x => ?_,
      fun p x r h hr => ⟨fun enough => ?_, fun little => ?_⟩⟩,
    fun s hw => ⟨fun p q u hq hu hs => ⟨fun few room => ?_, fun h => ?_⟩, fun left h => ?_⟩⟩
  · refine (apronArrival_served hr h).trans ?_
    rw [← rec?_fleet hr]
    rfl
  · exact ⟨_, apronArrival_unserved hr h, rec?_sentOn_self hr, rfl, fun g hg => rec?_sentOn_other hg, rfl⟩
  · exact bayArrive_calling hq hs hu
  · exact bayArrive_intruder hq hs
  · rw [nextCall_eq_some_iff]
    constructor
    · rintro ⟨before, after, hp, free, none, left, right, hx, fuel, lower, least⟩
      exact ⟨before, after, left, right, hp, free, none, hx, fuel, lower, least⟩
    · rintro ⟨before, after, left, right, hp, free, none, hx, fuel, lower, least⟩
      exact ⟨before, after, hp, free, none, left, right, hx, fuel, lower, least⟩
  · rw [← callTarget_held hr] at enough ⊢
    exact lookOnce_calls h enough
  · rw [← callTarget_held hr] at little ⊢
    exact (lookOnce_defers h little).trans (deferHead_eq x _)
  · exact event_works hw rfl (pumpSkip_requeues hq hu hs few (apronRoom_iff.2 room))
  · exact event_works hw rfl (pumpSkip_strays hq hu hs (h.imp_right fun full =>
      Bool.eq_false_iff.2 (mt apronRoom_iff.1 (Nat.not_lt.2 full))))
  · exact event_works hw rfl (agingEnd_running h)

end Sys2Proof.Proofs.Fuels
end

section
/-! SUPPORT. The wash lanes (R141, R145 to R151): plant inputs and output pins, the record of an ended wash, the lane's
call, and what a lane does at WASH_IN and WASH_OUT. -/

namespace Sys2Proof.Machine

variable {e : Env} {y : Yard} {w : Nat} {l : WashLane}

theorem washLane?_of_lanes {z : Yard} (h : z.wash.lanes = y.wash.lanes) (w : Nat) : z.washLane? w = y.washLane? w := by
  rw [Yard.washLane?, Yard.washLane?, h]

theorem washLane?_onWash_laid (g : WashLane → WashLane) (hl : y.washLane? w = some l) (hg : ∀ x, (g x).cfg = x.cfg) :
    (onWash w g y).washLane? w = some (g l) := (washLane?_onWash w g y hg).trans (congrArg (Option.map g) hl)

theorem washLane?_setWash_laid (g : WashLane → WashLane) (hl : y.washLane? w = some l)
    (hg : ∀ x, (g x).cfg = x.cfg) : (setWash e w g y).washLane? w = some (g l) :=
  (washLane?_setWash e w g y hg).trans (congrArg (Option.map g) hl)

/-! ## Plant inputs (R226) -/

theorem washLane?_setPlant (i : PlantInput) (b : Bool) (hl : y.washLane? w = some l) :
    (setPlant w i b y).washLane? w = some l := (washLane?_of_lanes (by simp) w).trans hl

theorem setPlant_unlaid (hl : y.washLane? w = none) (i : PlantInput) (b : Bool) : setPlant w i b y = y := by
  simp only [setPlant, hl]

/-- At a working station the wash unit acts on the yard where the input is seen. -/
theorem plantInput_works {s : State} (hw : s.works) (w : Nat) (i : PlantInput) (g : Env → Yard → Yard) :
    s.plantInput w i g = { s with yard := g s.env (setPlant w i true s.yard) } := by
  have seen : ({ s with yard := setPlant w i true s.yard } : State).works := hw
  rw [State.plantInput, onYard_eq hw.1]
  exact whenRunning_works seen g

/-- The input of a lane not laid out is ignored, in every phase. -/
theorem plantInput_unlaid {s : State} (h : s.inReset = false) (hl : s.yard.washLane? w = none) (i : PlantInput)
    {g : Env → Yard → Yard} (hg : g s.env s.yard = s.yard) : s.plantInput w i g = s := by
  rw [State.plantInput, onYard_eq h, setPlant_unlaid hl]
  unfold State.whenRunning
  split
  · rfl
  · exact congrArg (fun y => { s with yard := y }) hg

/-! ## Output pins (R141, R226) -/

section Pins

variable {s : State}

theorem startPin_unlaid (hl : s.yard.washLane? w = none) : s.startPin w = false := by
  simp [State.startPin, hl]

theorem progCode_unlaid (hl : s.yard.washLane? w = none) : s.progCode w = 0 := by
  simp [State.progCode, hl]

variable (h : s.inReset = false)
include h

theorem startPin_laid (hl : s.yard.washLane? w = some l) : s.startPin w = l.startOut := by
  simp [State.startPin, h, hl]

theorem progCode_laid (hl : s.yard.washLane? w = some l) : s.progCode w = l.progLines := by
  simp [State.progCode, h, hl]

end Pins

theorem startOut_iff : l.startOut = true ↔ l.state = .starting ∨ l.state = .washing := by
  simp [WashLane.startOut]

theorem progLines_raised {x : WashEntry} (h : l.startOut = true) (hc : l.called = some x) :
    l.progLines = x.prog.code := by
  simp only [WashLane.progLines, if_pos h, hc]

theorem progLines_low (h : l.startOut = false) : l.progLines = 0 := by
  rw [WashLane.progLines, h, if_neg Bool.false_ne_true]

/-- PROG B is the high bit of the two-bit code. -/
theorem code_testBit_one (p : Prog) : p.code.testBit 1 = decide (2 ≤ p.code) := by
  cases p <;> rfl

/-! ## BUSY and DONE (R149, R150) -/

section Inputs

variable (hl : y.washLane? w = some l)
include hl

theorem washBusy_starting (hs : l.state = .starting) : washBusy e w y
    = setWash e w (fun l => { l with state := .washing, timer := none, washMs := 0 }) y := by
  simp only [washBusy, hl, if_pos hs]

theorem washBusy_ignored (hs : l.state ≠ .starting) : washBusy e w y = y := by
  simp only [washBusy, hl, if_neg hs]

theorem washDone_washing {f : Nat} {x : WashEntry} (hs : l.state = .washing) (hf : l.current = some f)
    (hc : l.called = some x) : washDone e w y = settle e (endWash w f .done (setWash e w (fun z =>
      { (z.setEstimate x.prog (newEstimate (l.estimate x.prog) l.cfg.alpha (measured (l.washMs / 1000)))) with
        state := .draining, called := none }) y)) := by
  simp only [washDone, hl, hs, hf, hc]

theorem washDone_ignored (hs : l.state ≠ .washing) : washDone e w y = y := by
  simp only [washDone, hl]
  split
  next washing _ _ => exact absurd washing hs
  next => rfl

end Inputs

/-! ## The record of an ended wash (R8, R148, R150, R152) -/

/-- What the end of a wash writes into its record, before its next step. -/
def Record.washed (m : WashMark) (r : Record) : Record :=
  { r with state := .served, bus.washMark := m, bus.itinerary := (r.popHead .wash).bus.itinerary }

/-- An itinerary with WASH off its head (R5). -/
theorem popHead_wash (r : Record) : (r.popHead .wash).bus.itinerary = match r.bus.itinerary with
    | .wash :: rest => rest
    | it => it := by
  rw [popHead_itinerary]
  rcases r.bus.itinerary with _ | ⟨_ | _ | _ | _, rest⟩ <;> rfl

theorem washed_eq (m : WashMark) : Record.washed m = fun r => { r with
    state := .served
    bus.washMark := m
    bus.itinerary := match r.bus.itinerary with
      | .wash :: rest => rest
      | it => it } := by
  funext r
  rw [Record.washed, popHead_wash]

/-- The record in service in the lane takes the mark and seeks its next service. -/
theorem rec?_endWash {f : Nat} {r : Record} (m : WashMark) (hr : y.rec? f = some r) (hs : r.state = .inService)
    (hw : r.loc = .wash w) : (endWash w f m y).rec? f = some { r with
      state := .seeking
      bus.washMark := m
      bus.itinerary := seekItinerary (r.popHead .wash).bus.itinerary } := by
  have held : y.heldAt f .inService (.wash w) = true := by simp [Yard.heldAt, hr, hs, hw]
  unfold endWash
  rw [if_pos held]
  exact rec?_nextStep (rec?_onRec_self (g := Record.washed m) (fun _ => rfl) hr)

/-! ## The lane's call (R145) -/

theorem onWash_congr {f g : WashLane → WashLane} (hl : y.washLane? w = some l) (h : f l = g l) :
    onWash w f y = onWash w g y :=
  congrArg (fun ls => { y with wash := { y.wash with lanes := ls } }) (updFirst_congr_found hl h)

theorem setWash_congr {f g : WashLane → WashLane} (hl : y.washLane? w = some l) (h : f l = g l) :
    setWash e w f y = setWash e w g y := by
  simp only [setWash, onWash_congr hl h]

/-- A lane that calls no one: it is not FREE or its queue is empty. -/
def WashLane.idle (l : WashLane) : Prop := l.state ≠ .free ∨ l.queue = []

theorem washCallOnce_idle (hl : y.washLane? w = some l) (h : l.idle) : washCallOnce e w y = y := by
  simp only [washCallOnce, hl]
  split
  next free queue => exact absurd h (by simp [WashLane.idle, free, queue])
  next => rfl

theorem washCallTimes_idle (n : Nat) (hl : y.washLane? w = some l) (h : l.idle) : washCallTimes e w n y = y := by
  induction n with
  | zero => rfl
  | succ n ih => rw [washCallTimes, washCallOnce_idle hl h, ih]

theorem callProg_held {f : Nat} {r : Record} (hr : y.rec? f = some r) : callProg e l f y
    = l.downgrade r.bus.wash 0 (slackOf e.minute (r.bus.pin.map (·.release))) := by
  simp only [callProg, hr]
  rfl

section Head

variable {x : WashEntry} {rest : List WashEntry} (hl : y.washLane? w = some l) (hq : l.queue = x :: rest)
include hl hq

theorem callWashHead_eq (p : Prog) : callWashHead e w x p y = setWash e w (fun l => { l with
      state := .calling, queue := rest, called := some ⟨x.fleet, p, x.skips⟩
      timer := some (60000 * l.cfg.callTimeout) })
    (onRec x.fleet (fun r => { r with state := .called, loc := .wash w, bus.wash := p }) y) := by
  have found : (onRec x.fleet (fun r => { r with state := .called, loc := .wash w, bus.wash := p }) y).washLane? w
      = some l := hl
  exact setWash_congr found (by simp only [hq, List.drop_one, List.tail_cons])

theorem skipHead_eq : skipHead e w x y = notify e .washSkipped (some x.fleet) (some (.wash w)) [0]
    (nextStep x.fleet (onRec x.fleet (fun r => { r with
        state := .served
        bus.washMark := .skipped
        bus.itinerary := match r.bus.itinerary with
          | .wash :: rest => rest
          | it => it })
      (removeExpect e .washIn w x.fleet (onWash w (fun l => { l with queue := rest }) y)))) := by
  have lanes : onWash w (fun l => { l with queue := l.queue.drop 1 }) y
      = onWash w (fun l => { l with queue := rest }) y :=
    onWash_congr hl (by simp only [hq, List.drop_one, List.tail_cons])
  rw [skipHead, lanes, ← washed_eq]
  rfl

variable (hs : l.state = .free)
include hs

theorem washCallOnce_calls (hp : callProg e l x.fleet y ≠ .noWash) :
    washCallOnce e w y = callWashHead e w x (callProg e l x.fleet y) y := by
  simp only [washCallOnce, hl, hs, hq, if_neg hp]

theorem washCallOnce_skips (hp : callProg e l x.fleet y = .noWash) : washCallOnce e w y = skipHead e w x y := by
  simp only [washCallOnce, hl, hs, hq, if_pos hp]

/-- Called or skipped, the head leaves the queue. -/
theorem washCallOnce_queue : ∃ m, (washCallOnce e w y).washLane? w = some m ∧ m.queue = rest := by
  by_cases hp : callProg e l x.fleet y = .noWash
  · rw [washCallOnce_skips hl hq hs hp, skipHead_eq hl hq]
    have left := washLane?_onWash_laid (fun l => { l with queue := rest }) hl fun _ => rfl
    exact ⟨_, (washLane?_of_lanes (by simp) w).trans left, rfl⟩
  · rw [washCallOnce_calls hl hq hs hp, callWashHead_eq hl hq]
    exact ⟨_, washLane?_setWash_laid _ hl fun _ => rfl, rfl⟩

end Head

/-- As many calls as the queue has entries leave the lane idle. -/
theorem washCallTimes_ends (n : Nat) (hl : y.washLane? w = some l) (hn : l.queue.length ≤ n) {m : WashLane}
    (hm : (washCallTimes e w n y).washLane? w = some m) : m.idle := by
  induction n generalizing y l with
  | zero =>
    obtain rfl : l = m := Option.some.inj (hl.symm.trans hm)
    exact .inr (List.length_eq_zero_iff.1 (Nat.le_zero.1 hn))
  | succ n ih =>
    by_cases idle : l.idle
    · rw [washCallTimes_idle _ hl idle, hl] at hm
      exact Option.some.inj hm ▸ idle
    · obtain ⟨free, waits⟩ := not_or.1 idle
      obtain ⟨x, rest, hq⟩ := List.exists_cons_of_ne_nil waits
      obtain ⟨k, hk, rfl⟩ := washCallOnce_queue (e := e) hl hq (not_not.1 free)
      exact ih hk (by simpa [hq] using hn) hm

/-! ## WASH_IN (R147, R148) -/

section WashIn

variable (hl : y.washLane? w = some l)
include hl

/-- The expected bus is the one that the lane calls. -/
theorem washArrival_called {x : Expect} (hs : l.state = .calling) (hc : ∃ c, l.called = some c ∧ c.fleet = x.fleet) :
    washArrival e w x y = placeRec x.fleet .inService (.wash w)
      (setWash e w (fun l => { l with state := .loading, current := some x.fleet, timer := none }) y) := by
  obtain ⟨c, hc, same⟩ := hc
  have called : l.state = .calling ∧ (l.called.map (·.fleet)) = some x.fleet := ⟨hs, by rw [hc, Option.map_some, same]⟩
  simp only [washArrival, hl, if_pos called]

/-- Any other expected bus keeps its place, and only a lane gone OUT is silent about it. -/
theorem washArrival_handedBack {x : Expect} (h : ¬ (l.state = .calling ∧ ∃ c, l.called = some c ∧ c.fleet = x.fleet)) :
    washArrival e w x y = if l.state = .out then onQueue e .washIn w (x :: ·) y
      else notify e .intruder (some x.fleet) (some (.wash w)) [] (onQueue e .washIn w (x :: ·) y) := by
  have other : ¬ (l.state = .calling ∧ (l.called.map (·.fleet)) = some x.fleet) := by
    rwa [Option.map_eq_some_iff]
  simp only [washArrival, hl, if_neg other]
  rfl

theorem washIntruder_eq : washIntruder e w y
    = if l.state = .out then y else notify e .intruder none (some (.wash w)) [] y := by
  simp only [washIntruder, hl]

theorem washInClear_loading {f : Nat} (hs : l.state = .loading) (hf : l.current = some f) : washInClear e w y
    = settle e (notify e .washSkipped (some f) (some (.wash w)) [1]
      (setWash e w (fun l => { l with state := .draining, called := none }) (endWash w f .skipped y))) := by
  simp only [washInClear, hl, hs, hf]

theorem washInClear_ignored (hs : l.state ≠ .loading) : washInClear e w y = y := by
  simp only [washInClear, hl]
  split
  next loading _ => exact absurd loading hs
  next => rfl

end WashIn

theorem clearAt_washIn (e : Env) (w : Nat) (y : Yard) : clearAt e .washIn w y = washInClear e w y := rfl

/-! ## WASH_OUT (R151, R203) -/

theorem clearAt_washOut (e : Env) (w : Nat) (y : Yard) :
    clearAt e .washOut w y = washOutClear e w (setSign e (42 + w) 0 y) := rfl

/-- A sign given a value leaves the wash lanes. -/
theorem washLane?_setSign (e : Env) (n v : Nat) (hl : y.washLane? w = some l) :
    (setSign e n v y).washLane? w = some l := (washLane?_of_lanes (by simp) w).trans hl

section WashOut

variable (hl : y.washLane? w = some l)
include hl

theorem washOutClear_draining {f : Nat} (hs : l.state = .draining) (hf : l.current = some f) : washOutClear e w y
    = settle e (checkAdrift e f (.wash w) (.wash w)
      (washCall e w (setWash e w (fun l => { l with state := .free, current := none }) y))) := by
  simp only [washOutClear, hl, hs, hf]

theorem washOutClear_out {f : Nat} (hs : l.state = .out) (hf : l.current = some f) : washOutClear e w y
    = settle e (checkAdrift e f (.wash w) (.wash w) (onWash w (fun l => { l with current := none }) y)) := by
  simp only [washOutClear, hl, hs, hf]

theorem washOutClear_ignored (h : (l.state ≠ .draining ∧ l.state ≠ .out) ∨ l.current = none) :
    washOutClear e w y = y := by
  simp only [washOutClear, hl]
  split
  next draining current => simp [draining, current] at h
  next out current => simp [out, current] at h
  next => rfl

end WashOut

end Sys2Proof.Machine
end

section
/-! The statement on BUSY, DONE and the lane's call. -/

namespace Sys2Proof.Proofs.Washes

open Sys2Proof Sys2Proof.Machine

/-- A plant input asserted at a working station changes the yard alone. -/
theorem plantInput_acts {s : State} (hw : s.works) {i : Instr} {w : Nat} {p : PlantInput} {g : Env → Yard → Yard}
    (hi : exec i s = .next (s.plantInput w p g)) {z : Yard} (hz : g s.env (setPlant w p true s.yard) = z) :
    exec i s = .next { s with yard := z } := by
  rw [hi, plantInput_works hw, hz]

/-- The record that the end of a wash leaves, with its itinerary written out. -/
theorem rec?_endWash_eq {w f : Nat} (m : WashMark) {y : Yard} {r : Record} (hr : y.rec? f = some r)
    (hs : r.state = .inService) (hw : r.loc = .wash w) :
    let left := match r.bus.itinerary with
      | .wash :: rest => rest
      | it => it
    (endWash w f m y).rec? f = some { r with
      state := .seeking
      bus.washMark := m
      bus.itinerary := match left with
        | [] => [.berth]
        | .exit :: _ => [.berth]
        | it => it } := by
  intro left
  refine (rec?_endWash m hr hs hw).trans ?_
  rw [popHead_wash]
  rfl

/-- Settles O55: each input and each point's event by the lane's state, the call by the head's programme. -/
theorem busyAndDoneDriveTheWash : Obligations.BusyAndDoneDriveTheWash := by
  refine ⟨fun s w l hw hl => ?_, fun w f m y r hr hs hw => rec?_endWash_eq m hr hs hw,
    fun e w y l hl => ⟨fun hn m => washCallTimes_ends 8 hl hn,
    washCallOnce_idle hl, fun x rest r hs hq hr => ⟨fun hp => ?_, fun hp => ?_⟩,
    fun x => ⟨fun h => washArrival_called hl h.1 h.2, fun h hs => ?_, fun hs => ?_⟩, fun hs => ?_, fun hs => ?_,
    fun f => washInClear_loading hl, washInClear_ignored hl,
    fun f => washOutClear_draining (washLane?_setSign e (42 + w) 0 hl),
    fun f => washOutClear_out (washLane?_setSign e (42 + w) 0 hl),
    fun h h' => washOutClear_ignored (washLane?_setSign e (42 + w) 0 hl) (.inl ⟨h, h'⟩),
    fun h => washOutClear_ignored (washLane?_setSign e (42 + w) 0 hl) (.inr h)⟩⟩
  · have laid (i : PlantInput) := washLane?_setPlant i true hl
    refine ⟨fun hs => plantInput_acts hw rfl (washBusy_starting (laid .busy) hs),
      fun hs => plantInput_acts hw rfl (washBusy_ignored (laid .busy) hs),
      fun f x hs hf hc => plantInput_acts hw rfl (washDone_washing (laid .done) hs hf hc),
      fun hs => plantInput_acts hw rfl (washDone_ignored (laid .done) hs), fun h => ?_, fun h h' => ?_⟩
    · have raised := startOut_iff.2 h
      refine ⟨(startPin_laid hw.1 hl).trans raised, fun x hx => ?_⟩
      have code := (progCode_laid hw.1 hl).trans (progLines_raised raised hx)
      exact ⟨by rw [State.progA, code, Nat.testBit_zero], by rw [State.progB, code, code_testBit_one]⟩
    · have low : l.startOut = false := Bool.eq_false_iff.2 (mt startOut_iff.1 (not_or.2 ⟨h, h'⟩))
      have code := (progCode_laid hw.1 hl).trans (progLines_low low)
      exact ⟨(startPin_laid hw.1 hl).trans low, by rw [State.progA, code, Nat.zero_testBit],
        by rw [State.progB, code, Nat.zero_testBit]⟩
  · rw [← callProg_held hr] at hp ⊢
    exact (washCallOnce_calls hl hq hs hp).trans (callWashHead_eq hl hq _)
  · rw [← callProg_held hr] at hp
    exact (washCallOnce_skips hl hq hs hp).trans (skipHead_eq hl hq)
  · exact (washArrival_handedBack hl h).trans (if_neg hs)
  · refine (washArrival_handedBack hl fun h => ?_).trans (if_pos hs)
    exact absurd (hs.symm.trans h.1) (by decide)
  · exact (washIntruder_eq hl).trans (if_neg hs)
  · exact (washIntruder_eq hl).trans (if_pos hs)

end Sys2Proof.Proofs.Washes
end

section
/-! SUPPORT. A wash lane taken out of service (R152), the call timer (R146), released inputs (R226), and the entries of
a lane gone OUT (R153). -/

namespace Sys2Proof.Machine

variable {e : Env} {y : Yard} {w : Nat} {l : WashLane}

/-! ## A lane taken out of service (R152) -/

theorem inside_iff : l.inside = true ↔ l.state = .loading ∨ l.state = .starting ∨ l.state = .washing := by
  simp [WashLane.inside, or_assoc]

theorem abortInside_eq (w : Nat) (l : WashLane) (y : Yard) : abortInside w l y = match l.current with
    | some f => if l.state = .loading ∨ l.state = .starting ∨ l.state = .washing then endWash w f .aborted y else y
    | none => y := by
  unfold abortInside
  cases l.current with
  | none => rfl
  | some f => exact if_congr inside_iff rfl rfl

/-- The entry that a CALLING lane has called comes before the queue, its record EXPECTED again. -/
theorem handOn_called (e : Env) (w : Nat) (l : WashLane) (y : Yard) :
    settle e (handOnQueue e w (l.calledEntries ++ l.queue)
      (l.calledEntries.foldl (fun y x => placeRec x.fleet .expected (.wash w) y) y)) = match l.state, l.called with
    | .calling, some x => settle e (handOnQueue e w (x :: l.queue) (placeRec x.fleet .expected (.wash w) y))
    | _, _ => settle e (handOnQueue e w l.queue y) := by
  split
  next x calling called =>
    have entries : l.calledEntries = [x] := by rw [WashLane.calledEntries, if_pos calling, called, Option.toList_some]
    rw [entries]
    rfl
  next other =>
    have entries : l.calledEntries = [] := by
      rw [WashLane.calledEntries]
      split
      next calling => exact Option.toList_eq_nil_iff.2 (Option.eq_none_iff_forall_not_mem.2 fun x => other x calling)
      next => rfl
    rw [entries]
    rfl

theorem washOut_inService (detail : Nat) (hl : y.washLane? w = some l) (hs : l.state ≠ .out) :
    let x := setWash e w (fun l => { l with state := .out, timer := none }) y
    let z := notify e .washFault none (some (.wash w)) [detail] (match l.current with
      | some f => if l.state = .loading ∨ l.state = .starting ∨ l.state = .washing then endWash w f .aborted x else x
      | none => x)
    washOut e w detail y = match l.state, l.called with
      | .calling, some x => settle e (handOnQueue e w (x :: l.queue) (placeRec x.fleet .expected (.wash w) z))
      | _, _ => settle e (handOnQueue e w l.queue z) := by
  intro x z
  have aborted : z = notify e .washFault none (some (.wash w)) [detail] (abortInside w l x) :=
    congrArg (notify e .washFault none (some (.wash w)) [detail]) (abortInside_eq w l x).symm
  refine Eq.trans ?_ (handOn_called e w l z)
  simp only [washOut, hl, if_neg hs, aborted, x]

theorem washOut_out (detail : Nat) (hl : y.washLane? w = some l) (hs : l.state = .out) : washOut e w detail y = y := by
  simp only [washOut, hl, if_pos hs]

theorem startExpiry_starting (hl : y.washLane? w = some l) (hs : l.state = .starting) :
    startExpiry e w y = washOut e w 1 y := by
  simp only [startExpiry, hl, if_pos hs]

theorem startExpiry_ignored (hl : y.washLane? w = some l) (hs : l.state ≠ .starting) : startExpiry e w y = y := by
  simp only [startExpiry, hl, if_neg hs]

/-! ## The call timer (R146) -/

section CallTimer

variable {x : WashEntry} (hl : y.washLane? w = some l) (hs : l.state = .calling) (hc : l.called = some x)
include hl hs hc

theorem washSkip_requeues (few : x.skips + 1 < l.cfg.maxSkips) (room : l.room = true) : washSkip e w y
    = settle e (washCall e w (placeRec x.fleet .expected (.wash w) (tailExpect e .washIn w x.fleet
      (onWash w (fun l => { l with queue := l.queue ++ [⟨x.fleet, x.prog, x.skips + 1⟩] })
        (setWash e w (fun l => { l with state := .free, called := none, timer := none }) y))))) := by
  simp only [washSkip, hl, hs, hc, if_pos (And.intro few room)]

theorem washSkip_strays (h : l.cfg.maxSkips ≤ x.skips + 1 ∨ l.room = false) : washSkip e w y
    = settle e (washCall e w (notify e .stray (some x.fleet) none [] (loseRec x.fleet .stray
      (removeExpect e .washIn w x.fleet
        (setWash e w (fun l => { l with state := .free, called := none, timer := none }) y))))) := by
  have gone : ¬ (x.skips + 1 < l.cfg.maxSkips ∧ l.room = true) := by
    rintro ⟨few, room⟩
    rcases h with h | h
    · exact Nat.not_lt.2 h few
    · exact Bool.false_ne_true (h.symm.trans room)
  simp only [washSkip, hl, hs, hc, if_neg gone]

end CallTimer

/-! ## The inputs of a lane, laid out or not (R226) -/

theorem setPlant_laid (hl : y.washLane? w = some l) (hw : w < 2) (i : PlantInput) (b : Bool) :
    setPlant w i b y = { y with wash :=
      if w = 0 then { y.wash with plant0 := y.wash.plant0.set i b }
      else { y.wash with plant1 := y.wash.plant1.set i b } } := by
  obtain rfl | rfl : w = 0 ∨ w = 1 := by omega
  · simp only [setPlant, hl, if_true]
  · simp only [setPlant, hl, Nat.one_ne_zero, if_false]

section Unlaid

variable (hl : y.washLane? w = none)
include hl

theorem washBusy_unlaid : washBusy e w y = y := by simp only [washBusy, hl]

theorem washDone_unlaid : washDone e w y = y := by simp only [washDone, hl]

theorem washOut_unlaid (detail : Nat) : washOut e w detail y = y := by simp only [washOut, hl]

end Unlaid

/-! ## An entry handed on (R153) -/

theorem washWanted_held {f : Nat} {r : Record} (hr : y.rec? f = some r) : y.washWanted f = r.bus.wash := by
  simp only [Yard.washWanted, hr]

/-- A lane that takes a bus of the wanted programme. -/
def WashLane.takes (l : WashLane) (wanted : Prog) : Prop :=
  l.state ≠ .out ∧ l.queue.length + l.reservs.length < l.cfg.depth ∧ l.cfg.joinProg wanted ≠ .noWash

theorem washTakes_iff {wanted : Prog} :
    washTakes w wanted y = true ↔ ∃ l, y.washLane? w = some l ∧ l.takes wanted := by
  cases hl : y.washLane? w <;> simp [washTakes, hl, WashLane.takes, wash_room_iff, and_assoc]

theorem washTakes_of_lanes {z : Yard} (h : z.wash.lanes = y.wash.lanes) (w : Nat) (wanted : Prog) :
    washTakes w wanted z = washTakes w wanted y := by
  rw [washTakes, washTakes, washLane?_of_lanes h]

section HandOn

variable {x : WashEntry} {r : Record} (hr : y.rec? x.fleet = some r)
include hr

/-- The search for a place sees the yard as it was, but for the expectation that has left. -/
theorem pushHandedOn_eq (v : Nat) : pushHandedOn e v x.fleet (removeExpect e .washIn w x.fleet y)
    = if washTakes v r.bus.wash y then pushExpect e .washIn v x.fleet false (removeExpect e .washIn w x.fleet y)
      else none := by
  have held : (removeExpect e .washIn w x.fleet y).rec? x.fleet = some r := (rec?_of_records (by simp) _).trans hr
  rw [pushHandedOn, washWanted_held held, washTakes_of_lanes (y := y) (by simp)]

theorem handOnEntry_joins {z : Yard} (hl : y.washLane? (otherLane w) = some l) (ht : l.takes r.bus.wash)
    (hz : pushExpect e .washIn (otherLane w) x.fleet false (removeExpect e .washIn w x.fleet y) = some z) :
    handOnEntry e w x y = placeRec x.fleet .expected (.wash (otherLane w)) (onWash (otherLane w) (fun l => { l with
      queue := l.queue ++ [⟨x.fleet, l.cfg.joinProg r.bus.wash, x.skips⟩] }) z) := by
  have pushed : pushHandedOn e (otherLane w) x.fleet (removeExpect e .washIn w x.fleet y) = some z := by
    rwa [pushHandedOn_eq hr, if_pos (washTakes_iff.2 ⟨l, hl, ht⟩)]
  have held : z.rec? x.fleet = some r := by
    rw [pushExpect_frame hz]
    exact (rec?_of_records (by simp) _).trans hr
  simp only [handOnEntry, pushed, joinWash, washWanted_held held]

theorem handOnEntry_seeks (h : (∀ l, y.washLane? (otherLane w) = some l → ¬ l.takes r.bus.wash)
      ∨ pushExpect e .washIn (otherLane w) x.fleet false (removeExpect e .washIn w x.fleet y) = none) :
    handOnEntry e w x y = { enterSeeking x.fleet (removeExpect e .washIn w x.fleet y) with
      wash := { (enterSeeking x.fleet (removeExpect e .washIn w x.fleet y)).wash with
        faultList := y.wash.faultList.filter (· != x.fleet) ++ [x.fleet] } } := by
  have refused : pushHandedOn e (otherLane w) x.fleet (removeExpect e .washIn w x.fleet y) = none := by
    rw [pushHandedOn_eq hr]
    split
    next takes =>
      obtain ⟨l, hl, ht⟩ := washTakes_iff.1 takes
      exact h.resolve_left fun none => none l hl ht
    next => rfl
  simp only [handOnEntry, refused, enterSeeking_frame, removeExpect_frame]

end HandOn

end Sys2Proof.Machine
end

section
/-! The statement on plant faults, call timeouts, released inputs and the hand-on of an entry. -/

namespace Sys2Proof.Proofs.Washes

open Sys2Proof Sys2Proof.Machine

/-- Outside reset the release of a plant input only writes the station's view of it. -/
theorem plantInputReleased_acts {s : State} (h : s.inReset = false) {w : Nat} {i : PlantInput} {z : Yard}
    (hz : setPlant w i false s.yard = z) : exec (.plantInputReleased w i) s = .next { s with yard := z } := by
  rw [← hz]
  exact congrArg Host.Outcome.next (onYard_eq h _)

/-- Settles O56: a fault and a start timeout end the service alike, a call timeout by its room, an entry by the other
lane. -/
theorem washFaultsSkipsAndReleasedInputs : Obligations.WashFaultsSkipsAndReleasedInputs := by
  refine ⟨fun s w l hw hl => ?_, fun s => ⟨fun w l x hw hl hs hc => ⟨fun few room => ?_, fun h => ?_⟩,
      fun w i h hl => ⟨startPin_unlaid hl, progCode_unlaid hl, ?_, ?_, ?_, ?_⟩, fun w i l h hw hl => ?_⟩,
    fun e w x y r hr => ⟨fun l z hl ht hz => handOnEntry_joins hr hl ht hz, fun h => handOnEntry_seeks hr ?_⟩⟩
  · have laid := washLane?_setPlant .fault true hl
    refine ⟨fun hs => plantInput_acts hw rfl (washOut_inService 0 laid hs),
      fun hs => plantInput_acts hw rfl (washOut_out 0 laid hs),
      fun hs => event_works hw rfl ((startExpiry_starting hl hs).trans (washOut_inService 1 hl ?_)),
      fun hs => event_works hw rfl (startExpiry_ignored hl hs)⟩
    exact hs ▸ by decide
  · exact event_works hw rfl (washSkip_requeues hl hs hc few (wash_room_iff.2 room))
  · exact event_works hw rfl (washSkip_strays hl hs hc (h.imp_right fun full =>
      Bool.eq_false_iff.2 (mt wash_room_iff.1 (Nat.not_lt.2 full))))
  · exact plantInputReleased_acts h (setPlant_unlaid hl i false)
  · exact congrArg Host.Outcome.next (plantInput_unlaid h hl .busy (washBusy_unlaid hl))
  · exact congrArg Host.Outcome.next (plantInput_unlaid h hl .done (washDone_unlaid hl))
  · exact congrArg Host.Outcome.next (plantInput_unlaid h hl .fault (washOut_unlaid hl 0))
  · exact plantInputReleased_acts h (setPlant_laid hl hw i false)
  · rcases h with none | ⟨k, hk, full⟩ | noPlace
    · exact .inl fun l hl => absurd (none.symm.trans hl) (by simp)
    · exact .inl fun l hl => Option.some.inj (hk.symm.trans hl) ▸ full
    · exact .inr noPlace

end Sys2Proof.Proofs.Washes
end

section
/-! SUPPORT. LOAD DUTY and DROP DUTY (R172, R173): what each replies, by the first of its tests that applies, and what a
duty that is taken writes. -/

namespace Sys2Proof.Machine

/-- The gate's values of a station with a gate. -/
theorem gateCfg_some {l : Layout} {g : GateCfg} (h : l.gate = some g) : l.gateCfg = g := by
  simp only [Layout.gateCfg, h]

/-! ## LOAD DUTY (R172) -/

/-- LOAD DUTY is taken in the LOCKED and in the RUNNING phase (R210): it sends its block's reply. -/
theorem loadDuty_reply {s : State} (h : s.ready) (hp : s.phase = .locked ∨ s.phase = .running) {f : DutyFields}
    {r : Reply} (hr : cmdLoadDuty f s = r) : exec (.loadDuty f) s = .next (r.give 13 s) := by
  have taken : takenIn 13 s.phase = true := by rcases hp with hp | hp <;> rw [hp] <;> rfl
  exact congrArg Host.Outcome.next ((hostRow_taken h taken _ _).trans (by rw [hr]))

theorem dutyFields_ok_iff {f : DutyFields} {now : Nat} : f.ok now = true ↔ 1 ≤ f.number ∧ f.number ≤ 9999
    ∧ f.release ≤ 1439 ∧ f.mask ≠ 0#8 ∧ (∀ v ∈ f.minLevel, v ≤ 100) ∧ (∀ x ∈ f.fleet, 1 ≤ x ∧ x ≤ 4095)
    ∧ slackTo now f.release ≠ 0 := by
  simp [DutyFields.ok, dutyOk_iff, minuteOk_iff, fleetOk_iff, Option.all_eq_true, and_assoc]

/-- The number is listed, or the fleet named is paired (R172). -/
def DutyFields.inUse (f : DutyFields) (y : Yard) : Prop :=
  (y.duty? f.number).isSome = true ∨ ∃ x ∈ f.fleet, (y.pairedDuty x).isSome = true

/-- The fleet named is OUTBOUND at the gate (R172). -/
def DutyFields.leaving (f : DutyFields) (y : Yard) : Prop := ∃ x ∈ f.fleet, y.heldAt x .outbound .gate = true

theorem inUse_iff {f : DutyFields} {y : Yard} :
    ((y.duty? f.number).isSome || f.fleet.any fun g => (y.pairedDuty g).isSome) = true ↔ f.inUse y := by
  simp [DutyFields.inUse, Option.any_eq_true]

theorem leaving_iff {f : DutyFields} {y : Yard} :
    (f.fleet.any fun g => y.heldAt g .outbound .gate) = true ↔ f.leaving y := by
  simp [DutyFields.leaving, Option.any_eq_true]

section CmdLoadDuty

variable {f : DutyFields} {s : State}

theorem cmdLoadDuty_range (h : s.layout.gate = none ∨ ¬ f.ok s.clock.minute = true) : cmdLoadDuty f s = .no .range := by
  have outside : (s.layout.gate.isNone || !f.ok s.clock.minute) = true := by simpa using h
  simp only [cmdLoadDuty, if_pos outside]

variable (hg : s.layout.gate.isSome = true) (hok : f.ok s.clock.minute = true)
include hg hok

/-- With a gate and its fields in range the tests of the duty list and of the fleet decide. -/
theorem cmdLoadDuty_inRange : cmdLoadDuty f s
    = if (s.yard.duty? f.number).isSome || f.fleet.any fun g => (s.yard.pairedDuty g).isSome then .no .duplicate
      else if f.fleet.any fun g => s.yard.heldAt g .outbound .gate then .no .conflict
      else if 256 ≤ s.yard.gate.duties.length then .no .full
      else .ok (s.inYard (loadDuty f)) := by
  have inRange : (s.layout.gate.isNone || !f.ok s.clock.minute) = false := by
    simpa using ⟨hg, hok⟩
  simp only [cmdLoadDuty, inRange, Bool.false_eq_true, if_false]
  rfl

theorem cmdLoadDuty_duplicate (h : f.inUse s.yard) : cmdLoadDuty f s = .no .duplicate := by
  rw [cmdLoadDuty_inRange hg hok, if_pos (inUse_iff.2 h)]

theorem cmdLoadDuty_conflict (h : ¬ f.inUse s.yard) (hl : f.leaving s.yard) : cmdLoadDuty f s = .no .conflict := by
  rw [cmdLoadDuty_inRange hg hok, if_neg (mt inUse_iff.1 h), if_pos (leaving_iff.2 hl)]

theorem cmdLoadDuty_full (h : ¬ f.inUse s.yard) (hl : ¬ f.leaving s.yard) (full : 256 ≤ s.yard.gate.duties.length) :
    cmdLoadDuty f s = .no .full := by
  rw [cmdLoadDuty_inRange hg hok, if_neg (mt inUse_iff.1 h), if_neg (mt leaving_iff.1 hl), if_pos full]

theorem cmdLoadDuty_loads (h : ¬ f.inUse s.yard) (hl : ¬ f.leaving s.yard) (room : s.yard.gate.duties.length < 256) :
    cmdLoadDuty f s = .ok (s.inYard (loadDuty f)) := by
  rw [cmdLoadDuty_inRange hg hok, if_neg (mt inUse_iff.1 h), if_neg (mt leaving_iff.1 hl), if_neg (Nat.not_le.2 room)]

end CmdLoadDuty

/-- A duty joins the duty list in list order (R170). -/
def listDuty (d : Duty) (y : Yard) : Yard :=
  { y with gate := { y.gate with duties := insertBy Duty.order d y.gate.duties } }

/-- A duty joins the list with its pair, and the gate's own record of the fleet takes its pin (R172). -/
def listPinned (d : Duty) (x : Nat) (y : Yard) : Yard := pinRec x d (pair d.number x (listDuty d y))

theorem loadDuty_unpinned {f : DutyFields} (h : f.fleet = none) (e : Env) (y : Yard) : loadDuty f e y
    = if e.running then settle e (callIfDue e f.number (listDuty (f.duty e) y)) else listDuty (f.duty e) y := by
  simp only [loadDuty, h, listDuty]

theorem loadDuty_pinned {f : DutyFields} {x : Nat} (h : f.fleet = some x) (e : Env) (y : Yard) : loadDuty f e y
    = if e.running then settle e (callIfDue e f.number (sendRepin e x (listPinned (f.duty e) x y)))
      else listPinned (f.duty e) x y := by
  cases hr : e.running with
  | true => simp only [loadDuty, h, hr, if_true, listPinned, listDuty]
  | false => simp only [loadDuty, h, hr, Bool.false_eq_true, if_false, listPinned, listDuty]

/-! ## DROP DUTY (R173) -/

section CmdDropDuty

variable {n : Nat} {s : State} (hg : s.layout.gate.isSome = true) (hn : dutyOk n = true)
include hg hn

theorem cmdDropDuty_unknown (h : s.yard.duty? n = none) : cmdDropDuty n s = .no .unknown := by
  simp [cmdDropDuty, Option.isSome_iff_ne_none.1 hg, hn, h]

theorem cmdDropDuty_conflict {d : Duty} (h : s.yard.duty? n = some d)
    (hs : (∃ p g, d.state = .calling p g) ∨ ∃ f, d.state = .outbound f) : cmdDropDuty n s = .no .conflict := by
  rcases hs with ⟨p, g, hs⟩ | ⟨f, hs⟩ <;> simp [cmdDropDuty, Option.isSome_iff_ne_none.1 hg, hn, h, hs]

theorem cmdDropDuty_drops {d : Duty} (h : s.yard.duty? n = some d) (hs : d.state = .unpinned ∨ d.state = .pinned) :
    cmdDropDuty n s = .ok (s.inYard (dropDuty n)) := by
  rcases hs with hs | hs <;> simp [cmdDropDuty, Option.isSome_iff_ne_none.1 hg, hn, h, hs]

end CmdDropDuty

theorem dropDuty_unpaired {n : Nat} {y : Yard} (h : y.pinnedFleet n = none) (e : Env) :
    dropDuty n e y = removeDuty n y := by
  simp only [dropDuty, h]

theorem dropDuty_paired {n x : Nat} {y : Yard} (h : y.pinnedFleet n = some x) (e : Env) :
    dropDuty n e y = unpinFleet e x (unpair n (removeDuty n y)) := by
  simp only [dropDuty, h]

end Sys2Proof.Machine
end

section
/-! The statements on LOAD DUTY and DROP DUTY. -/

namespace Sys2Proof.Proofs.Gate

open Sys2Proof Sys2Proof.Machine

/-- Settles O24: the refusals in the order of the command's tests, then what the duty writes, by its fleet and by the
phase. -/
theorem loadDutyEntersTheDuty : Obligations.LoadDutyEntersTheDuty := by
  intro s f h hp ok inUse leaving
  refine ⟨fun hr => ?_, fun g hg hok => ?_⟩
  · exact loadDuty_reply h hp (cmdLoadDuty_range (hr.imp_right (mt dutyFields_ok_iff.1)))
  · replace hok := dutyFields_ok_iff.2 hok
    have gate : s.layout.gate.isSome = true := hg ▸ rfl
    refine ⟨fun hu => ?_, fun hu hl => ?_, fun hu hl full => ?_, fun hu hl room => ?_⟩
    · exact loadDuty_reply h hp (cmdLoadDuty_duplicate gate hok hu)
    · exact loadDuty_reply h hp (cmdLoadDuty_conflict gate hok hu hl)
    · exact loadDuty_reply h hp (cmdLoadDuty_full gate hok hu hl full)
    · intro d listed pinned
      have duty : f.duty s.env = d := by
        have cfg : s.env.layout.gateCfg = g := gateCfg_some hg
        rw [DutyFields.duty, cfg]
      have loads {z : Yard} (hz : loadDuty f s.env s.yard = z) :
          exec (.loadDuty f) s = .next (State.answer 13 .done [] { s with yard := z }) :=
        hz ▸ loadDuty_reply h hp (cmdLoadDuty_loads gate hok hu hl room)
      have idle (hp : s.phase = .locked) : ¬ s.env.running = true := by simp [State.env, hp]
      have runs (hp : s.phase = .running) : s.env.running = true := by simp [State.env, hp]
      refine ⟨fun hp hf => ?_, fun x hp hf => ?_, fun hp hf => ?_, fun x hp hf => ?_⟩
      · exact loads (by rw [loadDuty_unpinned hf, if_neg (idle hp), duty]; rfl)
      · exact loads (by rw [loadDuty_pinned hf, if_neg (idle hp), duty]; rfl)
      · exact loads (by rw [loadDuty_unpinned hf, if_pos (runs hp), duty]; rfl)
      · exact loads (by rw [loadDuty_pinned hf, if_pos (runs hp), duty]; rfl)

/-- Settles O25: the duty found under the number decides, then whether a fleet is paired with it. -/
theorem dropDutyFollowsTheDutysState : Obligations.DropDutyFollowsTheDutysState := by
  intro s n h hp hg h1 h2 without
  have inRange : dutyOk n = true := dutyOk_iff.2 ⟨h1, h2⟩
  have replies {r : Reply} (hr : cmdDropDuty n s = r) : exec (.dropDuty n) s = .next (r.give 15 s) :=
    running_reply h hp (by decide) (by decide) rfl hr
  refine ⟨fun hd => replies (cmdDropDuty_unknown hg inRange hd),
    fun d hd hs => replies (cmdDropDuty_conflict hg inRange hd hs), fun d hd hs hx => ?_, fun d x hd hs hx => ?_⟩
  · rw [replies (cmdDropDuty_drops hg inRange hd (.inl hs)), State.inYard, dropDuty_unpaired hx]
    rfl
  · rw [replies (cmdDropDuty_drops hg inRange hd (.inr hs)), State.inYard, dropDuty_paired hx]
    rfl

end Sys2Proof.Proofs.Gate
end

section
/-! SUPPORT. The arrival FIFO and the loop cross-check (R165 to R167): ADMIT, a tag read, and the end of the tag
window; how a read transaction ends by its outcome (R160, R161); and the bytes of a tag (R162). -/

namespace Sys2Proof.Machine

/-! ## ADMIT (R166) -/

theorem busFields_ok_iff {b : BusFields} : b.ok = true ↔ 1 ≤ b.fleet ∧ b.fleet ≤ 4095 ∧ b.cls ≤ 7 ∧ 50 ≤ b.capacity
    ∧ b.capacity ≤ 600 ∧ b.level ≤ 100 := by
  simp [BusFields.ok, fleetOk_iff, capacityOk_iff, and_assoc]

/-- A fleet is held, or waits in the arrival FIFO. -/
def Yard.knows (y : Yard) (f : Nat) : Prop := (y.rec? f).isSome = true ∨ ∃ x ∈ y.gate.fifo, x.bus.fleet = f

theorem knows_iff {y : Yard} {f : Nat} :
    ((y.rec? f).isSome || y.gate.fifo.any (·.bus.fleet == f)) = true ↔ y.knows f := by
  simp [Yard.knows]

section CmdAdmit

variable {b : BusFields} {s : State}

theorem cmdAdmit_range (h : s.layout.gate = none ∨ ¬ b.ok = true) : cmdAdmit b s = .no .range := by
  have outside : (s.layout.gate.isNone || !b.ok) = true := by simpa using h
  simp only [cmdAdmit, if_pos outside]

variable (hg : s.layout.gate.isSome = true) (hok : b.ok = true)
include hg hok

/-- With a gate and its fields in range the fleet and the room in the FIFO decide, in this order. -/
theorem cmdAdmit_inRange : cmdAdmit b s
    = if (s.yard.rec? b.fleet).isSome || s.yard.gate.fifo.any (·.bus.fleet == b.fleet) then .no .duplicate
      else if 8 ≤ s.yard.gate.fifo.length then .no .full
      else .ok (s.inYard (admitBus b)) := by
  have inRange : (s.layout.gate.isNone || !b.ok) = false := by simpa using ⟨hg, hok⟩
  simp only [cmdAdmit, inRange, Bool.false_eq_true, if_false]
  rfl

theorem cmdAdmit_duplicate (h : s.yard.knows b.fleet) : cmdAdmit b s = .no .duplicate := by
  rw [cmdAdmit_inRange hg hok, if_pos (knows_iff.2 h)]

theorem cmdAdmit_full (h : ¬ s.yard.knows b.fleet) (full : 8 ≤ s.yard.gate.fifo.length) :
    cmdAdmit b s = .no .full := by
  rw [cmdAdmit_inRange hg hok, if_neg (mt knows_iff.1 h), if_pos full]

theorem cmdAdmit_joins (h : ¬ s.yard.knows b.fleet) (room : s.yard.gate.fifo.length < 8) :
    cmdAdmit b s = .ok (s.inYard (admitBus b)) := by
  rw [cmdAdmit_inRange hg hok, if_neg (mt knows_iff.1 h), if_neg (Nat.not_le.2 room)]

end CmdAdmit

/-! ## The loop cross-check (R167) -/

/-- A read takes the oldest unmatched arrival. -/
theorem crossRead_matched {y : Yard} {x : Nat} {rest : List Nat} (h : y.gate.arrivals = x :: rest) (e : Env) :
    crossRead e y = { y with gate := { y.gate with arrivals := rest } } := by
  simp only [crossRead, h]

/-- With no arrival unmatched it waits as an unmatched read. -/
theorem crossRead_joins {y : Yard} (h : y.gate.arrivals = []) (e : Env) :
    crossRead e y = { y with gate := { y.gate with reads := pushOldest 8 e.second y.gate.reads } } := by
  simp only [crossRead, h, Config.fifoCap]

theorem windowEnd_arrival {y : Yard} {x : Nat} {rest : List Nat} (h : y.gate.arrivals = x :: rest) (e : Env) :
    windowEnd e true y
      = notify e .intruder none (some .gateEntry) [] { y with gate := { y.gate with arrivals := rest } } := by
  simp only [windowEnd, if_true, h, gateIntruder]

theorem windowEnd_read (e : Env) (y : Yard) :
    windowEnd e false y = { y with gate := { y.gate with reads := y.gate.reads.drop 1 } } := rfl

/-! ## A record read whole (R163, R165) -/

section TagRead

variable {e : Env} {t : Vector Byte 8} {y : Yard}

theorem tagRead_noMark (h : decodeTag t = .noMark) : tagRead e t y = y := by simp only [tagRead, h]

theorem tagRead_bad (h : decodeTag t = .bad) : tagRead e t y = countTagBad y := by simp only [tagRead, h]

theorem tagRead_joins {b : BusFields} (h : decodeTag t = .good b) (room : y.gate.fifo.length < 8) : tagRead e t y
    = settle e (crossRead e { y with gate := { y.gate with fifo := y.gate.fifo ++ [⟨b, false⟩] } }) := by
  have free : y.gate.fifo.length < Config.fifoCap := room
  simp only [tagRead, h, goodTag, if_pos free]

theorem tagRead_lost {b : BusFields} (h : decodeTag t = .good b) (full : 8 ≤ y.gate.fifo.length) : tagRead e t y
    = settle e (crossRead e (notify e .arrivalLost (some b.fleet) none [] y)) := by
  have noRoom : ¬ y.gate.fifo.length < Config.fifoCap := Nat.not_lt.2 full
  simp only [tagRead, h, goodTag, if_neg noRoom]

end TagRead

/-! ## The end of a read transaction (R160, R161) -/

/-- The transaction is over; what the poller put on the bus stands. -/
def pollOver (e : Env) (sda : List Bool) (y : Yard) : Yard :=
  { y with gate := { y.gate with polling := false, busOut := busDriven e.layout.gateCfg.reader sda } }

/-- After a lost arbitration the bus is with the other master (log 25). -/
def busTaken (e : Env) (sda : List Bool) (y : Yard) : Yard :=
  { y with gate := { y.gate with
    polling := false, busOut := busDriven e.layout.gateCfg.reader sda, busHeld := true } }

section PollEnd

variable {e : Env} {sda : List Bool} {y : Yard} (hp : y.gate.polling = true)
include hp

theorem pollEnd_noTag (h : pollOutcome e.layout.gateCfg.reader sda = some .noTag) :
    pollEnd e sda y = pollGood (pollOver e sda y) := by
  simp [pollEnd, hp, h, pollOver]

theorem pollEnd_lost (h : pollOutcome e.layout.gateCfg.reader sda = some .arbitrationLost) :
    pollEnd e sda y = pollFailed e (busTaken e sda y) := by
  simp [pollEnd, hp, h, busTaken]

theorem pollEnd_tag {t : Vector Byte 8} (h : pollOutcome e.layout.gateCfg.reader sda = some (.tag t)) :
    pollEnd e sda y = tagRead e t (pollGood (pollOver e sda y)) := by
  simp [pollEnd, hp, h, pollOver]

end PollEnd

/-! ## The bytes of a tag (R162) -/

/-- The digits of one bit field in front of another. -/
theorem toNat_append_eq {v w : Nat} (x : BitVec v) (y : BitVec w) :
    (x ++ y).toNat = x.toNat * 2 ^ w + y.toNat := by
  rw [BitVec.toNat_append, ← Nat.shiftLeft_add_eq_or_of_lt y.isLt, Nat.shiftLeft_eq]

/-- The second byte of a tag: the low four bits of the fleet, the class and the valid mark. -/
def tagByte1 (fleet : BitVec 12) (cls : BitVec 3) (mark : BitVec 1) : Byte := fleet.extractLsb' 0 4 ++ cls ++ mark

/-- The third byte of a tag: fuel, wash, two bits that are not tested and the high two bits of the capacity. -/
def tagByte2 (f2 w2 r2 : BitVec 2) (cap : BitVec 10) : Byte := f2 ++ w2 ++ r2 ++ cap.extractLsb' 8 2

/-- The fifth byte of a tag: a bit that is not tested and the level. -/
def tagByte4 (r4 : BitVec 1) (level : BitVec 7) : Byte := r4 ++ level

section TagBytes

variable (fleet : BitVec 12) (cls : BitVec 3) (mark : BitVec 1) (f2 w2 r2 : BitVec 2) (cap : BitVec 10)
  (r4 : BitVec 1) (level : BitVec 7)

theorem tagByte1_toNat :
    (tagByte1 fleet cls mark).toNat = fleet.toNat % 16 * 16 + cls.toNat * 2 + mark.toNat := by
  refine (toNat_append_eq (fleet.extractLsb' 0 4 ++ cls) mark).trans ?_
  rw [toNat_append_eq, BitVec.extractLsb'_toNat, Nat.shiftRight_zero]
  omega

theorem tagByte2_toNat : (tagByte2 f2 w2 r2 cap).toNat
    = f2.toNat * 64 + w2.toNat * 16 + r2.toNat * 4 + cap.toNat / 256 := by
  have := cap.isLt
  refine (toNat_append_eq (f2 ++ w2 ++ r2) (cap.extractLsb' 8 2)).trans ?_
  rw [toNat_append_eq, toNat_append_eq, BitVec.extractLsb'_toNat, Nat.shiftRight_eq_div_pow]
  omega

theorem tagByte4_toNat : (tagByte4 r4 level).toNat = r4.toNat * 128 + level.toNat := toNat_append_eq r4 level

theorem tagByte1_mark : (tagByte1 fleet cls mark).getLsbD 0 = mark.getLsbD 0 := by
  rw [tagByte1, BitVec.getLsbD_append, if_pos (by decide)]

theorem tagByte1_class : ((tagByte1 fleet cls mark).extractLsb 3 1).toNat = cls.toNat := by
  have := cls.isLt
  have := mark.isLt
  rw [BitVec.extractLsb_toNat, tagByte1_toNat, Nat.shiftRight_eq_div_pow]
  omega

/-- The fleet in two bytes. -/
theorem tag_fleet : (fleet.extractLsb' 4 8).toNat * 16 + ((tagByte1 fleet cls mark).extractLsb 7 4).toNat
    = fleet.toNat := by
  have := fleet.isLt
  have := cls.isLt
  have := mark.isLt
  rw [BitVec.extractLsb_toNat, tagByte1_toNat, BitVec.extractLsb'_toNat, Nat.shiftRight_eq_div_pow,
    Nat.shiftRight_eq_div_pow]
  omega

theorem tagByte2_fuel : ((tagByte2 f2 w2 r2 cap).extractLsb 7 6).toNat = f2.toNat := by
  have := f2.isLt
  have := w2.isLt
  have := r2.isLt
  have := cap.isLt
  rw [BitVec.extractLsb_toNat, tagByte2_toNat, Nat.shiftRight_eq_div_pow]
  omega

theorem tagByte2_wash : ((tagByte2 f2 w2 r2 cap).extractLsb 5 4).toNat = w2.toNat := by
  have := w2.isLt
  have := r2.isLt
  have := cap.isLt
  rw [BitVec.extractLsb_toNat, tagByte2_toNat, Nat.shiftRight_eq_div_pow]
  omega

/-- The capacity in two bytes. -/
theorem tag_capacity : ((tagByte2 f2 w2 r2 cap).extractLsb 1 0).toNat * 256 + (cap.extractLsb' 0 8).toNat
    = cap.toNat := by
  have := cap.isLt
  rw [BitVec.extractLsb_toNat, tagByte2_toNat, BitVec.extractLsb'_toNat, Nat.shiftRight_zero, Nat.shiftRight_zero]
  omega

theorem tagByte4_level : ((tagByte4 r4 level).extractLsb 6 0).toNat = level.toNat := by
  have := level.isLt
  rw [BitVec.extractLsb_toNat, tagByte4_toNat, Nat.shiftRight_zero]
  omega

end TagBytes

section DecodeTag

variable {b0 b1 b2 b3 b4 b5 b6 c : Byte}

theorem decodeTag_unmarked (h : b1.getLsbD 0 = false) : decodeTag #v[b0, b1, b2, b3, b4, b5, b6, c] = .noMark :=
  if_pos h

theorem decodeTag_unchecked (h : b1.getLsbD 0 = true) (hc : c ≠ b0 + b1 + b2 + b3 + b4 + b5 + b6) :
    decodeTag #v[b0, b1, b2, b3, b4, b5, b6, c] = .bad :=
  (if_neg (by simpa using h)).trans (if_pos hc)

variable (fleet : BitVec 12) (cls : BitVec 3) (f2 w2 r2 : BitVec 2) (cap : BitVec 10) (r4 : BitVec 1)
  (level : BitVec 7) (b5 b6 : Byte)

/-- A marked tag with a good check byte: its fuel and wash codes decide, then the ranges of its fields. -/
theorem decodeTag_checked (hc : c = fleet.extractLsb' 4 8 + tagByte1 fleet cls 1 + tagByte2 f2 w2 r2 cap
      + cap.extractLsb' 0 8 + tagByte4 r4 level + b5 + b6) {fu : Option Fuel} (hf : tagFuel f2.toNat = fu)
    {wash : Prog} (hw : progOf w2.toNat = some wash) :
    decodeTag #v[fleet.extractLsb' 4 8, tagByte1 fleet cls 1, tagByte2 f2 w2 r2 cap, cap.extractLsb' 0 8,
        tagByte4 r4 level, b5, b6, c]
      = fu.elim .bad fun fuel => if fleetOk fleet.toNat && capacityOk cap.toNat && decide (level.toNat ≤ 100) then
          .good ⟨fleet.toNat, cls.toNat, fuel, cap.toNat, level.toNat, wash⟩ else .bad := by
  have marked : ¬ (tagByte1 fleet cls 1).getLsbD 0 = false := by simp [tagByte1_mark]
  refine (if_neg marked).trans ((if_neg (not_not.2 hc)).trans ?_)
  simp only [Vector.getElem_mk, List.getElem_toArray, List.getElem_cons_zero, List.getElem_cons_succ, tag_fleet,
    tagByte1_class, tagByte2_fuel, tagByte2_wash, tag_capacity, tagByte4_level, hf, hw]
  cases fu <;> rfl

end DecodeTag

end Sys2Proof.Machine
end

section
/-! The statements on ADMIT, on tags read and the end of the tag window, and on the bytes of a tag. -/

namespace Sys2Proof.Proofs.Gate

open Sys2Proof Sys2Proof.Machine

/-- Settles O27: the refusals in the order of the command's tests, then the cross-check by its oldest arrival. -/
theorem admitEntersTheArrivalFifo : Obligations.AdmitEntersTheArrivalFifo := by
  intro s b h hp ok known joined
  have replies {r : Reply} (hr : cmdAdmit b s = r) : exec (.admitBus b) s = .next (r.give 21 s) :=
    running_reply h hp (by decide) (by decide) rfl hr
  refine ⟨fun hr => replies (cmdAdmit_range (hr.imp_right (mt busFields_ok_iff.1))), fun hg hok => ?_⟩
  replace hok := busFields_ok_iff.2 hok
  refine ⟨fun hk => replies (cmdAdmit_duplicate hg hok hk), fun hk full => replies (cmdAdmit_full hg hok hk full),
    fun hk room => ?_⟩
  rw [replies (cmdAdmit_joins hg hok hk room), give_ok, State.inYard, admitBus]
  cases ha : s.yard.gate.arrivals with
  | nil => rw [crossRead_joins (by exact ha)]; rfl
  | cons x rest => rw [crossRead_matched (by exact ha)]

/-- Settles O58: the tag read decides what a transaction with a record does; the window ends by its list. -/
theorem tagsAndTheLoopCrossCheck : Obligations.TagsAndTheLoopCrossCheck := by
  refine ⟨fun s g sda bytes hw hg hp ho => ?_, fun s hw => ⟨fun x rest ha => ?_, ?_⟩⟩
  · intro y
    have cfg : s.env.layout.gateCfg = g := gateCfg_some hg
    have succeeded : pollGood (pollOver s.env sda s.yard) = y := by rw [pollOver, cfg]; rfl
    have reads {z : Yard} (hz : tagRead s.env bytes y = z) :
        exec (.pollTransactionEnd sda) s = .next { s with yard := z } :=
      event_works hw rfl ((pollEnd_tag hp (cfg.symm ▸ ho)).trans (succeeded.symm ▸ hz))
    exact ⟨fun hd => reads (tagRead_noMark hd), fun hd => reads (tagRead_bad hd),
      fun b hd room => reads (tagRead_joins hd room), fun b hd full => reads (tagRead_lost hd full)⟩
  · exact event_works hw rfl (windowEnd_arrival ha s.env)
  · exact event_works hw rfl (windowEnd_read s.env s.yard)

/-- Settles O59: the mark decides first, then the check byte, then the codes and the ranges of the fields read back. -/
theorem tagBytesAreReadAsWritten : Obligations.TagBytesAreReadAsWritten := by
  intro fleet cls fuel wash cap level c r2 r4 b5 b6 f2 w2 b0 b1 b2 b3 b4 sum ok
  have fuelCode : tagFuel f2.toNat = some fuel := by cases fuel <;> rfl
  have washCode : progOf w2.toNat = some wash := by cases wash <;> rfl
  have inRange : (fleetOk fleet.toNat && capacityOk cap.toNat && decide (level.toNat ≤ 100)) = true ↔ ok := by
    have := fleet.isLt
    simp only [Bool.and_eq_true, fleetOk_iff, capacityOk_iff, decide_eq_true_eq, ok]
    omega
  have written : decodeTag #v[b0, b1 1, b2 f2, b3, b4, b5, b6, sum f2] = _ :=
    decodeTag_checked fleet cls f2 w2 r2 cap r4 level b5 b6 rfl fuelCode washCode
  refine ⟨decodeTag_unmarked (tagByte1_mark fleet cls 0), fun hc => decodeTag_unchecked (tagByte1_mark fleet cls 1) hc,
    fun h => ?_, fun h => ?_, decodeTag_checked fleet cls 3 w2 r2 cap r4 level b5 b6 rfl (fu := none) rfl washCode⟩
  · rw [written, Option.elim_some, if_pos (inRange.2 h)]
  · rw [written, Option.elim_some, if_neg (mt inRange.1 h)]

end Sys2Proof.Proofs.Gate
end

section
/-! SUPPORT. A HANDOVER for the gate's own AWAITING entry (R65, R177): whether it is one, and what the gate answers; and
the pins of a duty taken (R178). -/

namespace Sys2Proof.Machine

/-! ## The gate's own AWAITING entry (R65, R177) -/

section TakeAtGate

variable {e : Env} {q n dn : Nat} {ref : SeekRef} {b : Carried} {y : Yard}

theorem awaiting?_duty {en : SeekEntry} {w : Winner} {f : Nat} (h : y.seekEntry? n = some en)
    (hs : en.subject = .duty dn) (ha : en.state = .awaiting) (hw : en.winner = some w) (hq : w.station = q)
    (ho : en.offered = some f) : awaiting? e q ⟨e.layout.own, n⟩ f y = some (en, dn) := by
  simp [awaiting?, Proofs.Custody.ownSeek?_own, h, hs, ha, hw, hq, ho]

theorem takeHandover_awaited {en : SeekEntry} (h : y.heldOffer? ref b.fleet = none)
    (ha : awaiting? e q ref b.fleet y = some (en, dn)) :
    takeHandover e q ref b y = takeAtGate e q ref en.number dn b y := by
  simp only [takeHandover, h, ha]

theorem dutyCalling_iff : dutyCalling dn y = true ↔ ∃ x p o, y.duty? dn = some x ∧ x.state = .calling p o := by
  cases hd : y.duty? dn with
  | none => simp [dutyCalling, hd]
  | some x =>
    cases hx : x.state with
    | calling p o =>
      simp only [dutyCalling, hd, hx, true_iff]
      exact ⟨x, p, o, rfl, hx⟩
    | _ => simp [dutyCalling, hd, hx]

/-- The record and the expectation with which the gate would take the bus (R177). -/
def pushAtGate (e : Env) (b : Carried) (y : Yard) : Option Yard :=
  pushExpect e .gateOut 0 b.fleet true (addRec ⟨b, .outbound, .gate⟩ y)

theorem takeAtGate_taken {z : Yard} (hc : dutyCalling dn y = true) (hr : y.rec? b.fleet = none)
    (hn : y.records.length < 96) (hz : pushAtGate e b y = some z) :
    takeAtGate e q ref n dn b y = gateTaken e q ref n dn b z := by
  unfold pushAtGate at hz
  simp only [takeAtGate, if_pos hc, insertAnswer_inserted hr hn, hz]

/-- A full table or a full expectation queue at GATE_OUT holds the HANDOVER up. -/
theorem takeAtGate_heldUp (hc : dutyCalling dn y = true) (hr : y.rec? b.fleet = none)
    (hf : 96 ≤ y.records.length ∨ pushAtGate e b y = none) : takeAtGate e q ref n dn b y
      = reply e .hold q ref b.fleet (onSeek n (fun x => { x with timer := some e.heldOn }) y) := by
  by_cases hn : y.records.length < 96
  · have noPush := hf.resolve_left (Nat.not_le.2 hn)
    unfold pushAtGate at noPush
    simp only [takeAtGate, if_pos hc, insertAnswer_inserted hr hn, noPush]
  · simp only [takeAtGate, if_pos hc, insertAnswer_full hr (Nat.not_lt.1 hn)]

theorem takeAtGate_refused (h : ¬ dutyCalling dn y = true ∨ (y.rec? b.fleet).isSome = true) :
    takeAtGate e q ref n dn b y = reply e .refuse q ref b.fleet y := by
  by_cases hc : dutyCalling dn y = true
  · simp only [takeAtGate, if_pos hc, insertAnswer_held (h.resolve_left (not_not.2 hc))]
  · simp only [takeAtGate, if_neg hc]

end TakeAtGate

/-! ## The pins of a duty taken (R178) -/

/-- The pairs of some duties leave the pin table. -/
def unpairAll (ds : List Nat) (y : Yard) : Yard :=
  { y with gate := { y.gate with pins := y.gate.pins.filter fun p => !ds.contains p.duty } }

theorem unpair_eq (n : Nat) (y : Yard) : unpair n y = unpairAll [n] y := by
  simp only [unpair, unpairAll, bne, List.contains_cons, List.contains_nil, Bool.or_false]

theorem unpair_unpair (n x : Nat) (y : Yard) : unpair x (unpair n y) = unpairAll [n, x] y := by
  simp only [unpair, unpairAll, List.filter_filter, bne, List.contains_cons, List.contains_nil, Bool.or_false,
    Bool.not_or, Bool.and_comm]

/-- A duty with no pair has none to leave the pin table. -/
theorem unpairAll_unpaired {n : Nat} {y : Yard} (h : y.pinnedFleet n = none) : unpairAll [n] y = y := by
  have none_of : ∀ p ∈ y.gate.pins, p.duty ≠ n := by simpa [Yard.pinnedFleet] using h
  have same : (y.gate.pins.filter fun p => !([n].contains p.duty)) = y.gate.pins :=
    List.filter_eq_self.2 fun p hp => by simpa using none_of p hp
  rw [unpairAll, same]

section ResolvePins

variable {e : Env} {n b : Nat} {y : Yard}

/-- The fleet taken was the duty's own. -/
theorem resolvePins_own (h : y.pinnedFleet n = some b) : resolvePins e n b y = unpairAll [n] y := by
  simp only [resolvePins, h, if_true, unpair_eq]

/-- The duty's own fleet takes the pair of the duty that loses the fleet taken. -/
theorem resolvePins_swap {a x : Nat} {dx : Duty} (ha : y.pinnedFleet n = some a) (hne : a ≠ b)
    (hx : y.pairedDuty b = some x) (hd : y.duty? x = some dx) : resolvePins e n b y
      = callIfDue e x (sendRepin e a (pinRec a dx (pair x a (unpairAll [n, x] y)))) := by
  have other : ¬ some a = some b := fun h => hne (Option.some.inj h)
  have found : (pair x a (unpairAll [n, x] y)).duty? x = some dx := hd
  simp only [resolvePins, ha, hx, if_neg other, unpair_unpair, found]

/-- The duty that loses the fleet taken is left with no pair. -/
theorem resolvePins_opens {x : Nat} (ha : y.pinnedFleet n = none) (hx : y.pairedDuty b = some x) :
    resolvePins e n b y = callIfDue e x (openIfPinned x (unpairAll [n, x] y)) := by
  simp only [resolvePins, ha, hx, reduceCtorEq, if_false, unpair_unpair]

/-- The duty's own fleet loses its pin. -/
theorem resolvePins_unpins {a : Nat} (ha : y.pinnedFleet n = some a) (hne : a ≠ b) (hx : y.pairedDuty b = none) :
    resolvePins e n b y = unpinFleet e a (unpairAll [n] y) := by
  have other : ¬ some a = some b := fun h => hne (Option.some.inj h)
  simp only [resolvePins, ha, hx, if_neg other, unpair_eq]

theorem resolvePins_unpaired (ha : y.pinnedFleet n = none) (hx : y.pairedDuty b = none) :
    resolvePins e n b y = unpairAll [n] y := by
  simp only [resolvePins, ha, hx, reduceCtorEq, if_false, unpair_eq]

end ResolvePins

end Sys2Proof.Machine
end

section
/-! The statement on a HANDOVER for the gate's seek. -/

namespace Sys2Proof.Proofs.Gate

open Sys2Proof Sys2Proof.Machine

/-- Settles O43: the frame is one for the gate's AWAITING entry; then its duty, the insertion and the push decide. The
pins by the fleet of the duty and the duty of the fleet. -/
theorem theGateTakesABusForItsDuty : Obligations.TheGateTakesABusForItsDuty := by
  refine ⟨fun s q n dn b d en w hw hh ho hn hs ha hwin hq hoff => ?_,
    fun e n b y => ⟨resolvePins_own, fun a x dx => resolvePins_swap, fun x => resolvePins_opens,
      fun a => resolvePins_unpins, fun ha hx => ⟨resolvePins_unpaired ha hx, unpairAll_unpaired ha⟩⟩⟩
  intro y calling pushed
  have awaited : awaiting? s.env q ⟨s.layout.own, n⟩ b.fleet y = some (en, dn) :=
    awaiting?_duty (e := s.env) (y := y) hn hs ha hwin hq hoff
  have answers {z : Yard} (hz : takeAtGate s.env q ⟨s.layout.own, n⟩ n dn b y = z) :
      exec .handoverReceived s = .next { s with yard := settle s.env z } := by
    refine Handovers.exec_handoverReceived hw hh ((takeHandover_awaited (y := y) ho awaited).trans ?_)
    rw [seekEntry?_number hn, hz]
  refine ⟨fun y' hc hr hroom hp => ?_, fun hc hr hf => ?_, fun h => ?_⟩
  · exact answers (takeAtGate_taken (dutyCalling_iff.2 hc) hr hroom hp)
  · exact answers (takeAtGate_heldUp (dutyCalling_iff.2 hc) hr hf)
  · exact answers (takeAtGate_refused (h.imp_left (mt dutyCalling_iff.1)))

end Sys2Proof.Proofs.Gate
end

section
/-! SUPPORT. The polls of the tag reader (R160, R161): how a poll begins and fails, and the eight bytes of a read
transaction as they come in. -/

namespace Sys2Proof.Machine

/-! ## A poll begins or fails (R160, R161) -/

section PollTimer

variable {e : Env} {left : Nat} {y : Yard} (ht : y.gate.pollTimer = some left)
include ht

/-- The poll timer starts again. -/
theorem pollTimer_running (low : Bool) : pollTimer e low y
    = if y.gate.polling then { y with gate := { y.gate with pollTimer := some e.layout.gateCfg.poll } }
      else if y.gate.busHeld || low then
        pollFailed e { y with gate := { y.gate with pollTimer := some e.layout.gateCfg.poll, busOut := [] } }
      else { y with gate := { y.gate with
        pollTimer := some e.layout.gateCfg.poll
        polling := true
        busOut := busDriven e.layout.gateCfg.reader [] } } := by
  simp only [pollTimer, ht]

theorem pollTimer_underWay (hp : y.gate.polling = true) (low : Bool) :
    pollTimer e low y = { y with gate := { y.gate with pollTimer := some e.layout.gateCfg.poll } } := by
  rw [pollTimer_running ht, if_pos hp]

theorem pollTimer_begins (hp : y.gate.polling = false) (hb : y.gate.busHeld = false) :
    pollTimer e false y = { y with gate := { y.gate with
      pollTimer := some e.layout.gateCfg.poll, polling := true, busOut := busDriven e.layout.gateCfg.reader [] } } := by
  rw [pollTimer_running ht, if_neg (by simp [hp]), if_neg (by simp [hb])]

theorem pollTimer_busy (hp : y.gate.polling = false) {low : Bool} (hb : y.gate.busHeld = true ∨ low = true) :
    pollTimer e low y
      = pollFailed e { y with gate := { y.gate with pollTimer := some e.layout.gateCfg.poll, busOut := [] } } := by
  rw [pollTimer_running ht, if_neg (by simp [hp]), if_pos (Bool.or_eq_true_iff.2 hb)]

end PollTimer

theorem startStop_idle {e : Env} {y : Yard} (hg : e.layout.gate.isSome = true) (hp : y.gate.polling = false)
    (b : Bool) : startStop e b y = { y with gate := { y.gate with busHeld := b } } := by
  simp [startStop, hg, hp]

section PollFailed

variable (e : Env) (y : Yard)

/-- A failed poll is counted, up to 3 in the register and in POLL_FAILED (R161). -/
def pollCounted (y : Yard) : Yard :=
  { y with
    gate := { y.gate with failCount := min 3 (y.gate.failCount + 1) }
    cnt := { y.cnt with pollFailed := min 65535 (y.cnt.pollFailed + 1) } }

/-- The third failed poll since the last success raises the READER_FAULT that none has raised. -/
def faultDue (y : Yard) : Prop := 2 ≤ y.gate.failCount ∧ y.gate.faultRaised = false

theorem pollFailed_due {y : Yard} (h : faultDue y) : pollFailed e y
    = notify e .readerFault none none [e.layout.gateCfg.reader]
        { pollCounted y with gate := { (pollCounted y).gate with faultRaised := true } } :=
  if_pos ⟨by have := h.1; change min 3 _ = 3; omega, h.2⟩

theorem pollFailed_quiet {y : Yard} (h : ¬ faultDue y) : pollFailed e y = pollCounted y :=
  if_neg fun hn => h ⟨by have : min 3 (y.gate.failCount + 1) = 3 := hn.1; omega, hn.2⟩

theorem pollFailed_gate : (pollFailed e y).gate = { y.gate with
    failCount := min 3 (y.gate.failCount + 1)
    faultRaised := y.gate.faultRaised || decide (2 ≤ y.gate.failCount) } := by
  by_cases h : faultDue y
  · simp [pollFailed_due e h, pollCounted, h.1]
  · have same : (y.gate.faultRaised || decide (2 ≤ y.gate.failCount)) = y.gate.faultRaised := by
      cases hr : y.gate.faultRaised with
      | true => rfl
      | false => simpa [faultDue, hr] using h
    rw [pollFailed_quiet e h, same]
    rfl

theorem pollFailed_cnt : (pollFailed e y).cnt = { y.cnt with pollFailed := min 65535 (y.cnt.pollFailed + 1) } := by
  by_cases h : faultDue y
  · simp [pollFailed_due e h, pollCounted]
  · rw [pollFailed_quiet e h]
    rfl

theorem pollFailed_notices (room : y.notices.length < 32) : (pollFailed e y).notices = y.notices
    ++ (if 2 ≤ y.gate.failCount ∧ y.gate.faultRaised = false then
      [⟨.readerFault, if e.clockValid then e.minute else 0, none, none, [e.layout.gateCfg.reader]⟩] else []) := by
  by_cases h : faultDue y
  · have due : 2 ≤ y.gate.failCount ∧ y.gate.faultRaised = false := h
    rw [pollFailed_due e h, notify_room _ _ _ _ _ (by exact room), if_pos due]
    rfl
  · have quiet : ¬ (2 ≤ y.gate.failCount ∧ y.gate.faultRaised = false) := h
    rw [pollFailed_quiet e h, if_neg quiet, List.append_nil]
    rfl

theorem pollFailed_parts : pollFailed e y = { y with
    gate := { y.gate with
      busOut := (pollFailed e y).gate.busOut
      failCount := (pollFailed e y).gate.failCount
      faultRaised := (pollFailed e y).gate.faultRaised }
    cnt := (pollFailed e y).cnt
    notices := (pollFailed e y).notices
    lost := (pollFailed e y).lost } := by
  by_cases h : faultDue y
  · rw [pollFailed_due e h]
    apply yard_eq_of_parts <;> simp [pollCounted]
  · rw [pollFailed_quiet e h]
    rfl

end PollFailed

/-! ## The bytes of a transaction (R160) -/

/-- The levels of SDA while a byte is read and acknowledged. -/
def byteLevels (b : Byte) : List Bool := natBits 8 b.toNat ++ [false]

/-- The transaction: a start, the poller's own bits, and what follows the reader's acknowledge. -/
theorem readTransaction_eq (a : Nat) : readTransaction a = .start :: ((natBits 7 a ++ [true]).map .send ++ .readerAck ::
    ((List.replicate 7 (byteClocks true)).flatten ++ (byteClocks false ++ [.stop]))) := by
  simp [readTransaction]

/-- The clocks of a byte take its eight bits and then the level behind them. -/
theorem followTransaction_byte (b : Byte) (is : List BusItem) (sda got : List Bool) :
    followTransaction (List.replicate 8 .readerBit ++ is) (natBits 8 b.toNat ++ sda) got
      = followTransaction is sda (got ++ natBits 8 b.toNat) := by
  have received := followTransaction_received (natBits 8 b.toNat) is sda got
  rwa [natBits_length] at received

theorem drivenItems_byte (b : Byte) (is : List BusItem) (sda : List Bool) :
    drivenItems (List.replicate 8 .readerBit ++ is) (natBits 8 b.toNat ++ sda)
      = List.replicate 8 .readerBit ++ drivenItems is sda := by
  have clocked := drivenItems_received (natBits 8 b.toNat) is sda
  rwa [natBits_length] at clocked

/-- A byte that is acknowledged joins those received. -/
theorem followTransaction_ackedByte (b : Byte) (is : List BusItem) (sda got : List Bool) :
    followTransaction (byteClocks true ++ is) (byteLevels b ++ sda) got
      = followTransaction is sda (got ++ natBits 8 b.toNat) := by
  rw [byteClocks, byteLevels, List.append_assoc, List.append_assoc, followTransaction_byte]
  rfl

theorem drivenItems_ackedByte (b : Byte) (is : List BusItem) (sda : List Bool) :
    drivenItems (byteClocks true ++ is) (byteLevels b ++ sda) = byteClocks true ++ drivenItems is sda := by
  rw [byteClocks, byteLevels, List.append_assoc, List.append_assoc, drivenItems_byte, List.append_assoc]
  rfl

/-- Bytes that are acknowledged join those received. -/
theorem followTransaction_bytes (l : List Byte) (is : List BusItem) (sda got : List Bool) :
    followTransaction ((List.replicate l.length (byteClocks true)).flatten ++ is) (l.flatMap byteLevels ++ sda) got
      = followTransaction is sda (got ++ bytesBits l) := by
  induction l generalizing got with
  | nil => simp [bytesBits]
  | cons b l ih =>
    rw [List.length_cons, List.replicate_succ, List.flatten_cons, List.flatMap_cons, List.append_assoc,
      List.append_assoc, followTransaction_ackedByte, ih, bytesBits, List.append_assoc]

/-- They are clocked in and acknowledged one after the other. -/
theorem drivenItems_bytes (l : List Byte) (is : List BusItem) (sda : List Bool) :
    drivenItems ((List.replicate l.length (byteClocks true)).flatten ++ is) (l.flatMap byteLevels ++ sda)
      = (List.replicate l.length (byteClocks true)).flatten ++ drivenItems is sda := by
  induction l with
  | nil => rfl
  | cons b l ih =>
    rw [List.length_cons, List.replicate_succ, List.flatten_cons, List.flatMap_cons, List.append_assoc,
      List.append_assoc, drivenItems_ackedByte, ih, List.append_assoc]

/-- The last byte is not acknowledged: the level left high ends the transaction, pulled low it loses the arbitration. -/
theorem followTransaction_lastByte (b : Byte) (last : Bool) (got : List Bool) :
    followTransaction (byteClocks false ++ [.stop]) (natBits 8 b.toNat ++ [last]) got
      = some (if last then .tag (tagOf (got ++ natBits 8 b.toNat)) else .arbitrationLost) := by
  rw [byteClocks, List.append_assoc, followTransaction_byte]
  cases last <;> rfl

theorem drivenItems_lastByte (b : Byte) (last : Bool) :
    drivenItems (byteClocks false ++ [.stop]) (natBits 8 b.toNat ++ [last])
      = List.replicate 8 .readerBit ++ .send true :: (if last then [.stop] else []) := by
  rw [byteClocks, List.append_assoc, drivenItems_byte]
  cases last <;> rfl

theorem bytesBits_append (l m : List Byte) : bytesBits (l ++ m) = bytesBits l ++ bytesBits m := by
  induction l with
  | nil => rfl
  | cons b l ih => simp [bytesBits, ih]

/-- The bits of one byte of a run. -/
theorem bytesBits_byte (l : List Byte) (i : Nat) (h : i < l.length) :
    ((bytesBits l).drop (8 * i)).take 8 = natBits 8 l[i].toNat := by
  induction l generalizing i with
  | nil => simp at h
  | cons b l ih =>
    cases i with
    | zero => exact List.take_left' (natBits_length 8 b.toNat)
    | succ i =>
      have next : (bytesBits (b :: l)).drop (8 * (i + 1)) = (bytesBits l).drop (8 * i) := by
        rw [bytesBits, Nat.mul_succ, Nat.add_comm, ← List.drop_drop, List.drop_left' (natBits_length 8 b.toNat)]
      rw [next, List.getElem_cons_succ]
      exact ih i (by simpa using h)

/-- Eight bytes are read back from their bits. -/
theorem tagOf_bytesBits (v : Vector Byte 8) : tagOf (bytesBits v.toList) = v := by
  ext1 i hi
  have bits := bytesBits_byte v.toList i (by simpa using hi)
  rw [tagOf, Vector.getElem_ofFn, bits, bitsNat_natBits (BitVec.isLt _), BitVec.ofNat_toNat, BitVec.setWidth_eq,
    Vector.getElem_toList]

theorem toList_eq_concat (v : Vector Byte 8) : v.toList = v.toList.take 7 ++ [v[7]] := by
  have last := List.take_append_getElem (l := v.toList) (i := 7) (by simp)
  rw [← Vector.getElem_toList (h := by simp), last]
  exact (List.take_of_length_le (by simp)).symm

section Outcome

variable (a : Nat)

/-- With the reader's acknowledge high the transaction ends with no tag, and a stop. -/
theorem poll_noTag (rest : List Bool) : pollOutcome a (natBits 7 a ++ [true] ++ true :: rest) = some .noTag
    ∧ busDriven a (natBits 7 a ++ [true] ++ true :: rest)
      = [.start] ++ (natBits 7 a ++ [true]).map .send ++ [.readerAck, .stop] := by
  rw [pollOutcome, busDriven, readTransaction_eq]
  exact ⟨followTransaction_sent _ _ _ _, congrArg (BusItem.start :: ·) (drivenItems_sent _ _ _)⟩

/-- With a sent high bit of the address byte read low the arbitration is lost, and nothing more goes out. -/
theorem poll_lost {i : Nat} (h : (natBits 7 a ++ [true])[i]? = some true) (rest : List Bool) :
    pollOutcome a ((natBits 7 a ++ [true]).take i ++ false :: rest) = some .arbitrationLost
    ∧ busDriven a ((natBits 7 a ++ [true]).take i ++ false :: rest)
      = [.start] ++ ((natBits 7 a ++ [true]).take (i + 1)).map .send := by
  rw [pollOutcome, busDriven, readTransaction_eq]
  exact ⟨followTransaction_lost _ _ _ h, congrArg (BusItem.start :: ·) (drivenItems_lost _ _ h)⟩

/-- With it low seven acknowledged bytes and the last one follow. -/
theorem poll_bytes (v : Vector Byte 8) (last : Bool) :
    let sda := natBits 7 a ++ [true] ++ [false] ++ (v.toList.take 7).flatMap byteLevels ++ natBits 8 v[7].toNat
      ++ [last]
    pollOutcome a sda = some (if last then .tag v else .arbitrationLost)
    ∧ busDriven a sda = [.start] ++ (natBits 7 a ++ [true]).map .send ++ [.readerAck]
        ++ (List.replicate 7 (byteClocks true)).flatten ++ List.replicate 8 .readerBit ++ [.send true]
        ++ (if last then [.stop] else []) := by
  intro sda
  have levels : sda = (natBits 7 a ++ [true]) ++ false :: ((v.toList.take 7).flatMap byteLevels
      ++ (natBits 8 v[7].toNat ++ [last])) := by simp [sda]
  have seven : (v.toList.take 7).length = 7 := by simp
  have bits : bytesBits (v.toList.take 7) ++ natBits 8 v[7].toNat = bytesBits v.toList := by
    conv_rhs => rw [toList_eq_concat v, bytesBits_append]
    simp [bytesBits]
  have followed := followTransaction_bytes (v.toList.take 7) (byteClocks false ++ [.stop])
    (natBits 8 v[7].toNat ++ [last]) []
  have driven := drivenItems_bytes (v.toList.take 7) (byteClocks false ++ [.stop]) (natBits 8 v[7].toNat ++ [last])
  rw [seven, followTransaction_lastByte, List.nil_append, bits, tagOf_bytesBits] at followed
  rw [seven, drivenItems_lastByte] at driven
  rw [pollOutcome, busDriven, readTransaction_eq, levels]
  refine ⟨(followTransaction_sent _ _ _ _).trans followed, ?_⟩
  have addressed := drivenItems_sent (natBits 7 a ++ [true]) (.readerAck ::
    ((List.replicate 7 (byteClocks true)).flatten ++ (byteClocks false ++ [.stop]))) (false ::
    ((v.toList.take 7).flatMap byteLevels ++ (natBits 8 v[7].toNat ++ [last])))
  rw [drivenItems, addressed, drivenItems, if_neg Bool.false_ne_true, driven]
  simp

end Outcome

end Sys2Proof.Machine
end

section
/-! The statement on polls and their results. -/

namespace Sys2Proof.Proofs.Gate

open Sys2Proof Sys2Proof.Machine

/-- Settles O57: the poll timer by the bus, the transaction by the levels of SDA, and its end by its outcome. -/
theorem pollsAndTheirResults : Obligations.PollsAndTheirResults := by
  refine ⟨fun s g left hw hg ht => ?_, fun a => ⟨poll_noTag a, fun i rest h => poll_lost a h rest, poll_bytes a⟩,
    fun s g sda hw hg hp => ?_⟩
  · intro y
    have cfg : s.env.layout.gateCfg = g := gateCfg_some hg
    refine ⟨fun hp low => ?_, fun hp => ⟨fun hb => ?_, fun low hb => ?_, fun b => ?_⟩⟩
    · exact event_works hw rfl (by rw [pollTimer_underWay ht hp, cfg])
    · exact ⟨_, event_works hw rfl (pollTimer_begins ht hp hb), by rw [cfg]; rfl, by rw [cfg]⟩
    · exact event_works hw rfl (by rw [pollTimer_busy ht hp hb, cfg])
    · have gate : s.layout.gate.isSome = true := hg ▸ rfl
      exact congrArg Host.Outcome.next ((onYard_eq hw.1 _).trans (by rw [startStop_idle (e := s.env) gate hp]))
  · have cfg : s.env.layout.gateCfg = g := gateCfg_some hg
    refine ⟨fun ho => ?_, fun ho => ?_⟩
    · exact event_works hw rfl ((pollEnd_noTag hp (cfg.symm ▸ ho)).trans (by rw [pollOver, cfg]; rfl))
    · have gate := pollFailed_gate s.env (busTaken s.env sda s.yard)
      have notices := pollFailed_notices s.env (busTaken s.env sda s.yard)
      rw [cfg] at notices
      exact ⟨_, event_works hw rfl (pollEnd_lost hp (cfg.symm ▸ ho)), congrArg GateUnit.polling gate,
        congrArg GateUnit.busHeld gate, (congrArg GateUnit.busOut gate).trans (by rw [← cfg]; rfl),
        congrArg GateUnit.failCount gate, congrArg GateUnit.faultRaised gate, pollFailed_cnt s.env _, notices,
        congrArg (fun z : Yard => { s with yard := z }) (pollFailed_parts s.env (busTaken s.env sda s.yard))⟩

end Sys2Proof.Proofs.Gate
end

section
/-! SUPPORT. The row scan (R187, R188, R226): the row outputs, one reading of a contact, and what a row's reading leaves
in the contacts and hands to the point tracker. -/

namespace Sys2Proof.Machine

variable {n r k j : Nat} {cols : BitVec 8} {cs : List Contact} {c : Contact} {s : State}

/-- Out of reset a row output is low when its row is scanned. -/
theorem rowPins_low_iff (hs : s.inReset = false) (hr : r < 8) : s.rowPins.getLsbD r = false ↔ r = s.scan.row := by
  have high : s.rowPins.getLsbD r = (decide (r < s.scan.row) || !decide (r - s.scan.row = 0)) := by
    simp [State.rowPins, hs, hr]
  rw [high, Bool.or_eq_false_iff, decide_eq_false_iff_not, Bool.not_eq_false', decide_eq_true_iff]
  omega

/-! ## One contact -/

theorem read_contact (n : Nat) (b : Bool) (c : Contact) : (c.read n b).1 =
    if b = c.occupied then ⟨c.occupied, 0⟩
    else if n ≤ min 16 (c.run + 1) then ⟨b, 0⟩
    else ⟨c.occupied, min 16 (c.run + 1)⟩ := by
  unfold Contact.read
  split_ifs <;> rfl

/-- A contact changes, to its reading, when this differs and brings the run count to the debounce count. -/
theorem read_change_iff {b b' : Bool} :
    (c.read n b).2 = some b' ↔ (b ≠ c.occupied ∧ n ≤ min 16 (c.run + 1)) ∧ b' = b := by
  unfold Contact.read
  split_ifs with same reached
  · simp [same]
  · simp [same, reached, eq_comm]
  · simp [reached]

/-! ## One row -/

/-- What the scan of row r makes of the contact at a place: a contact of another row stays. -/
def readAt (n r : Nat) (cols : BitVec 8) (p : Contact × Nat) : Contact × Option Bool :=
  if p.2 / 8 = r then p.1.read n (!cols.getLsbD (p.2 % 8)) else (p.1, none)

/-- The reading of a row is that of each of its contacts. -/
theorem readRow_eq (n r : Nat) (cols : BitVec 8) (k : Nat) (cs : List Contact) : readRow n r cols k cs =
    ((cs.zipIdx k).map fun p => (readAt n r cols p).1,
      (cs.zipIdx k).filterMap fun p => (readAt n r cols p).2.map (p.2 % 8, ·)) := by
  induction cs generalizing k with
  | nil => rfl
  | cons c cs ih =>
    rw [readRow, ih, List.zipIdx_cons, List.map_cons, List.filterMap_cons]
    by_cases own : k / 8 = r
    · simp only [own, if_true, readAt]
      cases (c.read n (!cols.getLsbD (k % 8))).2 <;> rfl
    · simp only [own, if_false, readAt, Option.map_none]

theorem readRow_length : (readRow n r cols k cs).1.length = cs.length := by
  simp [readRow_eq]

theorem readRow_contact (h : cs[k]? = some c) :
    (readRow n r cols 0 cs).1[k]? = some (readAt n r cols (c, k)).1 := by
  simp [readRow_eq, h]

/-- The changes are those of the row's contacts, each with its column. -/
theorem mem_readRow_iff_read {b : Bool} : (j, b) ∈ (readRow n r cols 0 cs).2 ↔
    j < 8 ∧ ∃ c, cs[8 * r + j]? = some c ∧ (c.read n (!cols.getLsbD j)).2 = some b := by
  simp only [readRow_eq, List.mem_filterMap, List.mem_zipIdx_iff_getElem?, Option.map_eq_some_iff, Prod.mk.injEq,
    Prod.exists, readAt]
  constructor
  · rintro ⟨c, i, hc, b', hb, rfl, rfl⟩
    split at hb
    · rename_i own
      have place : 8 * r + i % 8 = i := by omega
      exact ⟨by omega, c, by rw [place, hc], hb⟩
    · cases hb
  · rintro ⟨hj, c, hc, hb⟩
    have row : (8 * r + j) / 8 = r := by omega
    have col : (8 * r + j) % 8 = j := by omega
    exact ⟨c, 8 * r + j, hc, b, by rw [if_pos row, col, hb], col, rfl⟩

/-- The changes stand in column order (log 38). -/
theorem readRow_changes_sorted : (readRow n r cols k cs).2.Pairwise (·.1 < ·.1) := by
  have places : (cs.zipIdx k).Pairwise (·.2 < ·.2) :=
    List.pairwise_map.1 (by rw [List.zipIdx_map_snd]; exact List.pairwise_lt_range')
  have own {p : Contact × Nat} {x : Nat × Bool} (h : (readAt n r cols p).2.map (p.2 % 8, ·) = some x) :
      p.2 / 8 = r ∧ p.2 % 8 = x.1 := by
    obtain ⟨b, hb, rfl⟩ := Option.map_eq_some_iff.1 h
    by_cases hp : p.2 / 8 = r
    · exact ⟨hp, rfl⟩
    · simp [readAt, hp] at hb
  rw [readRow_eq, List.pairwise_filterMap]
  refine places.imp fun lt x hx z hz => ?_
  obtain ⟨row, col⟩ := own hx
  obtain ⟨row', col'⟩ := own hz
  omega

/-- Contact j of row r reads as changed: its reading differs and the run count comes to the debounce count (R188). -/
def rowChanges (n r : Nat) (cols : BitVec 8) (cs : List Contact) (j : Nat) : Prop :=
  ∃ c, cs[8 * r + j]? = some c ∧ (!cols.getLsbD j) ≠ c.occupied ∧ n ≤ min 16 (c.run + 1)

theorem mem_readRow_iff_changes {b : Bool} : (j, b) ∈ (readRow n r cols 0 cs).2 ↔
    j < 8 ∧ rowChanges n r cols cs j ∧ b = !cols.getLsbD j := by
  simp only [mem_readRow_iff_read, read_change_iff, rowChanges, ← and_assoc, exists_and_right]

theorem readRow_changes_nil (h : ∀ j, j < 8 → ¬ rowChanges n r cols cs j) :
    (readRow n r cols 0 cs).2 = [] :=
  List.eq_nil_iff_forall_not_mem.2 fun _ hx =>
    have ⟨hj, changes, _⟩ := mem_readRow_iff_changes.1 hx
    h _ hj changes

theorem readRow_changes_single (hj : j < 8) (h : ∀ i, i < 8 → (rowChanges n r cols cs i ↔ i = j)) :
    (readRow n r cols 0 cs).2 = [(j, !cols.getLsbD j)] := by
  have nodup : (readRow n r cols 0 cs).2.Nodup :=
    readRow_changes_sorted.imp fun lt same => lt.ne (congrArg Prod.fst same)
  refine List.perm_singleton.1 ((List.perm_ext_iff_of_nodup nodup (List.nodup_singleton _)).2 fun ⟨i, b⟩ => ?_)
  rw [mem_readRow_iff_changes, List.mem_singleton, Prod.mk.injEq]
  constructor
  · rintro ⟨hi, changes, rfl⟩
    obtain rfl := (h i hi).1 changes
    exact ⟨rfl, rfl⟩
  · rintro ⟨rfl, rfl⟩
    exact ⟨hj, (h i hj).2 rfl, rfl⟩

/-! ## The end of a row period -/

/-- The scanner after a row period: the next row, and the contacts as read. -/
def State.scanned (s : State) (cols : BitVec 8) : Scanner :=
  ⟨(s.scan.row + 1) % 8, (readRow s.layout.params.debounce s.scan.row cols 0 s.scan.contacts).1⟩

/-- Out of reset a row period changes the scanner, and in the RUNNING phase the changes go to their points. -/
theorem rowScan_eq (cols : BitVec 8) (hs : s.inReset = false) : s.rowScan cols = { s with
    scan := s.scanned cols
    yard := if s.phase = .running then
        (readRow s.layout.params.debounce s.scan.row cols 0 s.scan.contacts).2.foldl
          (contactEvent s.env s.scan.row) s.yard
      else s.yard } := by
  simp only [State.rowScan, hs, Bool.false_eq_true, if_false]
  split <;> rfl

theorem rowScan_scan (cols : BitVec 8) (hs : s.inReset = false) : (s.rowScan cols).scan = s.scanned cols := by
  rw [rowScan_eq cols hs]

end Sys2Proof.Machine
end

section
/-! The statement on the row scan. -/

namespace Sys2Proof.Proofs.Tracker

open Sys2Proof Sys2Proof.Machine

/-- Settles O49: each contact by its reading, and the yard by the list of the row's changes. -/
theorem theRowScanDebouncesItsContacts : Obligations.TheRowScanDebouncesItsContacts := by
  intro s cols hs n reading changes
  have scan := rowScan_scan cols hs
  refine ⟨fun r => rowPins_low_iff hs, s.rowScan cols, rfl, ?_, fun k c hc => ?_, ?_, fun quiet => ?_,
    fun j hj running single => ?_⟩
  · rw [scan]
    rfl
  · rw [scan]
    refine (readRow_contact hc).trans (congrArg some ?_)
    by_cases own : k / 8 = s.scan.row
    · simp only [readAt, own, if_true, ne_eq, not_true_eq_false, if_false, read_contact]
      rfl
    · simp only [readAt, own, if_false, ne_eq, not_false_eq_true, if_true]
  · rw [scan]
    exact readRow_length
  · rw [scan, rowScan_eq cols hs]
    rcases quiet with idle | steady
    · rw [if_neg idle]
    · rw [readRow_changes_nil steady, List.foldl_nil, ite_self]
  · rw [scan, rowScan_eq cols hs, if_pos running, readRow_changes_single hj single]
    rfl

end Sys2Proof.Proofs.Tracker
end

section
/-! SUPPORT. The layout store (R212, R216): the ranges of a command's fields with their defaults, and what a layout
command leaves in the CONFIG phase. -/

namespace Sys2Proof.Machine

/-! ## Ranges and defaults (R212) -/

theorem within_iff {lo hi v : Nat} : within lo hi v = true ↔ lo ≤ v ∧ v ≤ hi := by simp [within]

@[simp] theorem optIn_none (p : Nat → Bool) : optIn p none = true := rfl
@[simp] theorem optIn_some (p : Nat → Bool) (v : Nat) : optIn p (some v) = p v := rfl

/-- An optional field is absent or in its range exactly if, with a default in the range, its value is. -/
theorem optIn_iff {p : Nat → Bool} (o : Option Nat) {d : Nat} (hd : p d = true) :
    optIn p o = true ↔ p (o.getD d) = true := by
  cases o with
  | none => simp [hd]
  | some v => rfl

theorem optIn_le_iff (o : Option Nat) (d : Nat) {hi : Nat} (high : d ≤ hi) :
    optIn (· ≤ hi) o = true ↔ o.getD d ≤ hi := by
  rw [optIn_iff o (decide_eq_true high), decide_eq_true_eq]

theorem optIn_within_iff (o : Option Nat) (d : Nat) {lo hi : Nat} (low : lo ≤ d) (high : d ≤ hi) :
    optIn (within lo hi) o = true ↔ lo ≤ o.getD d ∧ o.getD d ≤ hi := by
  rw [optIn_iff o (within_iff.2 ⟨low, high⟩), within_iff]

/-- A reserve is an amount of stock. -/
theorem optIn_maxStock_iff (o : Option Nat) : optIn (· ≤ Config.maxStock) o = true ↔ o.getD 0 ≤ 4294967295 :=
  optIn_le_iff o 0 (Nat.zero_le _)

/-- With all programmes as its default a set of programmes is empty only if it is given empty. -/
theorem enabled_ne_zero_iff (o : Option (BitVec 3)) : o ≠ some 0 ↔ o.getD 7#3 ≠ 0#3 := by
  cases o <;> simp

/-! ## A layout command in the CONFIG phase (R210, R212) -/

/-- The codes 1 to 10 are taken in the CONFIG phase: the command sends its block's reply. -/
theorem config_reply {s t : State} (h : s.ready) (hp : s.phase = .config) {code : Nat} (low : 1 ≤ code)
    (high : code ≤ 10) {i : Instr} {f : State → Reply} (hi : exec i s = .next (s.hostRow i code f))
    (hr : (f s).give code s = t) : exec i s = .next t := by
  have taken : takenIn code s.phase = true := by simp [hp, takenIn, low, high]
  rw [hi, hostRow_taken h taken, hr]

/-- An item whose fields pass the check goes into the store, and RANGE is answered where they do not. -/
theorem give_storeItem {α : Type} {check : Bool} {P : Prop} [Decidable P] (h : check = true ↔ P) (x : α)
    (put : α → Layout → Layout) (code : Nat) (s : State) :
    (storeItem (if check then some x else none) put s).give code s
      = if P then State.answer code .done [] { s with store := put x s.store } else s.answer code .range [] := by
  by_cases pass : P
  · rw [if_pos (h.2 pass), if_pos pass]
    rfl
  · rw [if_neg (mt h.1 pass), if_neg pass]
    rfl

end Sys2Proof.Machine
end

section
/-! The statements on the layout commands. -/

namespace Sys2Proof.Proofs.Layouts

open Sys2Proof Sys2Proof.Machine

/-- Settles O16: an item lacks a field that must be given, or its check is the ranges with the defaults filled in. -/
theorem laneItemsPumpsPointsAndParametersFillTheStore :
    Obligations.LaneItemsPumpsPointsAndParametersFillTheStore := by
  intro s h hp
  refine ⟨fun f => config_reply h hp (by decide) (by decide) rfl ?_,
    fun f => config_reply h hp (by decide) (by decide) rfl ?_,
    fun f => config_reply h hp (by decide) (by decide) rfl ?_,
    fun p v => config_reply h hp (by decide) (by decide) rfl (give_storeItem ?_ _ _ _ _)⟩
  · rcases f with ⟨_ | n, _ | d, _ | m, _ | a, bias⟩
    case some.some.some.some =>
      refine give_storeItem ?_ _ _ _ _
      simp [within_iff, optIn_le_iff bias 0, and_assoc]
    all_goals rfl
  · rcases f with ⟨_ | i, _ | fu, _ | p, _ | r, maxTurn⟩
    case some.some.some.some =>
      refine give_storeItem ?_ _ _ _ _
      simp [within_iff, optIn_within_iff maxTurn 60000, and_assoc]
    all_goals rfl
  · rcases f with ⟨_ | r, _ | c, _ | k, _ | i, dwell, repeats⟩
    case some.some.some.some =>
      refine give_storeItem ?_ _ _ _ _
      simp only [Bool.and_eq_true, decide_eq_true_eq, optIn_within_iff dwell 30, Nat.reduceLeDiff, and_assoc]
      cases k <;> rfl
    all_goals rfl
  · cases p <;> simp [Param.inRange, within_iff, or_assoc]

/-- Settles O17: as for the other items; the defaults of the fields that may be absent lie in their ranges. -/
theorem stationIslandWashAndGateFillTheStore : Obligations.StationIslandWashAndGateFillTheStore := by
  intro s h hp
  refine ⟨fun f => config_reply h hp (by decide) (by decide) rfl ?_,
    fun f => config_reply h hp (by decide) (by decide) rfl ?_,
    fun f => config_reply h hp (by decide) (by decide) rfl ?_,
    fun f => config_reply h hp (by decide) (by decide) rfl ?_⟩
  · rcases f with ⟨_ | n, _ | a, area2, _ | r, seekFuel, seekWash, seekBerth, seekExit⟩
    case some.some.some =>
      refine give_storeItem ?_ _ _ _ _
      cases area2 <;> simp [within_iff, optIn_le_iff seekFuel 0, optIn_le_iff seekWash 0, optIn_le_iff seekBerth 0,
        optIn_le_iff seekExit 0, and_assoc]
    all_goals rfl
  · rcases f with ⟨_ | c, _ | a, bias, reserveDiesel, reserveGas, horizon, minFill, levelStep, aging, callTimeout,
      maxSkips, noFlow⟩
    case some.some =>
      refine give_storeItem ?_ _ _ _ _
      simp [within_iff, optIn_maxStock_iff, optIn_le_iff bias 0, optIn_le_iff horizon 90,
        optIn_within_iff minFill 2000, optIn_within_iff levelStep 90, optIn_within_iff aging 20,
        optIn_within_iff callTimeout 3, optIn_within_iff maxSkips 2, optIn_within_iff noFlow 60, and_assoc]
    all_goals rfl
  · rcases f with ⟨_ | i, _ | a, bias, enabled, nomRinse, nomStandard, nomFull, alpha, margin, startTimeout,
      callTimeout, maxSkips, _ | d⟩
    case some.some.some =>
      refine give_storeItem ?_ _ _ _ _
      simp only [Bool.and_eq_true, decide_eq_true_eq, within_iff, enabled_ne_zero_iff, optIn_le_iff bias 0,
        optIn_within_iff nomRinse 4, optIn_within_iff nomStandard 9, optIn_within_iff nomFull 14,
        optIn_within_iff alpha 8, optIn_le_iff margin 10, optIn_within_iff startTimeout 10,
        optIn_within_iff callTimeout 3, optIn_within_iff maxSkips 2, Nat.zero_le, Nat.reduceLeDiff]
      tauto
    all_goals rfl
  · rcases f with ⟨_ | r, poll, window, refuel, defaultMin, callLead, grace⟩
    case some =>
      refine give_storeItem ?_ _ _ _ _
      simp [within_iff, optIn_within_iff poll 250, optIn_within_iff window 15, optIn_within_iff refuel 90,
        optIn_le_iff defaultMin 60, optIn_within_iff callLead 15, optIn_le_iff grace 10, and_assoc]
    all_goals rfl

end Sys2Proof.Proofs.Layouts
end

section
/-! SUPPORT. LOCK (R214, R215): the first check that fails, and what each of the ten checks asks of the store. -/

namespace Sys2Proof.Machine

variable {l : Layout}

/-! ## The first check that fails (R214) -/

theorem firstFailed_eq (l : Layout) : l.firstFailed = (List.range' 1 10).find? fun k => !l.check k := rfl

theorem firstFailed_eq_some {k : Nat} (low : 1 ≤ k) (high : k ≤ 10) (fails : l.check k = false)
    (before : ∀ j, 1 ≤ j → j < k → l.check j = true) : l.firstFailed = some k := by
  rw [firstFailed_eq, List.find?_range'_eq_some]
  exact ⟨by simp [fails], List.mem_range'_1.2 ⟨low, by omega⟩, fun j hj hk => by simp [before j hj hk]⟩

theorem firstFailed_eq_none (pass : ∀ k, 1 ≤ k → k ≤ 10 → l.check k = true) : l.firstFailed = none := by
  rw [firstFailed_eq, List.find?_range'_eq_none]
  exact fun k low high => by simp [pass k low (by omega)]

theorem checkReason_eq {k : Nat} (high : k ≤ 10) : checkReason k = if k ≤ 8 then .conflict else .range := by
  have late : k = 9 ∨ k = 10 ↔ ¬ k ≤ 8 := by omega
  rw [checkReason, if_congr late rfl rfl, ite_not]

/-! ## The mapped points, the resources and the areas -/

theorem mapped_iff {k : PointKind} {i : Nat} : l.mapped k i = true ↔ ∃ p ∈ l.points, p.kind = k ∧ p.index = i := by
  simp [Layout.mapped]

theorem hasArea_iff {a : Nat} :
    l.hasArea a = true ↔ ∃ c, l.station = some c ∧ (a = c.area1 ∨ some a = c.area2) := by
  unfold Layout.hasArea
  cases l.station <;> simp

/-- The resource that a point of each kind names is laid out (check 2). -/
theorem owns_iff {p : PointCfg} : l.owns p = true ↔
    ((p.kind = .laneIn ∨ p.kind = .laneOut) → ∃ x ∈ l.lanes, x.number = p.index)
    ∧ (p.kind = .bay → ∃ x ∈ l.pumps, x.index = p.index)
    ∧ ((p.kind = .washIn ∨ p.kind = .washOut) → ∃ x ∈ l.washes, x.index = p.index)
    ∧ (p.kind = .apronIn → ∃ c, l.island = some c)
    ∧ ((p.kind = .gateIn ∨ p.kind = .gateOut) → ∃ c, l.gate = some c) := by
  unfold Layout.owns
  cases p.kind <;> simp [Option.isSome_iff_exists]

end Sys2Proof.Machine
end

section
/-! The statements on LOCK. -/

namespace Sys2Proof.Proofs.Layouts

open Sys2Proof Sys2Proof.Machine

/-- Settles O18: no check fails, and the blocks take the layout up. -/
theorem lockFixesTheLayout : Obligations.LockFixesTheLayout := by
  intro s h hp pass
  refine config_reply h hp (by decide) (by decide) rfl ?_
  simp only [cmdLock, firstFailed_eq_none pass]
  rfl

/-- Settles O19: the search for a failing check ends at the first; then each check by the lists it goes through. -/
theorem lockNamesTheFirstFailedOfTenChecks : Obligations.LockNamesTheFirstFailedOfTenChecks := by
  refine ⟨fun s k h hp low high fails before => config_reply h hp (by decide) (by decide) rfl ?_, fun l =>
    ⟨Option.isSome_iff_exists, ?_, ?_, ?_, ?_, ?_, ?_, ?_, ?_, ?_⟩⟩
  · simp only [cmdLock, firstFailed_eq_some low high fails before, checkReason_eq high]
    rfl
  · simp only [Layout.check, List.all_eq_true, owns_iff]
  · simp only [Layout.check, decide_eq_true_eq, List.Nodup, List.pairwise_map, ne_eq, Prod.mk.injEq]
  · simp only [Layout.check, List.all_eq_true, Bool.and_eq_true, mapped_iff]
  · cases hi : l.island <;> simp [Layout.check, mapped_iff, hi, imp_iff_not_or]
  · simp only [Layout.check, List.all_eq_true, Bool.and_eq_true, mapped_iff]
  · cases hg : l.gate <;> simp [Layout.check, mapped_iff, hg]
  · cases hi : l.island <;> simp [Layout.check, hasArea_iff, hi, and_assoc]
  · simp [Layout.check]
  · simp [Layout.check]

end Sys2Proof.Proofs.Layouts
end

section
/-! SUPPORT. The fields of a command record (R207): what the readers of numbers, codes, masks and optional fields get
back from the bytes that were sent, and each command's fields from its record. -/

namespace Sys2Proof.Machine

variable {α β : Type}

/-- A reader takes a value from the bytes that stand for it, whatever follows them. -/
abbrev Reads (r : Reader α) (bytes : List Byte) (x : α) : Prop := ∀ rest, r (bytes ++ rest) = some (x, rest)

/-! ## Numbers, codes, masks, optional fields -/

/-- Of a number the low n bytes are sent. -/
theorem readNum_bytesOf (n v : Nat) (rest : List Byte) :
    readNum n (bytesOf n v ++ rest) = some (v % 256 ^ n, rest) := by
  induction n with
  | zero => simp [readNum, bytesOf, Nat.mod_one]
  | succ n ih =>
    have digit : v / 256 ^ n % 256 * 256 ^ n + v % 256 ^ n = v % 256 ^ (n + 1) := by
      rw [Nat.pow_succ, Nat.mod_mul, Nat.mul_comm, Nat.add_comm]
    have shift : v >>> (8 * n) = v / 256 ^ n := by rw [Nat.shiftRight_eq_div_pow, Nat.pow_mul]
    simp [readNum, bytesOf, ih, shift, digit]

theorem reads_num {n v : Nat} (h : v < 256 ^ n) : Reads (readNum n) (bytesOf n v) v := fun rest => by
  rw [readNum_bytesOf, Nat.mod_eq_of_lt h]

theorem reads_code {table : Nat → Option α} {c : Nat} {x : α} (hc : c < 256) (hx : table c = some x) :
    Reads (readCode table) (bytesOf 1 c) x := fun rest => by
  rw [readCode, reads_num hc]
  simp [hx]

theorem reads_mask {w : Nat} (hw : w ≤ 8) (m : BitVec w) : Reads (readMask w) (bytesOf 1 m.toNat) m := fun rest => by
  have small : m.toNat < 256 ^ 1 := Nat.lt_of_lt_of_le m.isLt (Nat.pow_le_pow_right (by decide) hw)
  rw [readMask, reads_num small]
  simp [m.isLt]

theorem reads_some {r : Reader α} {bytes : List Byte} {x : α} (h : Reads r bytes x) :
    Reads (readSome r) bytes (some x) := fun rest => by
  rw [readSome, h]
  rfl

theorem reads_opt {r : Reader α} {enc : α → List Byte} {o : Option α} (h : ∀ x ∈ o, Reads r (enc x) x) :
    Reads (readOpt r) (encOpt enc o) o := fun rest => by
  cases o with
  | none => rfl
  | some x =>
    have present : Reads (readNum 1) (b1 1) 1 := reads_num (by decide)
    rw [readOpt, encOpt, List.append_assoc, present]
    simp [h x rfl rest]

theorem reads_optNum {n : Nat} {o : Option Nat} (h : fits n o = true) :
    Reads (readOpt (readNum n)) (encOpt (bytesOf n) o) o :=
  reads_opt fun x hx => reads_num (by simpa [fits, Option.mem_def.1 hx] using h)

/-- A number that must be given. -/
theorem reads_someNum {n v : Nat} (h : fits n (some v) = true) :
    Reads (readSome (readNum n)) (bytesOf n v) (some v) :=
  reads_some (reads_num (by simpa [fits] using h))

/-! ## Enumerations (R207, log 11) -/

theorem lineRateOf_code (r : LineRate) : lineRateOf r.code = some r := by cases r <;> rfl
theorem pointKindOf_code (k : PointKind) : pointKindOf k.code = some k := by cases k <;> rfl
theorem paramOf_code (p : Param) : paramOf p.code = some p := by cases p <;> rfl

theorem reads_fuel (f : Fuel) : Reads (readCode fuelOf) (bytesOf 1 f.code) f :=
  reads_code (by cases f <;> decide) (fuelOf_code f)

theorem reads_prog (p : Prog) : Reads (readCode progOf) (bytesOf 1 p.code) p :=
  reads_code (by cases p <;> decide) (progOf_code p)

theorem reads_lineRate (r : LineRate) : Reads (readCode lineRateOf) (bytesOf 1 r.code) r :=
  reads_code (by cases r <;> decide) (lineRateOf_code r)

theorem pointKind_code_lt (k : PointKind) : k.code < 256 := by cases k <;> decide

theorem reads_pointKind (k : PointKind) : Reads (readCode pointKindOf) (bytesOf 1 k.code) k :=
  reads_code (pointKind_code_lt k) (pointKindOf_code k)

theorem reads_param (p : Param) : Reads (readCode paramOf) (bytesOf 1 p.code) p :=
  reads_code (by cases p <;> decide) (paramOf_code p)

theorem reads_yesNo (b : Bool) : Reads (readCode yesNoOf) (encYesNo b) b :=
  reads_code (by cases b <;> decide) (by cases b <;> rfl)

/-! ## The fields of each command (R207, log 10) -/

theorem b1_eq : b1 = bytesOf 1 := rfl
theorem b2_eq : b2 = bytesOf 2 := rfl
theorem b4_eq : b4 = bytesOf 4 := rfl

/-- A reader at the head of a command's fields hands on its value and the bytes behind it. -/
theorem bind_reads {r : Reader α} {bytes rest : List Byte} {x : α} {k : α × List Byte → Option β} {y : Option β}
    (h : Reads r bytes x) (hk : k (x, rest) = y) : (r (bytes ++ rest) >>= k) = y := by
  rw [h rest, ← hk]
  rfl

theorem reads_station {f : StationFields} (wf : StationFields.wf f = true) {bytes : List Byte}
    (h : stationBytes f = some bytes) : Reads fStation bytes f := by
  rcases f with ⟨_ | n, _ | a, area2, _ | r, seekFuel, seekWash, seekBerth, seekExit⟩
  case some.some.some =>
    simp only [StationFields.wf, Bool.and_eq_true, and_assoc] at wf
    obtain ⟨wn, wa, wa2, wfu, ww, wb, we⟩ := wf
    cases h
    intro rest
    simp only [b1_eq, List.append_assoc]
    exact bind_reads (reads_someNum wn) <| bind_reads (reads_someNum wa) <| bind_reads (reads_optNum wa2) <|
      bind_reads (reads_some (reads_lineRate r)) <| bind_reads (reads_optNum wfu) <| bind_reads (reads_optNum ww) <|
      bind_reads (reads_optNum wb) <| bind_reads (reads_optNum we) rfl
  all_goals cases h

theorem reads_lane {f : LaneFields} (wf : LaneFields.wf f = true) {bytes : List Byte}
    (h : laneBytes f = some bytes) : Reads fLane bytes f := by
  rcases f with ⟨_ | n, _ | d, _ | m, _ | a, bias⟩
  case some.some.some.some =>
    simp only [LaneFields.wf, Bool.and_eq_true, and_assoc] at wf
    obtain ⟨wn, wd, wa, wb⟩ := wf
    cases h
    intro rest
    simp only [b1_eq, List.append_assoc]
    exact bind_reads (reads_someNum wn) <| bind_reads (reads_someNum wd) <|
      bind_reads (reads_some (reads_mask (Nat.le_refl 8) m)) <| bind_reads (reads_someNum wa) <|
      bind_reads (reads_optNum wb) rfl
  all_goals cases h

theorem reads_pump {f : PumpFields} (wf : PumpFields.wf f = true) {bytes : List Byte}
    (h : pumpBytes f = some bytes) : Reads fPump bytes f := by
  rcases f with ⟨_ | i, _ | fu, _ | p, _ | r, maxTurn⟩
  case some.some.some.some =>
    simp only [PumpFields.wf, Bool.and_eq_true, and_assoc] at wf
    obtain ⟨wi, wp, wr, wm⟩ := wf
    cases h
    intro rest
    simp only [b1_eq, b2_eq, List.append_assoc]
    exact bind_reads (reads_someNum wi) <| bind_reads (reads_some (reads_fuel fu)) <|
      bind_reads (reads_someNum wp) <| bind_reads (reads_someNum wr) <| bind_reads (reads_optNum wm) rfl
  all_goals cases h

theorem reads_island {f : IslandFields} (wf : IslandFields.wf f = true) {bytes : List Byte}
    (h : islandBytes f = some bytes) : Reads fIsland bytes f := by
  rcases f with ⟨_ | c, _ | a, bias, reserveDiesel, reserveGas, horizon, minFill, levelStep, aging, callTimeout,
    maxSkips, noFlow⟩
  case some.some =>
    simp only [IslandFields.wf, Bool.and_eq_true, and_assoc] at wf
    obtain ⟨wc, wa, wb, wd, wg, wh, wm, wl, wag, wct, wms, wn⟩ := wf
    cases h
    intro rest
    simp only [b1_eq, b2_eq, b4_eq, List.append_assoc]
    exact bind_reads (reads_someNum wc) <| bind_reads (reads_someNum wa) <| bind_reads (reads_optNum wb) <|
      bind_reads (reads_optNum wd) <| bind_reads (reads_optNum wg) <| bind_reads (reads_optNum wh) <|
      bind_reads (reads_optNum wm) <| bind_reads (reads_optNum wl) <| bind_reads (reads_optNum wag) <|
      bind_reads (reads_optNum wct) <| bind_reads (reads_optNum wms) <| bind_reads (reads_optNum wn) rfl
  all_goals cases h

theorem reads_wash {f : WashFields} (wf : WashFields.wf f = true) {bytes : List Byte}
    (h : washBytes f = some bytes) : Reads fWash bytes f := by
  rcases f with ⟨_ | i, _ | a, bias, enabled, nomRinse, nomStandard, nomFull, alpha, margin, startTimeout,
    callTimeout, maxSkips, _ | d⟩
  case some.some.some =>
    have programmes := reads_opt (o := enabled) fun m _ => reads_mask (w := 3) (by decide) m
    simp only [WashFields.wf, Bool.and_eq_true, and_assoc] at wf
    obtain ⟨wi, wa, wb, wr, ws, wfu, wal, wm, wst, wct, wms, wd⟩ := wf
    cases h
    intro rest
    simp only [b1_eq, List.append_assoc]
    exact bind_reads (reads_someNum wi) <| bind_reads (reads_someNum wa) <| bind_reads (reads_optNum wb) <|
      bind_reads programmes <| bind_reads (reads_optNum wr) <| bind_reads (reads_optNum ws) <|
      bind_reads (reads_optNum wfu) <| bind_reads (reads_optNum wal) <| bind_reads (reads_optNum wm) <|
      bind_reads (reads_optNum wst) <| bind_reads (reads_optNum wct) <| bind_reads (reads_optNum wms) <|
      bind_reads (reads_someNum wd) rfl
  all_goals cases h

theorem reads_gate {f : GateFields} (wf : GateFields.wf f = true) {bytes : List Byte}
    (h : gateBytes f = some bytes) : Reads fGate bytes f := by
  rcases f with ⟨_ | r, poll, window, refuel, defaultMin, callLead, grace⟩
  case some =>
    simp only [GateFields.wf, Bool.and_eq_true, and_assoc] at wf
    obtain ⟨wr, wp, ww, wre, wd, wc, wg⟩ := wf
    cases h
    intro rest
    simp only [b1_eq, b2_eq, List.append_assoc]
    exact bind_reads (reads_someNum wr) <| bind_reads (reads_optNum wp) <| bind_reads (reads_optNum ww) <|
      bind_reads (reads_optNum wre) <| bind_reads (reads_optNum wd) <| bind_reads (reads_optNum wc) <|
      bind_reads (reads_optNum wg) rfl
  all_goals cases h

theorem reads_point {f : PointFields} (wf : PointFields.wf f = true) {bytes : List Byte}
    (h : pointBytes f = some bytes) : Reads fPoint bytes f := by
  rcases f with ⟨_ | r, _ | c, _ | k, _ | i, dwell, repeats⟩
  case some.some.some.some =>
    have mark := reads_opt (o := repeats) fun b _ => reads_yesNo b
    simp only [PointFields.wf, Bool.and_eq_true, and_assoc] at wf
    obtain ⟨wr, wc, wi, wd⟩ := wf
    cases h
    intro rest
    simp only [b1_eq, b2_eq, List.append_assoc]
    exact bind_reads (reads_someNum wr) <| bind_reads (reads_someNum wc) <|
      bind_reads (reads_some (reads_pointKind k)) <| bind_reads (reads_someNum wi) <| bind_reads (reads_optNum wd) <|
      bind_reads mark rfl
  all_goals cases h

/-- A parameter's value has the bytes of its range (log 56). -/
theorem reads_parameter {p : Param} {v : Nat} (wf : paramWf p v = true) :
    Reads fParam (b1 p.code ++ bytesOf (paramWidth p) v) (p, v) := by
  have value : v < 256 ^ paramWidth p := by cases p <;> simpa [paramWf, paramWidth] using wf
  intro rest
  simp only [b1_eq, List.append_assoc]
  exact bind_reads (reads_param p) <| bind_reads (reads_num value) rfl

theorem reads_b1 {v : Nat} (h : v < 256) : Reads (readNum 1) (b1 v) v := reads_num h
theorem reads_b2 {v : Nat} (h : v < 65536) : Reads (readNum 2) (b2 v) v := reads_num h
theorem reads_b4 {v : Nat} (h : v < 4294967296) : Reads (readNum 4) (b4 v) v := reads_num h

theorem reads_clock {minute seconds : Nat} (wf : (Instr.setClock minute seconds).wf = true) :
    Reads fClock (b2 minute ++ b1 seconds) (minute, seconds) := by
  obtain ⟨hm, hs⟩ : minute < 65536 ∧ seconds < 256 := by simpa [Instr.wf] using wf
  intro rest
  rw [List.append_assoc]
  exact bind_reads (reads_b2 hm) <| bind_reads (reads_b1 hs) rfl

theorem reads_bus {b : BusFields} (wf : BusFields.wf b = true) : Reads fBus (busBytes b) b := by
  simp only [BusFields.wf, Bool.and_eq_true, decide_eq_true_eq, and_assoc] at wf
  obtain ⟨fleet, cls, capacity, level⟩ := wf
  intro rest
  simp only [busBytes, List.append_assoc]
  exact bind_reads (reads_b2 fleet) <| bind_reads (reads_b1 cls) <| bind_reads (reads_fuel b.fuel) <|
    bind_reads (reads_b2 capacity) <| bind_reads (reads_b1 level) <| bind_reads (reads_prog b.wash) rfl

theorem reads_parked {lane : Nat} {b : BusFields} (wf : (Instr.placeParked lane b).wf = true) :
    Reads fParked (b1 lane ++ busBytes b) (lane, b) := by
  obtain ⟨hl, hb⟩ : lane < 256 ∧ BusFields.wf b = true := by simpa [Instr.wf] using wf
  intro rest
  rw [List.append_assoc]
  exact bind_reads (reads_b1 hl) <| bind_reads (reads_bus hb) rfl

theorem reads_stock (f : Fuel) {v : Nat} (hv : v < 4294967296) : Reads fStock (b1 f.code ++ b4 v) (f, v) := by
  intro rest
  rw [List.append_assoc]
  exact bind_reads (reads_fuel f) <| bind_reads (reads_b4 hv) rfl

theorem reads_duty {f : DutyFields} (wf : DutyFields.wf f = true) : Reads fDuty (dutyBytes f) f := by
  simp only [DutyFields.wf, Bool.and_eq_true, decide_eq_true_eq, and_assoc] at wf
  obtain ⟨number, release, minLevel, fleet⟩ := wf
  intro rest
  simp only [dutyBytes, List.append_assoc]
  exact bind_reads (reads_b2 number) <| bind_reads (reads_b2 release) <|
    bind_reads (reads_mask (Nat.le_refl 8) f.mask) <| bind_reads (reads_fuel f.fuel) <|
    bind_reads (reads_optNum minLevel) <| bind_reads (reads_optNum fleet) rfl

theorem reads_clear (f : ClearFields) : Reads fClear (clearBytes f) f := by
  intro rest
  simp only [clearBytes, List.append_assoc]
  exact bind_reads (reads_mask (by decide) f.flags) <| bind_reads (reads_yesNo f.line) <|
    bind_reads (reads_yesNo f.station) <| bind_reads (reads_yesNo f.cost) <| bind_reads (reads_yesNo f.lost) rfl

end Sys2Proof.Machine
end

section
/-! SUPPORT. Host commands as records (R207 to R210): what block a command's row reaches, that its record reaches the
same block with the same operands, and how a record is carried out or waits. -/

namespace Sys2Proof.Machine

/-! ## Fields read whole (R209) -/

theorem withFields_of_reads {α : Type} {r : Reader α} {bytes : List Byte} {x : α} (h : Reads r bytes x)
    (f : α → State → Reply) (s : State) : withFields r bytes f s = f x s := by
  have whole : r bytes = some (x, []) := by simpa using h []
  rw [withFields, readAll, whole]

section Resolve

variable {fleet : Nat} (h : fleet < 65536) (s : State)

include h

theorem b2_eq_pair : ∃ a b : Byte, b2 fleet = [a, b] ∧ a.toNat * 256 + b.toNat = fleet :=
  ⟨_, _, rfl, by simp [Nat.shiftRight_eq_div_pow]; omega⟩

theorem resolveFields_atPoint (k : PointKind) {index : Nat} (hi : index < 256) :
    resolveFields (b2 fleet ++ b1 0 ++ b1 k.code ++ b1 index) s = cmdResolveAtPoint fleet k index s := by
  obtain ⟨a, b, bytes, value⟩ := b2_eq_pair h
  rw [bytes]
  simp [resolveFields, b1, bytesOf, value, Nat.mod_eq_of_lt hi, Nat.mod_eq_of_lt (pointKind_code_lt k),
    pointKindOf_code]

theorem resolveFields_reseek : resolveFields (b2 fleet ++ b1 1) s = cmdResolveReseek fleet s := by
  obtain ⟨a, b, bytes, value⟩ := b2_eq_pair h
  rw [bytes, ← value]
  rfl

theorem resolveFields_leftYard : resolveFields (b2 fleet ++ b1 2) s = cmdResolveLeftYard fleet s := by
  obtain ⟨a, b, bytes, value⟩ := b2_eq_pair h
  rw [bytes, ← value]
  rfl

end Resolve

/-! ## The block of a host command (R210) -/

/-- A host command's row sends the reply of a block under the command's code, and its record, when it is well formed,
is read as the same request to that block. -/
structure Reaches (i : Instr) (code : Nat) (fields : List Byte) (f : State → Reply) : Prop where
  low : 1 ≤ code := by decide
  high : code ≤ 26 := by decide
  row : ∀ s, exec i s = .next (s.hostRow i code f) := by exact fun _ => rfl
  record : i.wf = true → ∀ s, commandOf code fields s = f s := by exact fun _ _ => rfl

/-- A record whose fields are read whole reaches its block. -/
theorem Reaches.of_reads {α : Type} {i : Instr} {code : Nat} {fields bytes : List Byte} {r : Reader α} {x : α}
    (f : α → State → Reply) (reads : i.wf = true → Reads r bytes x) (low : 1 ≤ code := by decide)
    (high : code ≤ 26 := by decide) (row : ∀ s, exec i s = .next (s.hostRow i code (f x)) := by exact fun _ => rfl)
    (read : commandOf code fields = withFields r bytes f := by exact rfl) : Reaches i code fields (f x) where
  low := low
  high := high
  row := row
  record wf s := (congrFun read s).trans (withFields_of_reads (reads wf) f s)

/-- Every host command has its block. -/
theorem reaches_of_hostFields {i : Instr} {code : Nat} {fields : List Byte}
    (h : i.hostFields = some (code, fields)) : ∃ f, Reaches i code fields f := by
  cases i with
  | setStation f =>
    obtain ⟨bytes, sent, ⟨⟩⟩ := Option.map_eq_some_iff.1 h
    exact ⟨_, .of_reads cmdSetStation fun wf => reads_station wf sent⟩
  | addLane f =>
    obtain ⟨bytes, sent, ⟨⟩⟩ := Option.map_eq_some_iff.1 h
    exact ⟨_, .of_reads cmdAddLane fun wf => reads_lane wf sent⟩
  | addPump f =>
    obtain ⟨bytes, sent, ⟨⟩⟩ := Option.map_eq_some_iff.1 h
    exact ⟨_, .of_reads cmdAddPump fun wf => reads_pump wf sent⟩
  | setIsland f =>
    obtain ⟨bytes, sent, ⟨⟩⟩ := Option.map_eq_some_iff.1 h
    exact ⟨_, .of_reads cmdSetIsland fun wf => reads_island wf sent⟩
  | addWash f =>
    obtain ⟨bytes, sent, ⟨⟩⟩ := Option.map_eq_some_iff.1 h
    exact ⟨_, .of_reads cmdAddWash fun wf => reads_wash wf sent⟩
  | setGate f =>
    obtain ⟨bytes, sent, ⟨⟩⟩ := Option.map_eq_some_iff.1 h
    exact ⟨_, .of_reads cmdSetGate fun wf => reads_gate wf sent⟩
  | mapPoint f =>
    obtain ⟨bytes, sent, ⟨⟩⟩ := Option.map_eq_some_iff.1 h
    exact ⟨_, .of_reads cmdMapPoint fun wf => reads_point wf sent⟩
  | setParameter p v => cases h; exact ⟨_, .of_reads (fun x => cmdSetParameter x.1 x.2) reads_parameter⟩
  | lock => cases h; exact ⟨cmdLock, {}⟩
  | setClock minute seconds => cases h; exact ⟨_, .of_reads (fun x => cmdSetClock x.1 x.2) reads_clock⟩
  | placeParked lane bus => cases h; exact ⟨_, .of_reads (fun x => cmdPlaceParked x.1 x.2) reads_parked⟩
  | setStock fuel v =>
    cases h
    exact ⟨_, .of_reads (fun x => cmdSetStock x.1 x.2) fun wf => reads_stock fuel (of_decide_eq_true wf)⟩
  | loadDuty f => cases h; exact ⟨_, .of_reads cmdLoadDuty reads_duty⟩
  | start => cases h; exact ⟨cmdStart, {}⟩
  | dropDuty n => cases h; exact ⟨_, .of_reads cmdDropDuty fun wf => reads_b2 (of_decide_eq_true wf)⟩
  | delivery fuel v =>
    cases h
    exact ⟨_, .of_reads (fun x => cmdDelivery x.1 x.2) fun wf => reads_stock fuel (of_decide_eq_true wf)⟩
  | closeLane lane => cases h; exact ⟨_, .of_reads cmdCloseLane fun wf => reads_b1 (of_decide_eq_true wf)⟩
  | openLane lane => cases h; exact ⟨_, .of_reads cmdOpenLane fun wf => reads_b1 (of_decide_eq_true wf)⟩
  | reopenPump pump => cases h; exact ⟨_, .of_reads cmdReopenPump fun wf => reads_b1 (of_decide_eq_true wf)⟩
  | reopenWash wash => cases h; exact ⟨_, .of_reads cmdReopenWash fun wf => reads_b1 (of_decide_eq_true wf)⟩
  | admitBus bus => cases h; exact ⟨_, .of_reads cmdAdmit reads_bus⟩
  | resolveAtPoint fleet k index =>
    cases h
    refine ⟨cmdResolveAtPoint fleet k index, { record := fun wf s => ?_ }⟩
    obtain ⟨hf, hi⟩ : fleet < 65536 ∧ index < 256 := by simpa [Instr.wf] using wf
    exact resolveFields_atPoint hf s k hi
  | resolveReseek fleet =>
    cases h
    exact ⟨cmdResolveReseek fleet, { record := fun wf => resolveFields_reseek (of_decide_eq_true wf) }⟩
  | resolveLeftYard fleet =>
    cases h
    exact ⟨cmdResolveLeftYard fleet, { record := fun wf => resolveFields_leftYard (of_decide_eq_true wf) }⟩
  | readRecord fleet => cases h; exact ⟨_, .of_reads cmdReadRecord fun wf => reads_b2 (of_decide_eq_true wf)⟩
  | readLane lane => cases h; exact ⟨_, .of_reads cmdReadLane fun wf => reads_b1 (of_decide_eq_true wf)⟩
  | readApron => cases h; exact ⟨cmdReadApron, {}⟩
  | readWashQueue wash => cases h; exact ⟨_, .of_reads cmdReadWashQueue fun wf => reads_b1 (of_decide_eq_true wf)⟩
  | readDuty duty => cases h; exact ⟨_, .of_reads cmdReadDuty fun wf => reads_b2 (of_decide_eq_true wf)⟩
  | readDuties => cases h; exact ⟨cmdReadDuties, {}⟩
  | readSeekTable => cases h; exact ⟨cmdReadSeekTable, {}⟩
  | readCounters => cases h; exact ⟨cmdReadCounters, {}⟩
  | readLineSummary => cases h; exact ⟨cmdReadLineSummary, {}⟩
  | readStatus => cases h; exact ⟨cmdReadStatus, {}⟩
  | clearFlags f => cases h; exact ⟨_, .of_reads cmdClearFlags fun _ => reads_clear f⟩
  | takeNotice => cases h; exact ⟨cmdTakeNotice, {}⟩
  | reset => cases h; exact ⟨cmdReset, {}⟩
  | _ => cases h

/-! ## A record carried out, or waiting (R207 to R209) -/

/-- A waiting row of a well-formed command is that command's record. -/
theorem rowRecord_eq {i : Instr} {code : Nat} {fields : List Byte} (wf : i.wf = true)
    (h : i.hostFields = some (code, fields)) : rowRecord i code = hostRecord code fields := by
  simp only [rowRecord, h, wf, if_true]

theorem carryOut_hostRecord {code : Nat} (low : 1 ≤ code) (high : code ≤ 26) (fields : List Byte) (s : State) :
    s.carryOut (hostRecord code fields)
      = if s.answering then s.wait (hostRecord code fields) else s.command code (commandOf code fields) := by
  obtain ⟨check, behind⟩ : ∃ check, (hostRecord code fields).drop 3 = BitVec.ofNat 8 code :: (fields ++ [check]) :=
    ⟨_, rfl⟩
  have value : (BitVec.ofNat 8 code).toNat = code := Nat.mod_eq_of_lt (by omega)
  simp only [State.carryOut, behind, value, within_iff.2 ⟨low, high⟩, if_true, List.dropLast_concat]

/-- A command depends on its block's reply at the state alone. -/
theorem command_congr {f g : State → Reply} {s : State} (h : f s = g s) (code : Nat) :
    s.command code f = s.command code g := by
  simp only [State.command, h]

/-- What a command at a ready station leaves is one answer with the command's code, behind DONE or alone. -/
theorem command_answers {s : State} (h : s.ready) (code : Nat) (f : State → Reply) :
    ∃ t r data, s.command code f = State.answer code r data t ∧ (r ≠ .done → t = s) := by
  cases taken : takenIn code s.phase with
  | false => exact ⟨s, .phase, [], command_phase h taken f, fun _ => rfl⟩
  | true =>
    rw [command_taken h taken]
    cases f s with
    | done t data => exact ⟨t, .done, data, rfl, fun hr => absurd rfl hr⟩
    | refused r data => exact ⟨s, r, data, rfl, fun _ => rfl⟩

/-! ## Bytes between two records (R208) -/

section Receive

variable {h : HostLink} (idle : h.inProgress = none)

include idle

theorem receive_skipped {b : Byte} {fault : Bool} (skipped : fault = true ∨ b ≠ 0xC3#8) :
    h.receive b fault = (h, none) := by
  have skip : (fault || b != 0xC3#8) = true := by simpa using skipped
  simp only [HostLink.receive, idle, skip, if_true]

theorem receive_start (room : h.used < 256) :
    h.receive 0xC3#8 false = ({ h with inProgress := some [0xC3#8], gapMs := 0 }, none) := by
  have fits : ¬ Config.rxBufCap ≤ h.used := Nat.not_le.2 room
  simp [HostLink.receive, idle, fits, HostLink.join, recordLength]

end Receive

end Sys2Proof.Machine
end

section
/-! The statements on the host link. -/

namespace Sys2Proof.Proofs.HostLinks

open Sys2Proof Sys2Proof.Machine

/-- Settles O11: row and record reach the same block with the same operands, or wait as the same bytes. -/
theorem hostRecordIsReadBackAsItsCommand : Obligations.HostRecordIsReadBackAsItsCommand := by
  intro i code fields s wf hf
  obtain ⟨f, block⟩ := reaches_of_hostFields hf
  rw [block.row, carryOut_hostRecord block.low block.high, State.hostRow, rowRecord_eq wf hf,
    command_congr (block.record wf s)]

/-- Settles O13: the row of a command at a ready station is its block's reply, or the refusal of the phase. -/
theorem everyCommandIsAnsweredAndRefusalsChangeNothing :
    Obligations.EveryCommandIsAnsweredAndRefusalsChangeNothing := by
  intro i code fields s hf h
  obtain ⟨f, block⟩ := reaches_of_hostFields hf
  obtain ⟨t, r, data, answered, refused⟩ := command_answers h code f
  refine ⟨_, r, data, block.row s, ?_⟩
  rw [hostRow_ready h, answered]
  exact ⟨rfl, rfl, fun hr => by rw [refused hr]⟩

/-- Settles O15: each event of the link by what the link holds. -/
theorem hostLinkEvents : Obligations.HostLinkEvents := by
  intro s hs
  refine ⟨fun b f idle skipped => ?_, fun idle room => ?_, fun busy => ?_, fun sending noReset empty => ?_,
    fun r rest sending noReset waits => ?_, fun i code fields sending wf hf => ?_⟩
  · simp [exec, execHostByteReceived, State.hostByte, hs, receive_skipped idle skipped]
  · simp [exec, execHostByteReceived, State.hostByte, hs, receive_start idle room]
  · obtain ⟨bytes, progress⟩ := Option.isSome_iff_exists.1 busy
    simp [exec, execHostInterbyteTimeout, State.byteTimeout, hs, progress, HostLink.discard, sat]
  · obtain ⟨a, answer⟩ := Option.isSome_iff_exists.1 sending
    simp [exec, execHostAnswerSent, State.answerSent, hs, answer, noReset, empty]
  · obtain ⟨a, answer⟩ := Option.isSome_iff_exists.1 sending
    simp [exec, execHostAnswerSent, State.answerSent, hs, answer, noReset, waits]
  · obtain ⟨f, block⟩ := reaches_of_hostFields hf
    rw [block.row, hostRow_answering hs sending, rowRecord_eq wf hf]
    exact ⟨fun room => congrArg _ (if_pos room), fun full => congrArg _ (if_neg (Nat.not_le.2 full))⟩

end Sys2Proof.Proofs.HostLinks
end

section
/-! SUPPORT. What passes a station by (R209, R210, R222): host commands, records and events in reset, events outside the
RUNNING phase, and host commands outside their phases. -/

namespace Sys2Proof.Machine

variable {s : State}

/-! ## In reset (R222) -/

section InReset

variable (h : s.inReset = true)

include h

theorem answering_inReset : s.answering = false := by simp [State.answering, h]

theorem command_inReset (code : Nat) (f : State → Reply) : s.command code f = s := by simp [State.command, h]

theorem hostRow_inReset (i : Instr) (code : Nat) (f : State → Reply) : s.hostRow i code f = s := by
  simp [State.hostRow, answering_inReset h, command_inReset h]

theorem onYard_inReset (f : Env → Yard → Yard) : s.onYard f = s := by simp [State.onYard, h]

theorem plantInput_inReset (w : Nat) (i : PlantInput) (f : Env → Yard → Yard) : s.plantInput w i f = s := by
  rw [State.plantInput, onYard_inReset h, whenRunning_idle (.inl h)]

theorem carryOut_inReset (record : List Byte) : s.carryOut record = s := by
  simp only [State.carryOut, answering_inReset h, Bool.false_eq_true, if_false]
  split
  · rfl
  · split
    · exact command_inReset h _ _
    · simp [State.unknownCode, h]

end InReset

/-! ## Outside their phases (R210) -/

/-- A command code that the station's phase does not take (R210). -/
theorem takenIn_eq_false {code : Nat} (low : 1 ≤ code) (high : code ≤ 26) {p : Phase}
    (h : ¬ (match p with
      | .config => code ≤ 10 ∨ 23 ≤ code
      | .locked => (10 ≤ code ∧ code ≤ 14) ∨ 23 ≤ code
      | .running => code = 12 ∨ code = 13 ∨ 15 ≤ code)) : takenIn code p = false := by
  cases p <;> simp only [takenIn, Bool.or_eq_false_iff, decide_eq_false_iff_not, beq_eq_false_iff_ne] <;> omega

theorem unknownCode_ready (h : s.ready) (code : Nat) : s.unknownCode code = s.answer code .unknown [] := by
  obtain ⟨out, noReset, -⟩ := h
  simp [State.unknownCode, out, noReset]

/-- A record of a code that names no command is answered UNKNOWN (R209, test 1). -/
theorem carryOut_unknown (h : s.ready) {code : Byte} (hc : code.toNat = 0 ∨ 26 < code.toNat) (fields : List Byte) :
    s.carryOut (hostRecord code.toNat fields) = s.answer code.toNat .unknown [] := by
  obtain ⟨check, behind⟩ : ∃ check, (hostRecord code.toNat fields).drop 3
      = BitVec.ofNat 8 code.toNat :: (fields ++ [check]) := ⟨_, rfl⟩
  have idle : s.answering = false := by
    obtain ⟨-, -, unanswered⟩ := h
    simp [State.answering, unanswered]
  have outside : within 1 26 code.toNat = false := Bool.eq_false_iff.2 fun w => by
    have := within_iff.1 w
    omega
  simp only [State.carryOut, idle, behind, BitVec.ofNat_toNat, BitVec.setWidth_eq, outside, Bool.false_eq_true, if_false,
    unknownCode_ready h]

/-! ## A record received byte by byte (R208) -/

section Receiving

variable {h : HostLink} {bs : List Byte} (progress : h.inProgress = some bs) (empty : h.waiting = [])

include progress empty

theorem used_inProgress : h.used = bs.length := by simp [HostLink.used, progress, empty]

/-- A byte before the last one joins the record in progress. -/
theorem receive_joins {b : Byte} {n : Nat} (room : bs.length < 256) (short : bs.length + 1 < n + 4)
    (declared : ∀ m, recordLength (bs ++ [b]) = some m → m = n) (size : within 1 250 n = true) :
    h.receive b false = ({ h with inProgress := some (bs ++ [b]), gapMs := 0 }, none) := by
  have fits : ¬ 256 ≤ bs.length := by omega
  have used := used_inProgress progress empty
  simp only [HostLink.receive, progress, Bool.false_or, Config.rxBufCap, used, fits, decide_false, Bool.false_eq_true,
    if_false, HostLink.join]
  cases hm : recordLength (bs ++ [b]) with
  | none => rfl
  | some m =>
    obtain rfl := declared m hm
    simp [size, short]

/-- The last byte completes the record. -/
theorem receive_completes {b : Byte} {n : Nat} (room : bs.length < 256) (whole : bs.length + 1 = n + 4)
    (declared : recordLength (bs ++ [b]) = some n) (size : within 1 250 n = true) (good : checkGood (bs ++ [b]) = true) :
    h.receive b false = ({ h with inProgress := none, gapMs := 0 }, some (bs ++ [b])) := by
  have fits : ¬ 256 ≤ bs.length := by omega
  have used := used_inProgress progress empty
  simp only [HostLink.receive, progress, Bool.false_or, Config.rxBufCap, used, fits, decide_false, Bool.false_eq_true,
    if_false, HostLink.join, declared, size, Bool.not_true, List.length_append, List.length_singleton, whole,
    Nat.lt_irrefl, good, if_true]

end Receiving

end Sys2Proof.Machine
end

section
/-! SUPPORT. The bytes of a command record (R207) and the run that receives them one by one (R208). -/

namespace Sys2Proof.Machine

/-! ## The bytes of a record (R207) -/

/-- The bytes of a record behind its start byte: length, code and fields. -/
def recordBody (code : Nat) (fields : List Byte) : List Byte := b2 (fields.length + 1) ++ b1 code ++ fields

theorem hostRecord_eq (code : Nat) (fields : List Byte) : hostRecord code fields
    = 0xC3#8 :: (recordBody code fields ++ [-((recordBody code fields).foldl (· + ·) 0)]) := rfl

theorem hostRecord_length (code : Nat) (fields : List Byte) : (hostRecord code fields).length = fields.length + 5 :=
  by
  simp [hostRecord_eq, recordBody, b1, b2, bytesOf]

theorem hostRecord_checkGood (code : Nat) (fields : List Byte) : checkGood (hostRecord code fields) = true := by
  simp [checkGood, hostRecord_eq]

/-- From its third byte on a record tells its length (R208). -/
theorem recordLength_hostRecord {code : Nat} {fields bs rest : List Byte} (size : fields.length ≤ 249)
    (parts : bs ++ rest = hostRecord code fields) {n : Nat} (told : recordLength bs = some n) :
    n = fields.length + 1 := by
  match bs, told with
  | [], told => cases told
  | [_], told => cases told
  | [_, _], told => cases told
  | start :: hi :: lo :: more, told =>
    obtain ⟨-, rfl, rfl, -⟩ : start = _ ∧ hi = _ ∧ lo = _ ∧ _ := by
      simpa [hostRecord_eq, recordBody, b2, bytesOf] using parts
    simp only [recordLength, Option.some.injEq, BitVec.toNat_ofNat, Nat.shiftRight_eq_div_pow] at told
    omega

theorem recordLength_whole {code : Nat} {fields : List Byte} (size : fields.length ≤ 249) :
    recordLength (hostRecord code fields) = some (fields.length + 1) := by
  obtain ⟨n, told⟩ : ∃ n, recordLength (hostRecord code fields) = some n := ⟨_, rfl⟩
  rw [told, recordLength_hostRecord size (List.append_nil _) told]

/-! ## A record received byte by byte (R208) -/

/-- A station of an idle host link, with part of a record received and the bytes behind it to come. -/
def State.receiving (s : State) (got : Option (List Byte)) (rest : List Byte) : State :=
  { s with
    pending := rest.map fun b => .hostByteReceived b false
    host := { s.host with inProgress := got, gapMs := 0 } }

theorem run_succ {s t : State} (h : step s = .next t) (k : Nat) :
    Sys2Proof.core.run (k + 1) s = Sys2Proof.core.run k t := by
  simp only [Host.Core.run, core, h]

section Receiving

variable {s : State} {code : Nat} {fields : List Byte} (works : s.inReset = false) (empty : s.host.waiting = [])
  (size : fields.length ≤ 249)

include works empty size

theorem step_receiving_joins {bs rest : List Byte} {b c : Byte}
    (parts : bs ++ b :: c :: rest = hostRecord code fields) :
    step (s.receiving (some bs) (b :: c :: rest)) = .next (s.receiving (some (bs ++ [b])) (c :: rest)) := by
  have total := congrArg List.length parts
  simp only [List.length_append, List.length_cons, hostRecord_length] at total
  have joined := receive_joins (h := (s.receiving (some bs) (b :: c :: rest)).host) (bs := bs) (b := b) rfl empty
    (n := fields.length + 1) (by omega) (by omega)
    (fun m told => recordLength_hostRecord size (rest := c :: rest) (by simpa using parts) told)
    (within_iff.2 (by omega))
  have running : (s.receiving (some bs) (c :: rest)).inReset = false := works
  simp only [step, State.receiving, List.map_cons, exec, execHostByteReceived, State.hostByte] at joined running ⊢
  simp only [running, joined, Bool.false_eq_true, if_false]

theorem step_receiving_completes {bs : List Byte} {b : Byte} (parts : bs ++ [b] = hostRecord code fields) :
    step (s.receiving (some bs) [b]) = .next ((s.receiving none []).carryOut (hostRecord code fields)) := by
  have total := congrArg List.length parts
  simp only [List.length_append, List.length_cons, List.length_nil, hostRecord_length] at total
  have completed := receive_completes (h := (s.receiving (some bs) [b]).host) (bs := bs) (b := b) rfl empty
    (n := fields.length + 1) (by omega) (by omega) (by rw [parts]; exact recordLength_whole size)
    (within_iff.2 (by omega)) (by rw [parts]; exact hostRecord_checkGood _ _)
  have running : (s.receiving (some bs) []).inReset = false := works
  simp only [step, State.receiving, List.map_cons, List.map_nil, exec, execHostByteReceived, State.hostByte, parts]
    at completed running ⊢
  simp only [running, completed, Bool.false_eq_true, if_false]

/-- The rest of a record received carries the record out. -/
theorem run_receiving {rest : List Byte} {bs : List Byte} {b : Byte}
    (parts : bs ++ b :: rest = hostRecord code fields) :
    Sys2Proof.core.run (b :: rest).length (s.receiving (some bs) (b :: rest))
      = .next ((s.receiving none []).carryOut (hostRecord code fields)) := by
  induction rest generalizing bs b with
  | nil => exact run_succ (step_receiving_completes works empty size parts) 0
  | cons c rest ih =>
    exact (run_succ (step_receiving_joins works empty size parts) _).trans (ih (by simpa using parts))

end Receiving

theorem step_receiving_start {s : State} (works : s.inReset = false) (idle : s.host.inProgress = none)
    (empty : s.host.waiting = []) (rest : List Byte) :
    step { s with pending := (0xC3#8 :: rest).map fun b => .hostByteReceived b false }
      = .next (s.receiving (some [0xC3#8]) rest) := by
  have begun := receive_start idle (by simp [HostLink.used, idle, empty])
  have running : ({ s with pending := rest.map fun b => .hostByteReceived b false } : State).inReset = false := works
  simp only [step, List.map_cons, exec, execHostByteReceived, State.hostByte, running, begun, Bool.false_eq_true, if_false]
  rfl

end Sys2Proof.Machine
end

section
namespace Sys2Proof.Proofs.HostLinks

open Sys2Proof Sys2Proof.Machine

/-- Settles O12: the start byte opens the record, each byte before the last joins it, the last one completes it. -/
theorem bytesOfARecordCarryItOut : Obligations.BytesOfARecordCarryItOut := by
  intro s code fields works idle empty sending size
  obtain ⟨second, rest, parts⟩ : ∃ b rest, [0xC3#8] ++ b :: rest = hostRecord code fields := ⟨_, _, rfl⟩
  have behind := run_receiving works empty size parts
  rw [← parts] at behind ⊢
  exact (run_succ (step_receiving_start works idle empty _) _).trans behind

/-- Settles O14: the row of a command at a ready station is refused by its code's phase, and a record of another code
before any block is asked. -/
theorem unknownAndOutOfPhaseCommandsAreRefused : Obligations.UnknownAndOutOfPhaseCommandsAreRefused := by
  refine ⟨fun i code fields s hf ready outside => ?_, fun code s hc ready => ?_⟩
  · obtain ⟨f, block⟩ := reaches_of_hostFields hf
    rw [block.row, hostRow_ready ready, command_phase ready (takenIn_eq_false block.low block.high outside)]
  · have none_named : within 1 26 code.toNat = false := Bool.eq_false_iff.2 fun w => by
      have := within_iff.1 w
      omega
    simp only [exec, execUnknownCommandCode, none_named, Bool.false_eq_true, if_false, carryOut_unknown ready hc]

end Sys2Proof.Proofs.HostLinks
end

section
/-! The statements on the machine as a whole. -/

namespace Sys2Proof.Proofs.Whole

open Sys2Proof Sys2Proof.Machine

/-- Settles O1: the step's own equation at a queue that is not empty. -/
theorem stepRunsTheFrontCommand : Obligations.StepRunsTheFrontCommand := fun _ _ _ => rfl

/-! ## Time (R43, log 1) -/

section Idle

variable {s : State} (empty : s.pending = [])

include empty

theorem step_empty : step s = .next s.idle := by simp only [step, empty]

theorem idle_inReset (h : s.inReset = true) : step s = .next s := by
  have none_due : s.due = none := if_pos h
  simp only [step_empty empty, State.idle, none_due, State.tick, h, if_true]

end Idle

/-- The milliseconds of a wash count while the lane washes (R149). -/
theorem washLane_tick (l : WashLane) : l.tick = { l with
    timer := l.timer.map (· - 1), washMs := l.washMs + (if l.state = .washing then 1 else 0) } := by
  unfold WashLane.tick
  split <;> rfl

/-- A tick outside reset, the counts of the clock and of the host link as sums. -/
theorem tick_eq {s : State} (works : s.inReset = false) : s.tick = { s with
    crystalMs := s.crystalMs + 1
    clock := { s.clock with subMs := s.clock.subMs + (if s.clock.valid then 1 else 0) }
    host := { s.host with gapMs := s.host.gapMs + (if s.host.inProgress.isSome then 1 else 0) }
    yard := s.yard.tick } := by
  have counted : ∀ c : Clock, (if c.valid = true then { c with subMs := c.subMs + 1 } else c)
      = { c with subMs := c.subMs + (if c.valid then 1 else 0) } := fun c => by split <;> rfl
  have gap : ∀ h : HostLink, (if h.inProgress.isSome = true then { h with gapMs := h.gapMs + 1 } else h)
      = { h with gapMs := h.gapMs + (if h.inProgress.isSome then 1 else 0) } := fun h => by split <;> rfl
  simp only [State.tick, works, Bool.false_eq_true, if_false, counted, gap]

/-- Settles O2: an idle step is the event that is due, or one tick; each clause is a field of the tick. -/
theorem idleStepLetsTimePass : Obligations.IdleStepLetsTimePass := by
  refine fun s empty => ⟨fun i due => ?_, idle_inReset empty, fun works none_due => ⟨s.tick, ?_, ?_⟩⟩
  · simp only [step_empty empty, State.idle, due]
  · simp only [step_empty empty, State.idle, none_due]
  · have washed : WashLane.tick = fun l => { l with
        timer := l.timer.map (· - 1), washMs := l.washMs + (if l.state = .washing then 1 else 0) } :=
      funext washLane_tick
    rw [tick_eq works]
    refine ⟨rfl, rfl, rfl, rfl, rfl, rfl, rfl, ?_, rfl⟩
    simp only [Yard.tick, ← washed]

/-! ## Inputs outside their time (R210, R222) -/

theorem exec_inReset {s : State} (h : s.inReset = true) (i : Instr) (asserted : i ≠ .resetPinAsserted)
    (released : i ≠ .resetPinReleased) (power : i ≠ .powerUp) : exec i s = .next s := by
  cases i with
  | setStation | addLane | addPump | setIsland | addWash | setGate | mapPoint | setParameter | lock | setClock
  | placeParked | setStock | loadDuty | start | dropDuty | delivery | closeLane | openLane | reopenPump | reopenWash
  | admitBus | resolveAtPoint | resolveReseek | resolveLeftYard | readRecord | readLane | readApron | readWashQueue
  | readDuty | readDuties | readSeekTable | readCounters | readLineSummary | readStatus | clearFlags | takeNotice
  | reset => exact congrArg _ (hostRow_inReset h _ _ _)
  | opening | frameCarried | frameDamaged | sendDamaged | lineFollowBegin | seekReceived | offerReceived | takenReceived
  | holdReceived | refuseReceived | handoverReceived | claimReceived | cancelReceived | repinReceived
  | retryTimerExpiry | offerHoldExpiry | awaitingHoldExpiry | answerTimerExpiry | holdIntervalEnd | dwellTimerExpiry
  | travelTimeout | pumpCallTimeout | nozzleLift | nozzleHang | meterPulse | noFlowTimeout | agingTimerExpiry
  | washCallTimeout | startTimeout | pollTimerExpiry | pollTransactionEnd | tagWindowExpiry | signRecordSent =>
    exact congrArg _ (whenRunning_idle (.inl h) _)
  | busy | done | fault => exact congrArg _ (plantInput_inReset h _ _ _)
  | plantInputReleased | i2cStartStopSeen => exact congrArg _ (onYard_inReset h _)
  | unknownCommandCode code => simp only [exec, execUnknownCommandCode, carryOut_inReset h, ite_self]
  | resetAfterAnswer => simp [exec, execResetAfterAnswer, h]
  | hostByteReceived => simp [exec, execHostByteReceived, State.hostByte, h]
  | hostInterbyteTimeout => simp [exec, execHostInterbyteTimeout, State.byteTimeout, h]
  | hostAnswerSent => simp [exec, execHostAnswerSent, State.answerSent, h]
  | timeReceived => simp [exec, execTimeReceived, State.timeReceived, h]
  | minuteRollover => simp [exec, execMinuteRollover, State.rollover, h]
  | secondsCount => simp [exec, execSecondsCount, State.countSecond, h]
  | rowScan => simp [exec, execRowScan, State.rowScan, h]
  | resetPinAsserted => exact absurd rfl asserted
  | resetPinReleased => exact absurd rfl released
  | powerUp => exact absurd rfl power

theorem exec_beforeStart {s : State} (h : s.phase ≠ .running) {i : Instr} (hi : runningOnly i = true) :
    exec i s = .next s := by
  cases i with
  | opening | frameCarried | frameDamaged | sendDamaged | lineFollowBegin | seekReceived | offerReceived | takenReceived
  | holdReceived | refuseReceived | handoverReceived | claimReceived | cancelReceived | repinReceived
  | retryTimerExpiry | offerHoldExpiry | awaitingHoldExpiry | answerTimerExpiry | holdIntervalEnd | dwellTimerExpiry
  | travelTimeout | pumpCallTimeout | nozzleLift | nozzleHang | meterPulse | noFlowTimeout | agingTimerExpiry
  | washCallTimeout | startTimeout | pollTimerExpiry | pollTransactionEnd | tagWindowExpiry | signRecordSent =>
    exact congrArg _ (whenRunning_idle (.inr h) _)
  | timeReceived => simp [exec, execTimeReceived, State.timeReceived, h]
  | _ => cases hi

/-- Settles O4: in reset every meaning passes its input by; before START the events of the working yard do nothing. -/
theorem inputsOutsideTheirTimeChangeNothing : Obligations.InputsOutsideTheirTimeChangeNothing :=
  ⟨fun i _ h asserted released power => exec_inReset h i asserted released power,
    fun _ _ hi h => exec_beforeStart h hi⟩

/-! ## The reset state (R222 to R224) -/

theorem exec_resetPinReleased {s : State} (h : s.pinLow = true) :
    exec .resetPinReleased s = .next { s.afterReset with pinLow := false } := congrArg _ (if_pos h)

theorem exec_resetAfterAnswer {s : State} (works : s.inReset = false) (waits : s.host.resetPending = true) :
    exec .resetAfterAnswer s = .next s.afterReset := by
  simp [exec, execResetAfterAnswer, works, waits]

theorem exec_hostAnswerSent_reset {s : State} (works : s.inReset = false) (waits : s.host.resetPending = true)
    (sending : s.host.answer.isSome = true) : exec .hostAnswerSent s = .next s.afterReset := by
  obtain ⟨a, answer⟩ := Option.isSome_iff_exists.1 sending
  simp [exec, execHostAnswerSent, State.answerSent, works, waits, answer]

/-- Settles O3: the reset state's fields are the defaults of the model, and every reset is State.afterReset. -/
theorem resetBringsTheStateTheSpecSays : Obligations.ResetBringsTheStateTheSpecSays := by
  refine ⟨⟨rfl, rfl, rfl, rfl, rfl, rfl, rfl, rfl, rfl, rfl, rfl, rfl, rfl, rfl, rfl, rfl, rfl, rfl, fun c hc => ?_, rfl,
    rfl, rfl, rfl, rfl, rfl, rfl, rfl, rfl, rfl, rfl, rfl, rfl⟩,
    fun s => ⟨rfl, exec_resetPinReleased, rfl, exec_resetAfterAnswer, exec_hostAnswerSent_reset⟩⟩
  obtain rfl : c = {} := List.eq_of_mem_replicate hc
  exact ⟨rfl, rfl⟩

end Sys2Proof.Proofs.Whole
end

section
/-! SUPPORT. What the operations of the blocks leave of the tables they write: the fleets of the records (R1), the layout's
fields of lanes, pumps, wash lanes and points, and the signs' numbers (R215). Together with the frame lemmas they say of
an operation that it writes no fleet and no layout. -/

namespace Sys2Proof.Machine

/-! ## Records: a write keeps the fleet -/

@[simp] theorem onRec_fleets {f : Nat} {g : Record → Record} (hg : ∀ r, (g r).bus.fleet = r.bus.fleet) (y : Yard) :
    (onRec f g y).records.map (·.bus.fleet) = y.records.map (·.bus.fleet) := updFirst_map _ _ _ hg _

@[simp] theorem setPin_fleets (f : Nat) (p : Option Pin) (y : Yard) :
    (onRec f (Record.setPin p) y).records.map (·.bus.fleet) = y.records.map (·.bus.fleet) :=
  onRec_fleets (fun _ => by rfl) y

@[simp] theorem placeRec_fleets (f : Nat) (st : RecState) (loc : Loc) (y : Yard) :
    (placeRec f st loc y).records.map (·.bus.fleet) = y.records.map (·.bus.fleet) := by
  simp [placeRec]

@[simp] theorem pinRec_fleets (f : Nat) (d : Duty) (y : Yard) :
    (pinRec f d y).records.map (·.bus.fleet) = y.records.map (·.bus.fleet) := by
  simp [pinRec]

@[simp] theorem enqueueApron_fleets (e : Env) (r : Record) (y : Yard) :
    (enqueueApron e r y).records.map (·.bus.fleet) = y.records.map (·.bus.fleet) := by
  simp [enqueueApron]

@[simp] theorem unpinFleet_fleets (e : Env) (f : Nat) (y : Yard) :
    (unpinFleet e f y).records.map (·.bus.fleet) = y.records.map (·.bus.fleet) := by
  simp [unpinFleet]

@[simp] theorem uncoverDuty_fleets (e : Env) (d : Nat) (y : Yard) :
    (uncoverDuty e d y).records.map (·.bus.fleet) = y.records.map (·.bus.fleet) := by
  unfold uncoverDuty
  dsimp only
  (repeat' split) <;> simp

@[simp] theorem enterCalling_fleets (e : Env) (d : Duty) (y : Yard) :
    (enterCalling e d y).records.map (·.bus.fleet) = y.records.map (·.bus.fleet) := by
  unfold enterCalling
  dsimp only
  split <;> simp

@[simp] theorem callIfDue_fleets (e : Env) (n : Nat) (y : Yard) :
    (callIfDue e n y).records.map (·.bus.fleet) = y.records.map (·.bus.fleet) := by
  unfold callIfDue
  (repeat' split) <;> simp

@[simp] theorem recallFor_fleets (e : Env) (f : Nat) (y : Yard) :
    (recallFor e f y).records.map (·.bus.fleet) = y.records.map (·.bus.fleet) := by
  unfold recallFor
  split <;> simp

@[simp] theorem dutyMinute_fleets (e : Env) (a b n : Nat) (y : Yard) :
    (dutyMinute e a b n y).records.map (·.bus.fleet) = y.records.map (·.bus.fleet) := by
  unfold dutyMinute
  dsimp only
  (repeat' split) <;> simp

/-- A walk over a list keeps what each of its steps keeps. -/
theorem foldl_keeps {α β : Type} {g : Yard → α → Yard} (p : Yard → β) (hg : ∀ y x, p (g y x) = p y) (l : List α)
    (y : Yard) : p (l.foldl g y) = p y := by
  induction l generalizing y with
  | nil => rfl
  | cons x xs ih => exact (ih (g y x)).trans (hg y x)

@[simp] theorem dutiesMinute_fleets (e : Env) (a b : Nat) (y : Yard) :
    (dutiesMinute e a b y).records.map (·.bus.fleet) = y.records.map (·.bus.fleet) :=
  foldl_keeps (·.records.map (·.bus.fleet)) (fun y n => dutyMinute_fleets e a b n y) _ y

@[simp] theorem dayTurn_fleets (e : Env) (y : Yard) :
    (dayTurn e y).records.map (·.bus.fleet) = y.records.map (·.bus.fleet) := by
  unfold dayTurn
  dsimp only
  split <;> simp [Record.setPin]

@[simp] theorem minuteChange_fleets (e : Env) (a b : Nat) (y : Yard) :
    (minuteChange e a b y).records.map (·.bus.fleet) = y.records.map (·.bus.fleet) := by
  unfold minuteChange
  dsimp only
  (repeat' split) <;> simp

theorem popHead_fleet (sv : Service) (r : Record) : (r.popHead sv).bus.fleet = r.bus.fleet := by
  unfold Record.popHead
  (repeat' split) <;> rfl

@[simp] theorem endFaultReseek_fleets (e : Env) (n f : Nat) (y : Yard) :
    (endFaultReseek e n f y).records.map (·.bus.fleet) = y.records.map (·.bus.fleet) := by
  simp [endFaultReseek, popHead_fleet]

@[simp] theorem noOffer_fleets (e : Env) (n : Nat) (y : Yard) :
    (noOffer e n y).records.map (·.bus.fleet) = y.records.map (·.bus.fleet) := by
  unfold noOffer
  dsimp only
  (repeat' split) <;> simp

@[simp] theorem pinAttempt_fleets (f : Nat) (y : Yard) :
    (pinAttempt f y).records.map (·.bus.fleet) = y.records.map (·.bus.fleet) := by
  unfold pinAttempt
  (repeat' split) <;> simp

@[simp] theorem resolvePins_fleets (e : Env) (n b : Nat) (y : Yard) :
    (resolvePins e n b y).records.map (·.bus.fleet) = y.records.map (·.bus.fleet) := by
  unfold resolvePins
  dsimp only
  (repeat' split) <;> simp

@[simp] theorem repin_fleets (f : Nat) (p : Option Pin) (y : Yard) :
    (repin f p y).records.map (·.bus.fleet) = y.records.map (·.bus.fleet) := by
  unfold repin
  dsimp only
  (repeat' split) <;> simp

@[simp] theorem ownerTimeout_fleets (e : Env) (k : PointKind) (i f : Nat) (y : Yard) :
    (ownerTimeout e k i f y).records.map (·.bus.fleet) = y.records.map (·.bus.fleet) := by
  unfold ownerTimeout
  split <;> simp

@[simp] theorem endOpening_fleets (e : Env) (n : Option SeekRef) (p : Bool) (y : Yard) :
    (endOpening e n p y).records.map (·.bus.fleet) = y.records.map (·.bus.fleet) := by
  unfold endOpening
  dsimp only
  (repeat' split) <;> simp

/-! ## Signs and points -/

theorem kick_signs (p : SignPort) : p.kick.signs = p.signs := by
  unfold SignPort.kick
  split <;> rfl

theorem handOver_signs (n v : Nat) (p : SignPort) : (p.handOver n v).signs = p.signs := by
  unfold SignPort.handOver
  (repeat' split) <;> rfl

@[simp] theorem setSign_numbers (e : Env) (n v : Nat) (y : Yard) :
    (setSign e n v y).signs.signs.map (·.number) = y.signs.signs.map (·.number) := by
  unfold setSign
  dsimp only
  (repeat' split)
  · rfl
  · rfl
  · rw [kick_signs, handOver_signs]
    exact updFirst_map _ _ _ (fun _ => by rfl) _
  · exact updFirst_map _ _ _ (fun _ => by rfl) _

@[simp] theorem entryLight_numbers (e : Env) (k : PointKind) (i : Nat) (y : Yard) :
    (entryLight e k i y).signs.signs.map (·.number) = y.signs.signs.map (·.number) := by
  unfold entryLight
  split <;> simp

@[simp] theorem onQueue_holdings (e : Env) (k : PointKind) (i : Nat) (f : List Expect → List Expect) (y : Yard) :
    (onQueue e k i f y).points.map (·.cfg) = y.points.map (·.cfg)
      ∧ (onQueue e k i f y).signs.signs.map (·.number) = y.signs.signs.map (·.number) := by
  refine ⟨?_, by simp [onQueue]⟩
  rw [onQueue_points]
  exact updFirst_map _ _ _ (fun _ => by rfl) _

@[simp] theorem removeExpect_holdings (e : Env) (k : PointKind) (i f : Nat) (y : Yard) :
    (removeExpect e k i f y).points.map (·.cfg) = y.points.map (·.cfg)
      ∧ (removeExpect e k i f y).signs.signs.map (·.number) = y.signs.signs.map (·.number) := by
  simp [removeExpect]

@[simp] theorem tailExpect_holdings (e : Env) (k : PointKind) (i f : Nat) (y : Yard) :
    (tailExpect e k i f y).points.map (·.cfg) = y.points.map (·.cfg)
      ∧ (tailExpect e k i f y).signs.signs.map (·.number) = y.signs.signs.map (·.number) := by
  simp [tailExpect]

@[simp] theorem handBack_holdings (e : Env) (k : PointKind) (i : Nat) (x : Expect) (y : Yard) :
    (handBack e k i x y).points.map (·.cfg) = y.points.map (·.cfg)
      ∧ (handBack e k i x y).signs.signs.map (·.number) = y.signs.signs.map (·.number) := by
  simp [handBack]

@[simp] theorem popExpect_holdings (e : Env) (k : PointKind) (i : Nat) (y : Yard) :
    (popExpect e k i y).2.points.map (·.cfg) = y.points.map (·.cfg)
      ∧ (popExpect e k i y).2.signs.signs.map (·.number) = y.signs.signs.map (·.number) := by
  unfold popExpect
  (repeat' split) <;> simp

@[simp] theorem setDwell_cfgs (row col : Nat) (t : Option Nat) (y : Yard) :
    (setDwell row col t y).points.map (·.cfg) = y.points.map (·.cfg) := updFirst_map _ _ _ (fun _ => by rfl) _

/-! ## Lanes -/

@[simp] theorem onLane_cfgs {n : Nat} {f : Lane → Lane} (hf : ∀ l, (f l).cfg = l.cfg) (y : Yard) :
    (onLane n f y).lanes.map (·.cfg) = y.lanes.map (·.cfg) := updFirst_map _ _ _ hf _

@[simp] theorem laneRelease_cfgs (n : Nat) (ref : SeekRef) (f : Nat) (y : Yard) :
    (laneRelease n ref f y).lanes.map (·.cfg) = y.lanes.map (·.cfg) := onLane_cfgs (fun _ => by rfl) y

@[simp] theorem laneUncommit_cfgs (n f : Nat) (y : Yard) :
    (laneUncommit n f y).lanes.map (·.cfg) = y.lanes.map (·.cfg) := onLane_cfgs (fun _ => by rfl) y

@[simp] theorem laneRepin_cfgs (n f : Nat) (r : Option Nat) (y : Yard) :
    (laneRepin n f r y).lanes.map (·.cfg) = y.lanes.map (·.cfg) := onLane_cfgs (fun _ => by rfl) y

@[simp] theorem laneEntryClear_cfgs (n : Nat) (y : Yard) :
    (laneEntryClear n y).lanes.map (·.cfg) = y.lanes.map (·.cfg) := onLane_cfgs (fun _ => by rfl) y

@[simp] theorem laneCommit_cfgs (n : Nat) (ref : SeekRef) (f : Nat) (r : Option Nat) (late : Bool) (y : Yard) :
    (laneCommit n ref f r late y).lanes.map (·.cfg) = y.lanes.map (·.cfg) :=
  onLane_cfgs (fun l => by split <;> rfl) y

@[simp] theorem lanesDayTurn_cfgs (y : Yard) : (lanesDayTurn y).lanes.map (·.cfg) = y.lanes.map (·.cfg) := by
  simp [lanesDayTurn]

@[simp] theorem laneLight_numbers (e : Env) (n : Nat) (y : Yard) :
    (laneLight e n y).signs.signs.map (·.number) = y.signs.signs.map (·.number) := by
  unfold laneLight
  split <;> simp

@[simp] theorem onPositions_holdings (e : Env) (n : Nat) (f : List Position → List Position) (y : Yard) :
    (onPositions e n f y).lanes.map (·.cfg) = y.lanes.map (·.cfg)
      ∧ (onPositions e n f y).signs.signs.map (·.number) = y.signs.signs.map (·.number) := by
  simp [onPositions]

@[simp] theorem setPosition_holdings (e : Env) (n f : Nat) (st : PosState) (y : Yard) :
    (setPosition e n f st y).lanes.map (·.cfg) = y.lanes.map (·.cfg)
      ∧ (setPosition e n f st y).signs.signs.map (·.number) = y.signs.signs.map (·.number) := by
  simp [setPosition]

@[simp] theorem leavePosition_holdings (e : Env) (n f : Nat) (y : Yard) :
    (leavePosition e n f y).lanes.map (·.cfg) = y.lanes.map (·.cfg)
      ∧ (leavePosition e n f y).signs.signs.map (·.number) = y.signs.signs.map (·.number) := by
  simp [leavePosition]

@[simp] theorem laneArrival_holdings (e : Env) (n f : Nat) (y : Yard) :
    (laneArrival e n f y).records.map (·.bus.fleet) = y.records.map (·.bus.fleet)
      ∧ (laneArrival e n f y).lanes.map (·.cfg) = y.lanes.map (·.cfg)
      ∧ (laneArrival e n f y).signs.signs.map (·.number) = y.signs.signs.map (·.number) := by
  simp [laneArrival]

@[simp] theorem laneDwell_cfgs (e : Env) (n : Nat) (y : Yard) :
    (laneDwell e n y).lanes.map (·.cfg) = y.lanes.map (·.cfg) := by
  unfold laneDwell
  (repeat' split) <;> simp

@[simp] theorem endCallOut_holdings (e : Env) (o : OfferEntry) (y : Yard) :
    (endCallOut e o y).lanes.map (·.cfg) = y.lanes.map (·.cfg)
      ∧ (endCallOut e o y).signs.signs.map (·.number) = y.signs.signs.map (·.number) := by
  unfold endCallOut
  dsimp only
  split <;> simp

@[simp] theorem dayTurn_cfgs (e : Env) (y : Yard) : (dayTurn e y).lanes.map (·.cfg) = y.lanes.map (·.cfg) := by
  unfold dayTurn
  dsimp only
  split <;> simp

@[simp] theorem minuteChange_cfgs (e : Env) (a b : Nat) (y : Yard) :
    (minuteChange e a b y).lanes.map (·.cfg) = y.lanes.map (·.cfg) := by
  unfold minuteChange
  dsimp only
  (repeat' split) <;> simp

@[simp] theorem repin_cfgs (f : Nat) (p : Option Pin) (y : Yard) :
    (repin f p y).lanes.map (·.cfg) = y.lanes.map (·.cfg) := by
  unfold repin
  dsimp only
  (repeat' split) <;> simp

@[simp] theorem ownerTimeout_cfgs (e : Env) (k : PointKind) (i f : Nat) (y : Yard) :
    (ownerTimeout e k i f y).lanes.map (·.cfg) = y.lanes.map (·.cfg) := by
  unfold ownerTimeout
  split <;> simp

/-! ## Pumps -/

@[simp] theorem onPump_cfgs {p : Nat} {f : Pump → Pump} (hf : ∀ q, (f q).cfg = q.cfg) (y : Yard) :
    (onPump p f y).fuel.pumps.map (·.cfg) = y.fuel.pumps.map (·.cfg) := updFirst_map _ _ _ hf _

@[simp] theorem setPump_numbers (e : Env) (p : Nat) (f : Pump → Pump) (y : Yard) :
    (setPump e p f y).signs.signs.map (·.number) = y.signs.signs.map (·.number) := by
  unfold setPump
  dsimp only
  split <;> simp

@[simp] theorem setPump_cfgs {p : Nat} {f : Pump → Pump} (hf : ∀ q, (f q).cfg = q.cfg) (e : Env) (y : Yard) :
    (setPump e p f y).fuel.pumps.map (·.cfg) = y.fuel.pumps.map (·.cfg) := by
  unfold setPump
  dsimp only
  split <;> simp [hf]

@[simp] theorem freePump_holdings (e : Env) (p : Nat) (y : Yard) :
    (freePump e p y).fuel.pumps.map (·.cfg) = y.fuel.pumps.map (·.cfg)
      ∧ (freePump e p y).signs.signs.map (·.number) = y.signs.signs.map (·.number) := by
  simp [freePump]

@[simp] theorem callHead_holdings (e : Env) (p : Pump) (en : ApronEntry) (t : Nat) (y : Yard) :
    (callHead e p en t y).records.map (·.bus.fleet) = y.records.map (·.bus.fleet)
      ∧ (callHead e p en t y).fuel.pumps.map (·.cfg) = y.fuel.pumps.map (·.cfg)
      ∧ (callHead e p en t y).signs.signs.map (·.number) = y.signs.signs.map (·.number) := by
  simp [callHead]

@[simp] theorem bayArrive_holdings (e : Env) (p : Nat) (y : Yard) :
    (bayArrive e p y).records.map (·.bus.fleet) = y.records.map (·.bus.fleet)
      ∧ (bayArrive e p y).fuel.pumps.map (·.cfg) = y.fuel.pumps.map (·.cfg)
      ∧ (bayArrive e p y).signs.signs.map (·.number) = y.signs.signs.map (·.number) := by
  unfold bayArrive
  (repeat' split) <;> simp

/-! ## Wash lanes -/

@[simp] theorem onWash_cfgs {w : Nat} {f : WashLane → WashLane} (hf : ∀ l, (f l).cfg = l.cfg) (y : Yard) :
    (onWash w f y).wash.lanes.map (·.cfg) = y.wash.lanes.map (·.cfg) := updFirst_map _ _ _ hf _

@[simp] theorem washRelease_cfgs (w : Nat) (ref : SeekRef) (f : Nat) (y : Yard) :
    (washRelease w ref f y).wash.lanes.map (·.cfg) = y.wash.lanes.map (·.cfg) := onWash_cfgs (fun _ => by rfl) y

@[simp] theorem joinWash_cfgs (w f k : Nat) (y : Yard) :
    (joinWash w f k y).wash.lanes.map (·.cfg) = y.wash.lanes.map (·.cfg) := onWash_cfgs (fun _ => by rfl) y

@[simp] theorem setWash_numbers (e : Env) (w : Nat) (f : WashLane → WashLane) (y : Yard) :
    (setWash e w f y).signs.signs.map (·.number) = y.signs.signs.map (·.number) := by
  unfold setWash
  dsimp only
  split <;> simp

@[simp] theorem setWash_cfgs {w : Nat} {f : WashLane → WashLane} (hf : ∀ l, (f l).cfg = l.cfg) (e : Env) (y : Yard) :
    (setWash e w f y).wash.lanes.map (·.cfg) = y.wash.lanes.map (·.cfg) := by
  unfold setWash
  dsimp only
  split <;> simp [hf]

theorem setEstimate_cfg (l : WashLane) (p : Prog) (v : Nat) : (l.setEstimate p v).cfg = l.cfg := by
  cases p <;> rfl

@[simp] theorem callWashHead_holdings (e : Env) (w : Nat) (en : WashEntry) (p : Prog) (y : Yard) :
    (callWashHead e w en p y).records.map (·.bus.fleet) = y.records.map (·.bus.fleet)
      ∧ (callWashHead e w en p y).wash.lanes.map (·.cfg) = y.wash.lanes.map (·.cfg)
      ∧ (callWashHead e w en p y).signs.signs.map (·.number) = y.signs.signs.map (·.number) := by
  simp [callWashHead]

/-! ## Reservations of every serving block -/

@[simp] theorem releaseCommitment_holdings (loc : Loc) (f : Nat) (y : Yard) :
    (releaseCommitment loc f y).lanes.map (·.cfg) = y.lanes.map (·.cfg)
      ∧ (releaseCommitment loc f y).wash.lanes.map (·.cfg) = y.wash.lanes.map (·.cfg) := by
  unfold releaseCommitment
  split <;> simp

@[simp] theorem releaseRes_holdings (res : Resource) (ref : SeekRef) (f : Nat) (y : Yard) :
    (releaseRes res ref f y).lanes.map (·.cfg) = y.lanes.map (·.cfg)
      ∧ (releaseRes res ref f y).wash.lanes.map (·.cfg) = y.wash.lanes.map (·.cfg) := by
  unfold releaseRes
  split <;> simp

end Sys2Proof.Machine
end

section
/-! SUPPORT. What every operation of the yard upholds (Upholds): the custody table stays one (R1, R9), the resources keep the
layout's fields (R215), and no pooled TIME carries a minute beyond the day (R39). Here the relation, the operations on
records, and the end of an event. -/

namespace Sys2Proof.Machine

/-! ## From a yard to a yard -/

/-- The layout's fields of the resources, and the signs' numbers. -/
def Yard.cfgs (y : Yard) : List LaneCfg × List PumpCfg × List WashCfg × List PointCfg × List Nat :=
  (y.lanes.map (·.cfg), y.fuel.pumps.map (·.cfg), y.wash.lanes.map (·.cfg), y.points.map (·.cfg),
    y.signs.signs.map (·.number))

/-- What the custody table, the layout held and the pooled minutes are read from. -/
def Yard.holdings (y : Yard) := (y.records.map (·.bus.fleet), y.seeking, y.cfgs, y.line.pool)

@[simp] theorem Yard.cfgs_eq (y : Yard) : y.cfgs = (y.lanes.map (·.cfg), y.fuel.pumps.map (·.cfg),
    y.wash.lanes.map (·.cfg), y.points.map (·.cfg), y.signs.signs.map (·.number)) := rfl

@[simp] theorem Yard.holdings_eq (y : Yard) :
    y.holdings = (y.records.map (·.bus.fleet), y.seeking, y.cfgs, y.line.pool) := rfl

/-- From y to z the custody table stays one, the layout's fields stay, and the pool gets no minute beyond the day. -/
structure Upholds (y z : Yard) : Prop where
  custody : y.custodyKept → z.custodyKept
  layout : z.cfgs = y.cfgs
  minutes : y.line.minutesInRange → z.line.minutesInRange

variable {e : Env} {y z z' : Yard}

theorem Upholds.refl (y : Yard) : Upholds y y := ⟨id, rfl, id⟩

theorem Upholds.trans (h : Upholds y z) (h' : Upholds z z') : Upholds y z' :=
  ⟨h'.custody ∘ h.custody, h'.layout.trans h.layout, h'.minutes ∘ h.minutes⟩

theorem Yard.custodyKept.once (h : y.custodyKept) : y.seeking.Nodup := by
  obtain ⟨-, -, once⟩ := h
  exact once

/-- A custody table is told by the fleets of its records and of the seeking list. -/
theorem custodyKept_of_fleets (fleets : z.records.map (·.bus.fleet) = y.records.map (·.bus.fleet))
    (seeking : z.seeking.Nodup) (h : y.custodyKept) : z.custodyKept := by
  obtain ⟨room, rising, -⟩ := h
  have length := congrArg List.length fleets
  simp only [List.length_map] at length
  exact ⟨length ▸ room, fleets ▸ rising, seeking⟩

/-- An operation that leaves those parts. -/
theorem Upholds.same (h : Upholds y z) (same : z'.holdings = z.holdings) :
    Upholds y z' := by
  simp only [Yard.holdings_eq, Prod.mk.injEq] at same
  obtain ⟨fleets, seeking, layout, pool⟩ := same
  refine h.trans ⟨fun c => custodyKept_of_fleets fleets (seeking ▸ c.once) c, layout, fun m => ?_⟩
  simpa only [LineIf.minutesInRange, pool] using m

/-- An operation on the records and the seeking list alone. -/
theorem Upholds.custodyOnly (h : Upholds y z) (rest : (z'.cfgs, z'.line.pool) = (z.cfgs, z.line.pool))
    (custody : z.custodyKept → z'.custodyKept) : Upholds y z' := by
  obtain ⟨layout, pool⟩ := Prod.mk.inj rest
  refine h.trans ⟨custody, layout, fun m => ?_⟩
  simpa only [LineIf.minutesInRange, pool] using m

/-- Frames that leave the pool. -/
theorem Upholds.poolShrinks (h : Upholds y z) {l : List Frame} (sub : ∀ f ∈ l, f ∈ z.line.pool) :
    Upholds y { z with line.pool := l } :=
  h.trans ⟨id, rfl, fun m f hf => m f (sub f hf)⟩

theorem upholds_foldl {α : Type} {g : Yard → α → Yard} (hg : ∀ x z, Upholds y z → Upholds y (g z x)) (l : List α)
    (h : Upholds y z) : Upholds y (l.foldl g z) := by
  induction l generalizing z with
  | nil => exact h
  | cons x xs ih => exact ih (hg x z h)

/-! ## Records (R1, R8 to R10, R14) -/

theorem upholds_notify (k : NoticeKind) (f : Option Nat) (r : Option NoticeRes) (d : List Nat) (h : Upholds y z) :
    Upholds y (notify e k f r d z) := h.same (by simp)

theorem upholds_placeRec (f : Nat) (st : RecState) (loc : Loc) (h : Upholds y z) : Upholds y (placeRec f st loc z) :=
  h.same (by simp)

theorem upholds_send (r : TxReq) (h : Upholds y z) : Upholds y (send e r z) := h.same (by simp)

theorem upholds_enterSeeking (f : Nat) (h : Upholds y z) : Upholds y (enterSeeking f z) := by
  refine h.custodyOnly (by simp) fun c => custodyKept_of_fleets (onRec_fleets (fun _ => by rfl) z) ?_ c
  obtain ⟨-, -, once⟩ := c
  simpa [enterSeeking, onRec] using nodup_filter_concat (k := id) (x := f) (by simpa using once)

theorem upholds_nextStep (f : Nat) (h : Upholds y z) : Upholds y (nextStep f z) :=
  upholds_enterSeeking f (h.custodyOnly (by simp)
    fun c => custodyKept_of_fleets (onRec_fleets (fun r => by split <;> rfl) z) c.once c)

theorem upholds_removeRec (f : Nat) (h : Upholds y z) : Upholds y (removeRec f z) := by
  refine h.custodyOnly (by simp) fun c => ?_
  obtain ⟨room, rising, once⟩ := c
  exact ⟨(List.length_filter_le _ _).trans room, rising.sublist (List.filter_sublist.map _), once.filter _⟩

theorem upholds_loseRec (f : Nat) (st : RecState) (h : Upholds y z) : Upholds y (loseRec f st z) :=
  h.custodyOnly (by simp) fun c => custodyKept_of_fleets (placeRec_fleets f st .nowhere z) (c.once.filter _) c

theorem room_of_inserted {f : Nat} (h : insertAnswer f y = .inserted) : y.records.length < 96 := by
  unfold insertAnswer at h
  (repeat' split at h)
  · cases h
  · cases h
  · exact Nat.lt_of_not_le ‹_›

/-- A record is added after the answer INSERTED alone (R10). -/
theorem upholds_addRec {r : Record} (inserted : insertAnswer r.bus.fleet z = .inserted) (h : Upholds y z) :
    Upholds y (addRec r z) := by
  refine h.custodyOnly (by simp) fun c => ?_
  obtain ⟨-, rising, once⟩ := c
  exact ⟨(insertBy_length_le _ _ _).trans (room_of_inserted inserted), insertBy_pairwise _ _ _ rising, once⟩

/-! ## The end of an event (R11, R50) -/

theorem upholds_pinAttempt (f : Nat) (h : Upholds y z) : Upholds y (pinAttempt f z) := h.same (by simp)

theorem upholds_fifoStep (h : Upholds y z) : Upholds y (fifoStep e z) := by
  unfold fifoStep
  split
  · exact h
  · split
    · exact h
    · exact h.same (by simp)
    · rename_i inserted
      exact upholds_nextStep _ (upholds_pinAttempt _ (upholds_addRec inserted (h.same (by simp))))

theorem upholds_fifoTimes (n : Nat) (h : Upholds y z) : Upholds y (fifoTimes e n z) := by
  induction n generalizing z with
  | zero => exact h
  | succ n ih => exact ih (upholds_fifoStep h)

theorem upholds_giveEntries (h : Upholds y z) : Upholds y (giveEntries e z) := h.same (by simp)

theorem upholds_settle (h : Upholds y z) : Upholds y (settle e z) := upholds_giveEntries (upholds_fifoTimes _ h)

theorem upholds_goodTag (b : BusFields) (h : Upholds y z) : Upholds y (goodTag e b z) := by
  unfold goodTag
  dsimp only
  split
  · exact upholds_settle (h.same (by simp))
  · exact upholds_settle (h.same (by simp))

theorem upholds_minuteChange (a b : Nat) (h : Upholds y z) : Upholds y (minuteChange e a b z) := h.same (by simp)

theorem upholds_excludeAndRetry (n st : Nat) (h : Upholds y z) : Upholds y (excludeAndRetry e n st z) :=
  h.same (by simp)

theorem upholds_handoverFailed (n : Nat) (h : Upholds y z) : Upholds y (handoverFailed e n z) := by
  unfold handoverFailed
  (repeat' split)
  · exact upholds_excludeAndRetry _ _ (upholds_enterSeeking _ (h.same (by simp)))
  · exact h
  · exact h

end Sys2Proof.Machine
end

section
/-! SUPPORT. The rules of Upholds for the fuel unit (chapter 6) and the wash lanes (chapter 7). -/

namespace Sys2Proof.Machine

variable {e : Env} {y z z' : Yard}

/-! ## The apron and the pumps (R118 to R133) -/

theorem upholds_setPump (p : Nat) {f : Pump → Pump} (hf : ∀ q, (f q).cfg = q.cfg) (h : Upholds y z) :
    Upholds y (setPump e p f z) := h.same (by simp [hf])

theorem upholds_freePump (p : Nat) (h : Upholds y z) : Upholds y (freePump e p z) := h.same (by simp)

theorem upholds_lookOnce (h : Upholds y z) : Upholds y (lookOnce e z) := by
  unfold lookOnce
  split
  · exact h
  · split
    · exact h.same (by simp)
    · exact upholds_notify _ _ _ _ (upholds_nextStep _ (h.same (by simp)))

theorem upholds_lookTimes (n : Nat) (h : Upholds y z) : Upholds y (lookTimes e n z) := by
  induction n generalizing z with
  | zero => exact h
  | succ n ih => exact ih (upholds_lookOnce h)

theorem upholds_lookForHeads (h : Upholds y z) : Upholds y (lookForHeads e z) := upholds_lookTimes _ h

theorem upholds_pumpSkip (p : Nat) (h : Upholds y z) : Upholds y (pumpSkip e p z) := by
  unfold pumpSkip
  dsimp only
  (repeat' split)
  · exact h
  · exact upholds_settle (upholds_lookForHeads (h.same (by simp)))
  · exact upholds_settle (upholds_lookForHeads (upholds_notify _ _ _ _ (upholds_loseRec _ _ (h.same (by simp)))))
  · exact h

theorem upholds_endTurnRec (q : Pump) (t : Turn) (d : Nat) (mark : FuelMark) (h : Upholds y z) :
    Upholds y (endTurnRec q t d mark z) := by
  unfold endTurnRec
  split
  · exact upholds_nextStep _ (h.same (by simp))
  · exact h

theorem upholds_endTurn (q : Pump) (t : Turn) (d : Nat) (h : Upholds y z) : Upholds y (endTurn e q t d z) :=
  upholds_endTurnRec _ _ _ _ (h.same (by simp))

theorem upholds_pumpOut (f : Fuel) (h : Upholds y z) : Upholds y (pumpOut f z) := by
  unfold pumpOut
  split
  · exact h
  · exact upholds_foldl (fun g _ => upholds_enterSeeking g) _ (h.same (by simp))

theorem upholds_checkAdrift (f : Nat) (loc : Loc) (res : NoticeRes) (h : Upholds y z) :
    Upholds y (checkAdrift e f loc res z) := by
  have cancelled : ∀ {x}, Upholds y x → Upholds y (cancelBusSeek e f x) := fun hx => hx.same (by simp)
  unfold checkAdrift
  (repeat' split)
  · exact upholds_notify _ _ _ _ (cancelled (upholds_loseRec _ _ h))
  · exact h
  · exact h

theorem upholds_bayClear (p : Nat) (h : Upholds y z) : Upholds y (bayClear e p z) := by
  unfold bayClear
  (repeat' split)
  · exact h
  · exact upholds_settle (upholds_checkAdrift _ _ _ (upholds_lookForHeads (h.same (by simp))))
  · exact upholds_settle (upholds_checkAdrift _ _ _ (h.same (by simp)))
  · exact upholds_settle (upholds_checkAdrift _ _ _ (upholds_lookForHeads (upholds_freePump _
      (upholds_endTurnRec _ _ _ _ h))))
  · exact upholds_settle (upholds_checkAdrift _ _ _ (upholds_pumpOut _ (upholds_notify _ _ _ _
      (upholds_setPump _ (fun _ => rfl) (upholds_endTurn _ _ _ (h.same (by simp)))))))
  · exact h

theorem upholds_apronArrival (f : Nat) (h : Upholds y z) : Upholds y (apronArrival e f z) := by
  unfold apronArrival
  dsimp only
  (repeat' split)
  · exact h.same (by simp)
  · exact upholds_settle (upholds_lookForHeads (h.same (by simp)))
  · exact upholds_settle (upholds_enterSeeking _ (h.same (by simp)))

theorem upholds_nozzleLift (p : Nat) (h : Upholds y z) : Upholds y (nozzleLift e p z) := by
  unfold nozzleLift
  (repeat' split)
  · exact h
  · exact h.same (by simp)
  · exact h.same (by simp)

theorem upholds_nozzleHang (p : Nat) (h : Upholds y z) : Upholds y (nozzleHang e p z) := by
  unfold nozzleHang
  (repeat' split)
  · exact h
  · exact upholds_settle (upholds_endTurn _ _ _ (h.same (by simp)))
  · exact h

theorem upholds_meterPulse (p : Nat) (h : Upholds y z) : Upholds y (meterPulse e p z) := by
  unfold meterPulse
  (repeat' split)
  · exact h
  · exact h.same (by simp)
  · exact h

theorem upholds_noFlow (p : Nat) (h : Upholds y z) : Upholds y (noFlow e p z) := by
  unfold noFlow
  (repeat' split)
  · exact h
  · exact upholds_settle (upholds_pumpOut _ (upholds_notify _ _ _ _
      (upholds_setPump _ (fun _ => rfl) (upholds_endTurn _ _ _ (h.same (by simp))))))
  · exact h

theorem upholds_agingEnd (h : Upholds y z) : Upholds y (agingEnd e z) := by
  unfold agingEnd
  split
  · exact h
  · exact h.same (by simp)

theorem upholds_reopenPump (p : Nat) (h : Upholds y z) : Upholds y (reopenPump e p z) :=
  upholds_settle (upholds_lookForHeads (h.same (by simp)))

/-! ## Wash lanes (R141 to R155) -/

theorem upholds_setWash (w : Nat) {f : WashLane → WashLane} (hf : ∀ l, (f l).cfg = l.cfg) (h : Upholds y z) :
    Upholds y (setWash e w f z) := h.same (by simp [hf])

theorem upholds_removeExpect (k : PointKind) (i f : Nat) (h : Upholds y z) : Upholds y (removeExpect e k i f z) :=
  h.same (by simp)

theorem upholds_pushExpect {k : PointKind} {i f : Nat} {timed : Bool} (ht : pushExpect e k i f timed z = some z')
    (h : Upholds y z) : Upholds y z' := by
  obtain ⟨p, -, -, -, rfl⟩ := pushExpect_eq_some.1 ht
  exact h.same (by simp)

theorem upholds_endWash (w f : Nat) (mark : WashMark) (h : Upholds y z) : Upholds y (endWash w f mark z) := by
  unfold endWash
  split
  · exact upholds_nextStep _ (h.same (by simp))
  · exact h

theorem upholds_skipHead (w : Nat) (en : WashEntry) (h : Upholds y z) : Upholds y (skipHead e w en z) :=
  upholds_notify _ _ _ _ (upholds_nextStep _ (h.same (by simp)))

theorem upholds_washCallOnce (w : Nat) (h : Upholds y z) : Upholds y (washCallOnce e w z) := by
  unfold washCallOnce
  (repeat' split)
  · exact h
  · exact upholds_skipHead _ _ h
  · exact h.same (by simp)
  · exact h

theorem upholds_washCallTimes (w n : Nat) (h : Upholds y z) : Upholds y (washCallTimes e w n z) := by
  induction n generalizing z with
  | zero => exact h
  | succ n ih => exact ih (upholds_washCallOnce w h)

theorem upholds_washCall (w : Nat) (h : Upholds y z) : Upholds y (washCall e w z) := upholds_washCallTimes w _ h

theorem upholds_washSkip (w : Nat) (h : Upholds y z) : Upholds y (washSkip e w z) := by
  unfold washSkip
  dsimp only
  (repeat' split)
  · exact h
  · exact upholds_settle (upholds_washCall _ (h.same (by simp)))
  · exact upholds_settle (upholds_washCall _ (upholds_notify _ _ _ _ (upholds_loseRec _ _ (h.same (by simp)))))
  · exact h

theorem upholds_washArrival (w : Nat) (x : Expect) (h : Upholds y z) : Upholds y (washArrival e w x z) := by
  unfold washArrival
  dsimp only
  (repeat' split)
  · exact h
  · exact h.same (by simp)
  · exact h.same (by simp)
  · exact h.same (by simp)

theorem upholds_washDwell (w : Nat) (h : Upholds y z) : Upholds y (washDwell e w z) := by
  unfold washDwell
  (repeat' split)
  · exact h
  · exact h.same (by simp)
  · exact h

theorem upholds_washInClear (w : Nat) (h : Upholds y z) : Upholds y (washInClear e w z) := by
  unfold washInClear
  (repeat' split)
  · exact h
  · exact upholds_settle (upholds_notify _ _ _ _ (upholds_setWash _ (fun _ => rfl) (upholds_endWash _ _ _ h)))
  · exact h

theorem upholds_washBusy (w : Nat) (h : Upholds y z) : Upholds y (washBusy e w z) := by
  unfold washBusy
  (repeat' split)
  · exact h
  · exact h.same (by simp)
  · exact h

theorem upholds_washDone (w : Nat) (h : Upholds y z) : Upholds y (washDone e w z) := by
  unfold washDone
  (repeat' split)
  · exact h
  · exact upholds_settle (upholds_endWash _ _ _ (upholds_setWash _ (fun _ => setEstimate_cfg _ _ _) h))
  · exact h

theorem upholds_washOutClear (w : Nat) (h : Upholds y z) : Upholds y (washOutClear e w z) := by
  unfold washOutClear
  (repeat' split)
  · exact h
  · exact upholds_settle (upholds_checkAdrift _ _ _ (upholds_washCall _ (h.same (by simp))))
  · exact upholds_settle (upholds_checkAdrift _ _ _ (h.same (by simp)))
  · exact h

theorem upholds_handOnEntry (w : Nat) (en : WashEntry) (h : Upholds y z) : Upholds y (handOnEntry e w en z) := by
  have removed := upholds_removeExpect (e := e) .washIn w en.fleet h
  have listed : ∀ {x}, Upholds y x → ∀ l, Upholds y { x with wash.faultList := l } := fun hx _ => hx.same (by simp)
  unfold handOnEntry
  dsimp only
  split
  · rename_i ht
    unfold pushHandedOn at ht
    split at ht
    · exact (upholds_pushExpect ht removed).same (by simp)
    · cases ht
  · exact listed (upholds_enterSeeking _ removed) _

theorem upholds_handOnQueue (w : Nat) (l : List WashEntry) (h : Upholds y z) : Upholds y (handOnQueue e w l z) :=
  upholds_washCall _ (upholds_foldl (g := fun y en => handOnEntry e w en y) (fun en _ => upholds_handOnEntry w en) _
    (h.same (by simp)))

theorem upholds_abortInside (w : Nat) (l : WashLane) (h : Upholds y z) : Upholds y (abortInside w l z) := by
  unfold abortInside
  (repeat' split)
  · exact upholds_endWash _ _ _ h
  · exact h
  · exact h

theorem upholds_washOut (w d : Nat) (h : Upholds y z) : Upholds y (washOut e w d z) := by
  unfold washOut
  (repeat' split)
  · exact h
  · exact h
  · exact upholds_settle (upholds_handOnQueue _ _ (upholds_foldl
      (g := fun y (x : WashEntry) => placeRec x.fleet .expected (.wash w) y) (fun _ _ hx => hx.same (by simp)) _
      (upholds_notify _ _ _ _ (upholds_abortInside _ _ (h.same (by simp))))))

theorem upholds_freeWash (w : Nat) (h : Upholds y z) : Upholds y (freeWash e w z) :=
  upholds_settle (upholds_washCall _ (h.same (by simp)))

end Sys2Proof.Machine
end

section
/-! SUPPORT. The rules of Upholds for dropped records (R14 to R17), points and lanes (R99 to R108, R191 to R197), and the line
interface (chapter 2). -/

namespace Sys2Proof.Machine

variable {e : Env} {y z z' : Yard}

/-! ## A record dropped (R14 to R17) -/

theorem upholds_endCall (loc : Loc) (f : Nat) (h : Upholds y z) : Upholds y (endCall e loc f z) := by
  unfold endCall
  split
  · exact upholds_washCall _ (h.same (by simp))
  · split
    · exact upholds_lookForHeads (h.same (by simp))
    · exact h

theorem upholds_endEntries (r : Record) (h : Upholds y z) : Upholds y (endEntries e r z) := by
  unfold endEntries
  dsimp only
  split
  · exact h.same (by simp)
  · exact h.same (by simp)
  · split <;> exact h.same (by simp)
  · split <;> exact h.same (by simp)
  · exact h.same (by simp)
  · exact h.same (by simp)
  · exact upholds_endCall _ _ h
  · exact h

theorem upholds_dropRecord (f : Nat) (h : Upholds y z) : Upholds y (dropRecord e f z) := by
  unfold dropRecord
  split
  · exact h
  · exact upholds_removeRec _ (upholds_endEntries _ (h.same (by simp)))

theorem upholds_custodyCheck (f q : Nat) (ref : SeekRef) (h : Upholds y z) : Upholds y (custodyCheck e f q ref z).2 :=
  by
  unfold custodyCheck
  (repeat' split)
  · exact h
  · exact h.same (by simp)
  · exact upholds_dropRecord _ h

theorem upholds_ownerTimeout (k : PointKind) (i f : Nat) (h : Upholds y z) : Upholds y (ownerTimeout e k i f z) :=
  h.same (by simp)

theorem upholds_travelTimeout (f : Nat) (h : Upholds y z) : Upholds y (travelTimeout e f z) := by
  unfold travelTimeout
  split
  · split
    · exact h
    · exact upholds_settle (upholds_notify _ _ _ _ (upholds_ownerTimeout _ _ _ (upholds_loseRec _ _ (h.same (by simp)))))
  · exact h

/-! ## Points (R99 to R108, R180, R191 to R195) -/

theorem upholds_laneExit (n : Nat) (h : Upholds y z) : Upholds y (laneExit e n z) := by
  have dropped : ∀ f {x}, Upholds y x → Upholds y (dropExitOffer e f x) := fun _ _ hx => hx.same (by simp)
  unfold laneExit
  (repeat' split)
  · exact h.same (by simp)
  · exact h.same (by simp)
  · exact upholds_notify _ _ _ _ (upholds_loseRec _ _ (h.same (by simp)))
  · exact upholds_notify _ _ _ _ (dropped _ (upholds_loseRec _ _ (h.same (by simp))))

theorem upholds_exitPassage (f : Nat) (h : Upholds y z) : Upholds y (exitPassage e f z) := by
  have served : ∀ d k g l {x}, Upholds y x → Upholds y (removeDuty d (notify e k (some g) none l x)) :=
    fun _ _ _ _ _ hx => hx.same (by simp)
  unfold exitPassage
  dsimp only
  split
  · exact served _ _ _ _ (upholds_removeRec _ h)
  · exact upholds_removeRec _ h

theorem upholds_washIntruder (w : Nat) (h : Upholds y z) : Upholds y (washIntruder e w z) := by
  unfold washIntruder
  (repeat' split)
  · exact h
  · exact h
  · exact upholds_notify _ _ _ _ h

theorem upholds_intruder (k : PointKind) (i : Nat) (h : Upholds y z) : Upholds y (intruder e k i z) := by
  cases k with
  | gateOut => exact upholds_notify _ _ _ _ h
  | apronIn => exact upholds_notify _ _ _ _ h
  | laneIn => exact upholds_notify _ _ _ _ h
  | washIn => exact upholds_washIntruder i h
  | _ => exact h

theorem upholds_arrival (k : PointKind) (i : Nat) (x : Expect) (h : Upholds y z) : Upholds y (arrival e k i x z) := by
  cases k with
  | gateOut => exact upholds_exitPassage _ h
  | apronIn => exact upholds_apronArrival _ h
  | washIn => exact upholds_washArrival _ _ h
  | laneIn => exact h.same (by simp [arrival])
  | _ => exact h

theorem upholds_arriveAt (k : PointKind) (i : Nat) (h : Upholds y z) : Upholds y (arriveAt e k i z) := by
  have popped : Upholds y (popExpect e k i z).2 := h.same (by simp)
  unfold arriveAt
  split
  · split
    · rename_i pop
      rw [pop] at popped
      exact upholds_arrival _ _ _ popped
    · rename_i pop
      rw [pop] at popped
      exact upholds_intruder _ _ popped
  · split
    · exact h.same (by simp)
    · exact h.same (by simp)
    · exact h

theorem upholds_clearAt (k : PointKind) (i : Nat) (h : Upholds y z) : Upholds y (clearAt e k i z) := by
  have lit : ∀ n, Upholds y (setSign e n 0 z) := fun n => h.same (by simp)
  unfold clearAt
  cases k with
  | bay => exact upholds_bayClear _ (lit _)
  | washIn => exact upholds_washInClear _ h
  | washOut => exact upholds_washOutClear _ (lit _)
  | laneIn => exact h.same (by simp [PointKind.sign])
  | laneOut => exact upholds_laneExit _ h
  | gateIn => exact lit _
  | _ => exact h

theorem upholds_dwellAt (k : PointKind) (i : Nat) (h : Upholds y z) : Upholds y (dwellAt e k i z) := by
  unfold dwellAt
  split
  · exact h.same (by simp)
  · exact upholds_washDwell _ h
  · exact h

theorem upholds_contactEvent (row : Nat) (ev : Nat × Bool) (h : Upholds y z) : Upholds y (contactEvent e row z ev) :=
  by
  unfold contactEvent
  (repeat' split)
  · exact h
  · exact upholds_settle (upholds_arriveAt _ _ (h.same (by simp)))
  · exact upholds_settle (upholds_clearAt _ _ (h.same (by simp)))

theorem upholds_dwellExpiry (row col : Nat) (h : Upholds y z) : Upholds y (dwellExpiry e row col z) := by
  unfold dwellExpiry
  split
  · exact h
  · split
    · exact h
    · exact upholds_dwellAt _ _ (h.same (by simp))

theorem upholds_signSent (h : Upholds y z) : Upholds y (signSent z) := by
  unfold signSent
  split
  · exact h
  · refine h.same ?_
    simp only [Yard.holdings_eq, Yard.cfgs_eq, kick_signs]
    rw [updFirst_map _ _ _ fun _ => by rfl]

/-! ## The line interface (R23 to R38) -/

theorem upholds_endOpening (n : Option SeekRef) (pooled : Bool) (h : Upholds y z) :
    Upholds y (endOpening e n pooled z) := h.same (by simp)

theorem upholds_opening (others : Option ArbKey) (h : Upholds y z) : Upholds y (opening e others z) := by
  have begun : ∀ t {x}, Upholds y x → Upholds y (beginSend e t x) := fun _ _ hx => hx.same rfl
  unfold opening
  dsimp only
  (repeat' split)
  · exact h
  · exact begun _ (h.same (by simp))
  · exact begun _ (h.same (by simp))
  · exact h.same (by simp)
  · exact h.same (by simp)
  · exact upholds_settle (h.same (by simp))

theorem upholds_reserve {c : Choice} (won : reserve e c z = some z') (h : Upholds y z) : Upholds y z' := by
  unfold reserve at won
  split at won
  · obtain ⟨l, -, -, rfl⟩ := laneReserve_eq_some.1 won
    exact h.same (by simp [Lane.enter])
  · obtain ⟨-, rfl⟩ := apronReserve_eq_some.1 won
    exact h.same rfl
  · obtain ⟨l, -, -, rfl⟩ := washReserve_eq_some.1 won
    exact h.same (by simp)

theorem upholds_offerWon (h : Upholds y z) : Upholds y (offerWon e z) := by
  have listed : ∀ l {x}, Upholds y x → Upholds y { x with seek.offers := l } := fun _ _ hx => hx.same rfl
  unfold offerWon
  dsimp only
  split
  · exact h
  · split
    · split
      · split
        · exact h.same (by simp)
        · exact h.same (by simp)
      · exact h.same (by simp)
    · split
      · rename_i won
        exact listed _ (upholds_reserve won (h.same (by simp)))
      · exact h.same (by simp)

theorem upholds_reportCarried (r : TxReq) (h : Upholds y z) : Upholds y (reportCarried e r z) := by
  unfold reportCarried
  split
  · exact h.same (by simp)
  · exact upholds_offerWon h
  · exact h.same (by simp)

theorem upholds_reportDropped (r : TxReq) (h : Upholds y z) : Upholds y (reportDropped e r z) := by
  unfold reportDropped
  (repeat' split)
  · exact h.same (by simp)
  · exact h
  · exact h
  · exact h.same (by simp)

/-- The malformed check lets a TIME of a minute of the day through, and no other (R39). -/
theorem parse_time_lt {own : Nat} {r : RawFrame} {f : Frame} (h : r.parse own = some f) {m : Nat}
    (time : f.body = .time m) : m < 1440 := by
  obtain ⟨-, -, -, -, -, range⟩ := wellFormed_iff.1 (parse_eq_some h).1
  rw [time] at range
  exact Nat.lt_succ_of_le range

theorem upholds_poolFrame (r : RawFrame) (h : Upholds y z) : Upholds y (poolFrame e r z) := by
  unfold poolFrame
  split
  · exact h.same (by simp)
  · rename_i f parsed
    split
    · refine h.trans ⟨id, rfl, fun minutes g hg m time => ?_⟩
      rcases List.mem_append.1 hg with old | new
      · exact minutes g old m time
      · obtain rfl := List.mem_singleton.1 new
        exact parse_time_lt parsed time
    · exact h.same (by simp)

theorem upholds_otherCarried (r : RawFrame) (h : Upholds y z) : Upholds y (otherCarried e r z) := by
  unfold otherCarried
  dsimp only
  split
  · exact upholds_endOpening _ _ (upholds_poolFrame r h)
  · exact upholds_endOpening _ _ h

theorem upholds_ownCarried (t : TxSlot) (h : Upholds y z) : Upholds y (ownCarried e t z) := by
  unfold ownCarried
  dsimp only
  split
  · exact h.same (by simp)
  · exact upholds_endOpening _ _ (upholds_reportCarried _ (h.same (by simp)))

theorem upholds_frameCarried (bits : List Bool) (h : Upholds y z) : Upholds y (frameCarried e bits z) := by
  unfold frameCarried
  (repeat' split)
  · exact h
  · exact h
  · exact upholds_settle (upholds_ownCarried _ h)
  · exact h
  · exact upholds_settle (upholds_otherCarried _ h)

theorem upholds_frameDamaged (d : Damage) (h : Upholds y z) : Upholds y (frameDamaged e d z) := by
  unfold frameDamaged
  dsimp only
  (repeat' split)
  · exact h
  · exact upholds_settle (h.same (by simp))
  · exact upholds_settle (h.same (by simp))

theorem upholds_sendDamaged (h : Upholds y z) : Upholds y (sendDamaged e z) := by
  unfold sendDamaged
  dsimp only
  (repeat' split)
  · exact h
  · exact upholds_settle (h.same (by simp))
  · exact upholds_settle (h.same (by simp))
  · exact upholds_settle (h.same (by simp))
  · exact upholds_settle (upholds_endOpening _ _ (upholds_reportDropped _ (h.same (by simp))))

end Sys2Proof.Machine
end

section
/-! SUPPORT. The rules of Upholds for the frames handed over (chapter 3, R17, R19, R71, R177). -/

namespace Sys2Proof.Machine

variable {e : Env} {y z z' : Yard}

/-! ## Handing over (R33) -/

theorem upholds_dropHead (h : Upholds y z) : Upholds y (dropHead z) :=
  h.poolShrinks (dropFirst_sublist _ _).subset

theorem upholds_takeSeek {f : Frame} (taken : takeSeek z = some (f, z')) (h : Upholds y z) : Upholds y z' := by
  obtain ⟨g, -, eq⟩ := Option.map_eq_some_iff.1 taken
  obtain ⟨-, rfl⟩ := Prod.mk.inj eq
  exact h.poolShrinks (dropFirst_sublist _ _).subset

/-! ## Operations behind another one -/

theorem upholds_onSeek (n : Nat) (f : SeekEntry → SeekEntry) (h : Upholds y z) : Upholds y (onSeek n f z) :=
  h.same (by simp)

theorem upholds_onOffer (held : Bool) (ref : SeekRef) (f : Nat) (g : OfferEntry → OfferEntry) (h : Upholds y z) :
    Upholds y (onOffer held ref f g z) := h.same (by simp)

theorem upholds_removeOffer (held : Bool) (ref : SeekRef) (f : Nat) (h : Upholds y z) :
    Upholds y (removeOffer held ref f z) := h.same (by simp)

theorem upholds_dropLapsed (ref : SeekRef) (f : Nat) (h : Upholds y z) : Upholds y (dropLapsed ref f z) :=
  h.same (by simp)

theorem upholds_noteTaken (ref : SeekRef) (f : Nat) (h : Upholds y z) : Upholds y (noteTaken ref f z) :=
  h.same (by simp)

theorem upholds_reply (a : Answer) (q : Nat) (ref : SeekRef) (f : Nat) (h : Upholds y z) :
    Upholds y (reply e a q ref f z) := upholds_send _ h

theorem upholds_setFlag (f : LineFlag) (h : Upholds y z) : Upholds y (setFlag e f z) := h.same (by simp)

theorem upholds_endCallOut (o : OfferEntry) (h : Upholds y z) : Upholds y (endCallOut e o z) := h.same (by simp)

theorem upholds_releaseRes (res : Resource) (ref : SeekRef) (f : Nat) (h : Upholds y z) :
    Upholds y (releaseRes res ref f z) := h.same (by simp)

/-! ## SEEK (R55) -/

theorem upholds_makeOffer (ref : SeekRef) (what : Summary) (c : Candidate) (h : Upholds y z) :
    Upholds y (makeOffer e ref what c z) := by
  unfold makeOffer
  dsimp only
  (repeat' split) <;> exact h.same (by simp)

theorem upholds_seekCheck (source : Nat) (ref : SeekRef) (what : Summary) (h : Upholds y z) :
    Upholds y (seekCheck e source ref what z).2 := by
  unfold seekCheck
  split
  · exact upholds_custodyCheck _ _ _ h
  · exact h

theorem upholds_decideOffer (source : Nat) (ref : SeekRef) (excl : List Nat) (what : Summary) (h : Upholds y z) :
    Upholds y (decideOffer e source ref excl what z) := by
  have checked := upholds_seekCheck (e := e) source ref what h
  unfold decideOffer
  dsimp only
  split
  · exact checked
  · split
    · exact upholds_makeOffer _ _ _ checked
    · exact checked

theorem upholds_seekReceived (h : Upholds y z) : Upholds y (seekReceived e z) := by
  unfold seekReceived
  split
  · exact h
  · rename_i taken
    have taken := upholds_takeSeek taken h
    split
    · exact upholds_settle (upholds_decideOffer _ _ _ _ taken)
    · exact taken

/-! ## OFFER (R53, R72) -/

theorem upholds_takePushOffer (n f : Nat) (w : Winner) (h : Upholds y z) : Upholds y (takePushOffer e n f w z) := by
  refine upholds_send _ (h.custodyOnly (by simp) fun c => ?_)
  exact custodyKept_of_fleets ((onRec_fleets (fun _ => by rfl) _).trans (by simp)) (c.once.filter _) c

theorem upholds_offerCheck (source : Nat) (ref : SeekRef) (f : Option Nat) (h : Upholds y z) :
    Upholds y (offerCheck e source ref f z).2 := by
  unfold offerCheck
  split
  · exact upholds_custodyCheck _ _ _ h
  · exact h

theorem upholds_cancelOffer (source : Nat) (ref : SeekRef) (f : Option Nat) (h : Upholds y z) :
    Upholds y (cancelOffer e source ref f z) := by
  unfold cancelOffer
  (repeat' split) <;> exact h.same (by simp)

theorem upholds_takeOffer (source : Nat) (ref : SeekRef) (cost area : Nat) (f : Option Nat) (h : Upholds y z) :
    Upholds y (takeOffer e source ref cost area f z) := by
  have checked := upholds_offerCheck (e := e) source ref f h
  unfold takeOffer
  dsimp only
  split
  · split
    · exact upholds_takePushOffer _ _ _ h
    · split
      · exact upholds_excludeAndRetry _ _ checked
      · exact upholds_onSeek _ _ checked
  · split
    · exact upholds_cancelOffer _ _ _ checked
    · exact checked

theorem upholds_offerReceived (h : Upholds y z) : Upholds y (offerReceived e z) := by
  unfold offerReceived
  split
  · exact upholds_settle (upholds_takeOffer _ _ _ _ _ (upholds_dropHead h))
  · exact h

/-! ## TAKEN, HOLD and REFUSE (R59 to R64, R69) -/

theorem upholds_lightDirection (loc : Loc) (area : Nat) (sv : Service) (h : Upholds y z) :
    Upholds y (lightDirection e loc area sv z) := by
  unfold lightDirection
  split
  · exact h.same (by simp)
  · exact h

theorem upholds_handoverTaken (en : SeekEntry) (f : Nat) (w : Winner) (h : Upholds y z) :
    Upholds y (handoverTaken e en f w z) := by
  have retired : Upholds y (removeRec f (removeSeek en.number (withdrawHandover e en.number z))) :=
    upholds_removeRec f (h.same (by simp))
  unfold handoverTaken
  dsimp only
  split
  · exact upholds_lightDirection _ _ _ retired
  · exact retired

theorem upholds_exitTaken (o : OfferEntry) (h : Upholds y z) : Upholds y (exitTaken e o z) := by
  have ended : ∀ {x}, Upholds y x → Upholds y (removeOffer false o.ref o.fleet (withdrawExit e o.ref o.fleet x)) :=
    fun hx => hx.same (by simp)
  refine upholds_removeRec _ (ended ?_)
  split
  · exact h.same (by simp)
  · exact h

theorem upholds_exitFailed (o : OfferEntry) (h : Upholds y z) : Upholds y (exitFailed e o z) :=
  upholds_endCallOut _ (upholds_notify _ _ _ _ h)

theorem upholds_pushHold (en : SeekEntry) (h : Upholds y z) : Upholds y (pushHold e en z) := by
  have withdrawn : Upholds y (withdrawHandover e en.number z) := h.same (by simp)
  unfold pushHold
  dsimp only
  split
  · exact upholds_onSeek _ _ withdrawn
  · exact upholds_handoverFailed _ withdrawn

theorem upholds_exitHold (o : OfferEntry) (h : Upholds y z) : Upholds y (exitHold e o z) := by
  unfold exitHold
  split
  · exact h.same (by simp)
  · exact upholds_exitFailed _ h

theorem upholds_pushRefused (en : SeekEntry) (f : Nat) (w : Winner) (h : Upholds y z) :
    Upholds y (pushRefused e en f w z) :=
  upholds_excludeAndRetry _ _ (upholds_enterSeeking _ (h.same (by simp)))

theorem upholds_takeAnswer (a : Answer) (source : Nat) (ref : SeekRef) (f : Nat) (h : Upholds y z) :
    Upholds y (takeAnswer e a source ref f z) := by
  unfold takeAnswer
  split
  · split
    · exact upholds_handoverTaken _ _ _ h
    · exact upholds_pushHold _ h
    · exact upholds_pushRefused _ _ _ h
    · exact h
  · split
    · split
      · exact upholds_exitTaken _ h
      · exact upholds_exitHold _ h
      · exact upholds_endCallOut _ h
    · exact h.same (by simp)

theorem upholds_answerReceived (a : Answer) (h : Upholds y z) : Upholds y (answerReceived e a z) := by
  unfold answerReceived
  split
  · split
    · exact upholds_settle (upholds_takeAnswer _ _ _ _ (upholds_dropHead h))
    · exact h
  · exact h

/-! ## HANDOVER (R65 to R67, R177) -/

theorem upholds_commitRes (res : Resource) (ref : SeekRef) (b : Carried) (late : Bool) (h : Upholds y z) :
    Upholds y (commitRes e res ref b late z) := by
  cases res with
  | lane l => exact h.same (by simp [commitRes])
  | apron f => exact h.same (by simp [commitRes])
  | wash w => exact upholds_washCall w (h.same (by simp))

theorem upholds_insertTaken {res : Resource} {ref : SeekRef} {b : Carried} {late : Bool}
    (taken : insertTaken e res ref b late z = .taken z') (h : Upholds y z) : Upholds y z' := by
  unfold insertTaken at taken
  split at taken
  · cases taken
  · cases taken
  · rename_i inserted
    split at taken
    · cases taken
    · rename_i pushed
      cases taken
      exact upholds_commitRes _ _ _ _ (upholds_pushExpect pushed (upholds_addRec inserted h))

theorem upholds_takeLive (q : Nat) (o : OfferEntry) (b : Carried) (h : Upholds y z) : Upholds y (takeLive e q o b z) :=
  by
  have givenUp := upholds_removeOffer true o.ref o.fleet (upholds_releaseRes o.resource o.ref o.fleet h)
  unfold takeLive
  dsimp only
  split
  · split
    · exact upholds_reply _ _ _ _ givenUp
    · exact upholds_reply _ _ _ _ (upholds_onOffer _ _ _ _ h)
    · rename_i taken
      exact upholds_reply _ _ _ _ (upholds_noteTaken _ _ (upholds_removeOffer _ _ _ (upholds_insertTaken taken h)))
  · exact upholds_reply _ _ _ _ givenUp

theorem upholds_takeLate (q : Nat) (i : LapsedItem) (b : Carried) (h : Upholds y z) : Upholds y (takeLate e q i b z) :=
  by
  unfold takeLate
  split
  · split
    · exact upholds_reply _ _ _ _ (upholds_dropLapsed _ _ h)
    · exact upholds_reply _ _ _ _ h
    · rename_i taken
      exact upholds_reply _ _ _ _ (upholds_noteTaken _ _ (upholds_dropLapsed _ _ (upholds_insertTaken taken h)))
  · exact upholds_reply _ _ _ _ (upholds_setFlag _ (upholds_dropLapsed _ _ h))

theorem upholds_gateTaken (q : Nat) (ref : SeekRef) (n d : Nat) (b : Carried) (h : Upholds y z) :
    Upholds y (gateTaken e q ref n d b z) := by
  have replied := upholds_reply (e := e) .taken q ref b.fleet h
  unfold gateTaken
  dsimp only
  split
  · exact replied.same (by simp)
  · exact replied.same (by simp)

theorem upholds_takeAtGate (q : Nat) (ref : SeekRef) (n d : Nat) (b : Carried) (h : Upholds y z) :
    Upholds y (takeAtGate e q ref n d b z) := by
  have held : ∀ f, Upholds y (reply e .hold q ref b.fleet (onSeek n f z)) :=
    fun f => upholds_reply _ _ _ _ (upholds_onSeek n f h)
  unfold takeAtGate
  dsimp only
  split
  · split
    · exact upholds_reply _ _ _ _ h
    · exact held _
    · rename_i inserted
      split
      · exact held _
      · rename_i pushed
        exact upholds_gateTaken _ _ _ _ _ (upholds_pushExpect pushed (upholds_addRec inserted h))
  · exact upholds_reply _ _ _ _ h

theorem upholds_takeHandover (q : Nat) (ref : SeekRef) (b : Carried) (h : Upholds y z) :
    Upholds y (takeHandover e q ref b z) := by
  unfold takeHandover
  split
  · exact upholds_takeLive _ _ _ h
  · split
    · exact upholds_takeAtGate _ _ _ _ _ h
    · split
      · exact upholds_reply _ _ _ _ h
      · split
        · exact upholds_takeLate _ _ _ h
        · exact upholds_reply _ _ _ _ (upholds_setFlag _ h)

theorem upholds_handoverReceived (h : Upholds y z) : Upholds y (handoverReceived e z) := by
  unfold handoverReceived
  split
  · exact upholds_settle (upholds_takeHandover _ _ _ (upholds_dropHead h))
  · exact h

/-! ## CLAIM, CANCEL, REPIN and TIME (R17, R71, R19, R47) -/

theorem upholds_claimReceived (h : Upholds y z) : Upholds y (claimReceived e z) := by
  unfold claimReceived
  split
  · exact upholds_settle (upholds_dropRecord _ (upholds_dropHead h))
  · exact h

theorem upholds_takeCancel (ref : SeekRef) (f : Nat) (h : Upholds y z) : Upholds y (takeCancel e ref f z) := by
  unfold takeCancel
  split
  · exact upholds_removeOffer _ _ _ (upholds_releaseRes _ _ _ h)
  · split
    · exact upholds_endCallOut _ h
    · exact upholds_dropLapsed _ _ h

theorem upholds_cancelReceived (h : Upholds y z) : Upholds y (cancelReceived e z) := by
  unfold cancelReceived
  split
  · exact upholds_settle (upholds_takeCancel _ _ (upholds_dropHead h))
  · exact h

theorem upholds_repinReceived (h : Upholds y z) : Upholds y (repinReceived z) := by
  have repinned : ∀ f p {x}, Upholds y x → Upholds y (repin f p x) := fun _ _ _ hx => hx.same (by simp)
  unfold repinReceived
  split
  · exact repinned _ _ (upholds_dropHead h)
  · exact h

theorem upholds_withdrawTime (m : Nat) (h : Upholds y z) : Upholds y (withdrawTime e m z) :=
  h.same (by simp [withdrawTime])

end Sys2Proof.Machine
end

section
/-! SUPPORT. The rules of Upholds for the timers (R54 to R69), the tag reader and the plant inputs (R160 to R167),
START (R211), the host's commands and a millisecond of the crystal. -/

namespace Sys2Proof.Machine

variable {e : Env} {y z z' : Yard}

/-! ## The seek engine's timers -/

theorem upholds_announce (seen : Option Nat) (n : Nat) (h : Upholds y z) : Upholds y (announce e seen n z) := by
  have sent : Upholds y (send e (.time n) (withdraw e TxReq.isTime z)) := h.same (by simp)
  unfold announce
  dsimp only
  (repeat' split)
  · exact h
  · exact sent
  · exact h
  · exact sent

theorem upholds_retryExpiry (n : Nat) (h : Upholds y z) : Upholds y (retryExpiry e n z) := by
  unfold retryExpiry
  (repeat' split)
  · exact h.same (by simp)
  · exact h
  · exact h

theorem upholds_offerHoldExpiry (ref : SeekRef) (f : Nat) (h : Upholds y z) : Upholds y (offerHoldExpiry ref f z) :=
  by
  unfold offerHoldExpiry
  split
  · exact h.same (by simp)
  · exact h

theorem upholds_awaitingHoldExpiry (n : Nat) (h : Upholds y z) : Upholds y (awaitingHoldExpiry e n z) := by
  unfold awaitingHoldExpiry
  (repeat' split)
  · exact upholds_excludeAndRetry _ _ h
  · exact h
  · exact h

theorem upholds_sendPush (n : Nat) (h : Upholds y z) : Upholds y (sendPush e n z) :=
  upholds_send _ (upholds_onSeek _ _ h)

theorem upholds_sendExit (o : OfferEntry) (h : Upholds y z) : Upholds y (sendExit e o z) :=
  upholds_send _ (upholds_onOffer _ _ _ _ h)

theorem upholds_answerExpiry (i : HandoverId) (h : Upholds y z) : Upholds y (answerExpiry e i z) := by
  unfold answerExpiry
  (repeat' split)
  · exact upholds_sendPush _ h
  · exact upholds_settle (upholds_handoverFailed _ h)
  · exact h
  · exact h
  · exact upholds_sendExit _ h
  · exact upholds_settle (upholds_exitFailed _ h)
  · exact h
  · exact h

theorem upholds_holdEnd (i : HandoverId) (h : Upholds y z) : Upholds y (holdEnd e i z) := by
  unfold holdEnd
  (repeat' split)
  · exact upholds_sendPush _ h
  · exact h
  · exact h
  · exact upholds_sendExit _ h
  · exact h
  · exact h

/-! ## The tag reader and the plant inputs (R149, R160 to R167) -/

theorem upholds_pollFailed (h : Upholds y z) : Upholds y (pollFailed e z) := by
  unfold pollFailed
  dsimp only
  split
  · exact upholds_notify _ _ _ _ (h.same rfl)
  · exact h.same rfl

theorem upholds_pollTimer (lineLow : Bool) (h : Upholds y z) : Upholds y (pollTimer e lineLow z) := by
  unfold pollTimer
  dsimp only
  split
  · exact h
  · (repeat' split)
    · exact h.same rfl
    · exact upholds_pollFailed (h.same rfl)
    · exact h.same rfl

theorem upholds_tagRead (t : Vector Byte 8) (h : Upholds y z) : Upholds y (tagRead e t z) := by
  unfold tagRead
  split
  · exact h
  · exact h.same rfl
  · exact upholds_goodTag _ h

theorem upholds_pollEnd (sda : List Bool) (h : Upholds y z) : Upholds y (pollEnd e sda z) := by
  unfold pollEnd
  dsimp only
  split
  · exact h
  · split
    · exact h
    · exact h.same rfl
    · exact upholds_pollFailed (h.same rfl)
    · exact upholds_tagRead _ (h.same rfl)

theorem upholds_startStop (start : Bool) (h : Upholds y z) : Upholds y (startStop e start z) := by
  unfold startStop
  split
  · exact h.same rfl
  · exact h

theorem upholds_windowEnd (arrivals : Bool) (h : Upholds y z) : Upholds y (windowEnd e arrivals z) := by
  unfold windowEnd
  (repeat' split)
  · exact upholds_notify _ _ _ _ (h.same rfl)
  · exact h
  · exact h.same rfl

theorem upholds_setPlant (w : Nat) (i : PlantInput) (b : Bool) (h : Upholds y z) : Upholds y (setPlant w i b z) := by
  unfold setPlant
  split
  · exact h.same rfl
  · exact h.same rfl
  · exact h

theorem upholds_startExpiry (w : Nat) (h : Upholds y z) : Upholds y (startExpiry e w z) := by
  unfold startExpiry
  (repeat' split)
  · exact upholds_washOut _ _ h
  · exact h
  · exact h

theorem upholds_lineFollowBegin (h : Upholds y z) : Upholds y (lineFollowBegin z) := h.same rfl

/-! ## START (R211) -/

theorem startSigns_cfgs (z : Yard) : (startSigns z).cfgs = z.cfgs := by
  simp only [startSigns, Yard.cfgs_eq, kick_signs, List.map_map, Function.comp_def]

theorem startDwell_cfgs (contacts : List Contact) (z : Yard) :
    (startDwell contacts z).points.map (·.cfg) = z.points.map (·.cfg) := by
  unfold startDwell
  rw [List.map_map]
  refine List.map_congr_left fun p _ => ?_
  rw [Function.comp_apply]
  (repeat' split) <;> rfl

theorem upholds_startAging (h : Upholds y z) : Upholds y (startAging e z) := by
  unfold startAging
  split
  · exact h
  · exact h.same rfl

theorem upholds_startRepin (n : Nat) (h : Upholds y z) : Upholds y (startRepin e z n) := by
  unfold startRepin
  (repeat' split)
  · exact h
  · exact h.same (by simp)
  · exact h

theorem upholds_callIfDue (n : Nat) (h : Upholds y z) : Upholds y (callIfDue e n z) := h.same (by simp)

theorem upholds_startGate (h : Upholds y z) : Upholds y (startGate e z) := by
  unfold startGate
  dsimp only
  split
  · exact h
  · exact upholds_foldl (fun _ _ => upholds_startRepin _) _
      (upholds_foldl (g := fun y n => callIfDue e n y) (fun _ _ => upholds_callIfDue _) _ (h.same rfl))

theorem upholds_startBlocks (contacts : List Contact) (h : Upholds y z) : Upholds y (startBlocks contacts e z) := by
  have signs : Upholds y (startSigns z) := h.trans ⟨id, startSigns_cfgs z, id⟩
  have dwell : Upholds y (startDwell contacts (startSigns z)) :=
    signs.same (by simp only [Yard.holdings_eq, Yard.cfgs_eq, startDwell_cfgs]; rfl)
  exact upholds_settle (upholds_startGate (upholds_startAging dwell))

/-! ## The host's commands -/

theorem upholds_placeParked {lane : Nat} {b : BusFields} (inserted : insertAnswer b.fleet z = .inserted)
    (h : Upholds y z) : Upholds y (placeParked lane b e z) :=
  (upholds_addRec (r := ⟨freshBus b [] e.minute, .parked, .lane lane⟩) inserted h).same
    (by simp [placeParked])

theorem upholds_setStock (f : Fuel) (v : Nat) (h : Upholds y z) : Upholds y (setStock f v e z) :=
  h.same (by simp [setStock])

theorem upholds_deliver (f : Fuel) (v : Nat) (h : Upholds y z) : Upholds y (deliver f v e z) :=
  h.same (by simp [deliver])

theorem upholds_loadDuty (f : DutyFields) (h : Upholds y z) : Upholds y (loadDuty f e z) := by
  have listed : ∀ l, Upholds y { z with gate.duties := l } := fun _ => h.same rfl
  have pinned : ∀ l g n d, Upholds y (pinRec g d (pair n g { z with gate.duties := l })) := fun _ _ _ _ => h.same (by simp)
  unfold loadDuty
  dsimp only
  split
  · refine upholds_settle (upholds_callIfDue _ ?_)
    split
    · exact listed _
    · exact upholds_send _ (pinned _ _ _ _)
  · split
    · exact listed _
    · exact pinned _ _ _ _

theorem upholds_dropDuty (n : Nat) (h : Upholds y z) : Upholds y (dropDuty n e z) := by
  unfold dropDuty
  split <;> exact h.same (by simp)

theorem upholds_setClosed (lane : Nat) (b : Bool) (h : Upholds y z) :
    Upholds y (onLane lane (fun l => { l with closed := b }) z) := h.same (by simp)

theorem upholds_admitBus (b : BusFields) (h : Upholds y z) : Upholds y (admitBus b e z) :=
  upholds_settle (h.same (by simp))

theorem upholds_resolveGateIn (f : Nat) (h : Upholds y z) : Upholds y (resolveGateIn f e z) :=
  upholds_settle (upholds_nextStep _ (upholds_placeRec _ _ _ h))

theorem upholds_resolveGone (f : Nat) (h : Upholds y z) : Upholds y (resolveGone f e z) :=
  upholds_settle (upholds_removeRec _ h)

theorem upholds_resolveApron (r : Record) (h : Upholds y z) : Upholds y (resolveApron r e z) :=
  upholds_settle (upholds_lookForHeads (h.same (by simp)))

theorem upholds_resolveWash (w f : Nat) (h : Upholds y z) : Upholds y (resolveWash w f e z) :=
  upholds_settle (upholds_washCall _ (h.same (by simp)))

theorem upholds_resolveLane (l f : Nat) (h : Upholds y z) : Upholds y (resolveLane l f e z) :=
  h.same (by simp [resolveLane])

theorem upholds_resolveReseek (f : Nat) (h : Upholds y z) : Upholds y (resolveReseek f e z) :=
  upholds_settle (upholds_nextStep _ (upholds_placeRec _ _ _ h))

theorem upholds_clearYard (f : ClearFields) (h : Upholds y z) : Upholds y (clearYard f z) :=
  h.same (by simp [clearYard])

/-! ## A millisecond -/

theorem upholds_tick (h : Upholds y z) : Upholds y z.tick :=
  h.same (by simp [Yard.tick, Function.comp_def, Pump.tick, WashLane.tick])

end Sys2Proof.Machine
end

section
/-! SUPPORT. From yards to states: what a command that is no reset retains (Retains), the reset state, LOCK, the clock and the
scanner. -/

namespace Sys2Proof.Machine

variable {s t u : State}

/-! ## From a state to a state -/

/-- Layout and store stay, and the phase goes on only from LOCKED to RUNNING (R210, R215). -/
def State.LayoutStays (s t : State) : Prop :=
  t.layout = s.layout ∧ t.store = s.store ∧ (t.phase = s.phase ∨ (s.phase = .locked ∧ t.phase = .running))

/-- From s to t the registers' ranges, the layout held and the custody table are kept, and outside CONFIG the layout. -/
structure Retains (s t : State) : Prop where
  registers : s.registersInRange → t.registersInRange
  layout : s.layoutHeld → t.layoutHeld
  custody : s.yard.custodyKept → t.yard.custodyKept
  fixed : s.phase ≠ .config → s.LayoutStays t

theorem State.LayoutStays.refl (s : State) : s.LayoutStays s := ⟨rfl, rfl, .inl rfl⟩

theorem State.LayoutStays.outside (h : s.LayoutStays t) (hs : s.phase ≠ .config) : t.phase ≠ .config := by
  obtain ⟨-, -, same | ⟨-, running⟩⟩ := h
  · exact same ▸ hs
  · rw [running]
    decide

theorem State.LayoutStays.trans (h : s.LayoutStays t) (h' : t.LayoutStays u) : s.LayoutStays u := by
  obtain ⟨layout, store, phase⟩ := h
  obtain ⟨layout', store', phase'⟩ := h'
  refine ⟨layout'.trans layout, store'.trans store, ?_⟩
  rcases phase with same | ⟨locked, running⟩
  · rwa [same] at phase'
  · rcases phase' with same' | ⟨locked', -⟩
    · exact .inr ⟨locked, same'.trans running⟩
    · cases running.symm.trans locked'

theorem Retains.refl (s : State) : Retains s s := ⟨id, id, id, fun _ => .refl s⟩

theorem Retains.trans (h : Retains s t) (h' : Retains t u) : Retains s u :=
  ⟨h'.registers ∘ h.registers, h'.layout ∘ h.layout, h'.custody ∘ h.custody,
    fun hs => (h.fixed hs).trans (h'.fixed ((h.fixed hs).outside hs))⟩

/-- The layout is held when the resources' fields and the signs' numbers are those of it. -/
theorem layoutHeld_iff : s.layoutHeld ↔ s.yard.cfgs
    = (s.layout.lanes, s.layout.pumps, s.layout.washes, s.layout.points, s.layout.signs.map (·.number)) := by
  simp only [State.layoutHeld, Yard.cfgs_eq, Prod.mk.injEq]

/-- A change of the yard, the clock and the scanner, the clock's ranges drawn from those of the state at the start. -/
theorem Retains.parts (h : Retains u s) (yard : Upholds s.yard t.yard) (clock : u.registersInRange → t.clock.inRange)
    (scan : s.scan.inRange → t.scan.inRange)
    (same : (t.layout, t.store, t.phase) = (s.layout, s.store, s.phase)) : Retains u t := by
  simp only [Prod.mk.injEq] at same
  obtain ⟨layout, store, phase⟩ := same
  refine ⟨fun r => ⟨clock r, ?_⟩, fun l => ?_, yard.custody ∘ h.custody, fun hu => ?_⟩
  · obtain ⟨-, scanned, minutes⟩ := h.registers r
    exact ⟨scan scanned, yard.minutes minutes⟩
  · rw [layoutHeld_iff, yard.layout, layout]
    exact layoutHeld_iff.1 (h.layout l)
  · exact (h.fixed hu).trans ⟨layout, store, .inl phase⟩

/-- A change of the yard alone. -/
theorem Retains.yard {z : Yard} (h : Retains u s) (yard : Upholds s.yard z) : Retains u { s with yard := z } :=
  h.parts yard (fun r => (h.registers r).1) id rfl

/-- What leaves yard, clock, scanner, layout, store and phase. -/
theorem Retains.same (h : Retains u s) (same : (t.yard, t.clock, t.scan, t.layout, t.store, t.phase)
    = (s.yard, s.clock, s.scan, s.layout, s.store, s.phase)) : Retains u t := by
  simp only [Prod.mk.injEq] at same
  obtain ⟨yard, clock, scan, rest⟩ := same
  refine h.parts (yard ▸ .refl _) (fun r => clock ▸ (h.registers r).1) (fun r => scan ▸ r) ?_
  simpa only [Prod.mk.injEq] using rest

theorem retains_inYard {f : Env → Yard → Yard} (h : Upholds s.yard (f s.env s.yard)) : Retains s (s.inYard f) :=
  (Retains.refl s).yard h

theorem retains_whenRunning {f : Env → Yard → Yard} (h : Upholds s.yard (f s.env s.yard)) :
    Retains s (s.whenRunning f) := by
  unfold State.whenRunning
  split
  · exact .refl s
  · exact (Retains.refl s).yard h

theorem retains_onYard {f : Env → Yard → Yard} (h : Upholds s.yard (f s.env s.yard)) : Retains s (s.onYard f) := by
  unfold State.onYard
  split
  · exact .refl s
  · exact (Retains.refl s).yard h

theorem retains_plantInput {w : Nat} {i : PlantInput} {f : Env → Yard → Yard}
    (h : ∀ {e y z}, Upholds y z → Upholds y (f e z)) : Retains s (s.plantInput w i f) :=
  (retains_onYard (upholds_setPlant _ _ _ (.refl _))).trans (retains_whenRunning (h (.refl _)))

/-! ## The reset state (R222) -/

/-- A reset state, whatever waits in the queue and however pin and supply stand. -/
def State.IsReset (t : State) : Prop :=
  ∃ p pin sup, t = { State.reset with pending := p, pinLow := pin, supplyLow := sup }

theorem reset_isReset : State.reset.IsReset := ⟨_, _, _, rfl⟩

theorem reset_clock_inRange : State.reset.clock.inRange := ⟨by decide, by decide, fun m none => nomatch none⟩

theorem reset_scan_inRange : State.reset.scan.inRange := ⟨by decide, by decide, by decide⟩

theorem State.IsReset.registersInRange (h : t.IsReset) : t.registersInRange := by
  obtain ⟨p, pin, sup, rfl⟩ := h
  exact ⟨reset_clock_inRange, reset_scan_inRange, fun f none => nomatch none⟩

theorem State.IsReset.layoutHeld (h : t.IsReset) : t.layoutHeld := by
  obtain ⟨p, pin, sup, rfl⟩ := h
  exact layoutHeld_iff.2 rfl

theorem State.IsReset.custodyKept (h : t.IsReset) : t.yard.custodyKept := by
  obtain ⟨p, pin, sup, rfl⟩ := h
  exact ⟨Nat.zero_le _, .nil, .nil⟩

theorem State.IsReset.unlaid (h : t.IsReset) : t.phase = .config ∧ t.layout = {} ∧ t.store = {} := by
  obtain ⟨p, pin, sup, rfl⟩ := h
  exact ⟨rfl, rfl, rfl⟩

/-! ## The layout store, LOCK and START (R210, R215) -/

/-- The codes 1 to 9 are taken in CONFIG alone (R210). -/
theorem takenIn_config {code : Nat} (high : code ≤ 9) {p : Phase} (h : takenIn code p = true) : p = .config := by
  cases p with
  | config => rfl
  | locked =>
    simp only [takenIn, Bool.or_eq_true, decide_eq_true_eq] at h
    omega
  | running =>
    simp only [takenIn, Bool.or_eq_true, decide_eq_true_eq, beq_iff_eq] at h
    omega

theorem takenIn_start {p : Phase} (h : takenIn 14 p = true) : p = .locked := by
  cases p with
  | locked => rfl
  | _ => simp [takenIn] at h

theorem retains_store (config : s.phase = .config) (l : Layout) : Retains s { s with store := l } :=
  ⟨id, id, id, fun outside => absurd config outside⟩

/-- The blocks hold the layout that they have taken up. -/
theorem takeUp_cfgs (l : Layout) (y : Yard) :
    (takeUp l y).cfgs = (l.lanes, l.pumps, l.washes, l.points, l.signs.map (·.number)) := by
  simp [takeUp, Function.comp_def, WashCfg.newLane]

theorem retains_takeUp (config : s.phase = .config) :
    Retains s { s with phase := .locked, layout := s.store, yard := takeUp s.store s.yard } :=
  ⟨id, fun _ => layoutHeld_iff.2 (takeUp_cfgs _ _), id, fun outside => absurd config outside⟩

theorem retains_running (locked : s.phase = .locked) : Retains s { s with phase := .running } :=
  ⟨id, id, id, fun _ => ⟨rfl, rfl, .inr ⟨locked, rfl⟩⟩⟩

/-! ## The clock (R43 to R47) -/

theorem Clock.inRange_see {c : Clock} {m : Nat} (hc : c.inRange) (hm : m < 1440) : (c.see m).inRange := by
  obtain ⟨minute, seconds, seen⟩ := hc
  have noted : ({ c with seen := some m } : Clock).inRange := ⟨minute, seconds, fun v hv => Option.some.inj hv ▸ hm⟩
  unfold Clock.see
  (repeat' split)
  · exact noted
  · exact noted
  · exact ⟨minute, seconds, seen⟩

theorem retains_changeMinute {c : Clock} (h : Retains u s) (clock : u.registersInRange → c.inRange) :
    Retains u (s.changeMinute c) :=
  h.parts (upholds_settle (upholds_minuteChange _ _ (.refl _))) clock id rfl

theorem retains_takeTime {m : Nat} (h : Retains u s) (minute : u.registersInRange → m < 1440) :
    Retains u (s.takeTime m) := by
  have withdrawn := upholds_withdrawTime (e := s.env) m (.refl s.yard)
  have seen : u.registersInRange → (s.clock.see m).inRange := fun r => Clock.inRange_see (h.registers r).1 (minute r)
  unfold State.takeTime
  split
  · exact h.parts withdrawn seen id rfl
  · split
    · refine retains_changeMinute (h.yard (withdrawn.same rfl)) fun r => ?_
      obtain ⟨-, -, known⟩ := seen r
      exact ⟨minute r, Nat.zero_lt_succ _, known⟩
    · exact h

theorem retains_timeReceived (s : State) : Retains s s.timeReceived := by
  unfold State.timeReceived
  split
  · exact .refl s
  · split
    · rename_i head
      refine retains_takeTime ((Retains.refl s).yard (upholds_dropHead (.refl _))) fun r => ?_
      obtain ⟨-, -, minutes⟩ := r
      exact minutes _ (List.mem_of_find?_eq_some head) _ rfl
    · exact .refl s

theorem retains_rollover (s : State) : Retains s s.rollover := by
  have next : ∀ {x}, Retains s x → Retains s (x.changeMinute
      { x.clock with minute := (s.clock.minute + 1) % 1440, seconds := 0, subMs := 0, seen := none }) :=
    fun hx => retains_changeMinute hx fun _ => ⟨Nat.mod_lt _ (by decide), Nat.zero_lt_succ _, fun m none => nomatch none⟩
  unfold State.rollover
  split
  · exact .refl s
  · dsimp only
    split
    · exact next ((Retains.refl s).yard (upholds_announce _ _ (.refl _)))
    · exact next (.refl s)

theorem retains_countSecond (s : State) : Retains s s.countSecond := by
  unfold State.countSecond
  split
  · exact .refl s
  · rename_i counts
    refine (Retains.refl s).parts (.refl _) (fun r => ?_) id rfl
    obtain ⟨⟨minute, -, seen⟩, -⟩ := r
    have below : s.clock.seconds < 59 := by
      simp only [Bool.or_eq_true, decide_eq_true_eq, not_or] at counts
      omega
    exact ⟨minute, Nat.succ_lt_succ below, seen⟩

theorem retains_tick (s : State) : Retains s s.tick := by
  unfold State.tick
  split
  · exact .refl s
  · refine (Retains.refl s).parts (upholds_tick (.refl _)) (fun r => ?_) id rfl
    dsimp only
    split <;> exact r.1

theorem retains_idle (s : State) : Retains s s.idle := by
  unfold State.idle
  split
  · exact (Retains.refl s).same rfl
  · exact retains_tick s

/-! ## The scanner (R187, R188) -/

theorem read_run_le {n : Nat} {b : Bool} {c : Contact} : (c.read n b).1.run ≤ 16 := by
  rw [read_contact]
  split_ifs
  · exact Nat.zero_le _
  · exact Nat.zero_le _
  · exact Nat.min_le_left _ _

theorem readAt_run_le {n r : Nat} {cols : BitVec 8} {p : Contact × Nat} (h : p.1.run ≤ 16) :
    (readAt n r cols p).1.run ≤ 16 := by
  unfold readAt
  split
  · exact read_run_le
  · exact h

theorem scanned_inRange (cols : BitVec 8) (h : s.scan.inRange) : (s.scanned cols).inRange := by
  obtain ⟨-, length, runs⟩ := h
  refine ⟨Nat.mod_lt _ (by decide), readRow_length.trans length, fun x hx => ?_⟩
  rw [State.scanned, readRow_eq] at hx
  obtain ⟨p, hp, rfl⟩ := List.mem_map.1 hx
  exact readAt_run_le (runs _ (List.fst_mem_of_mem_zipIdx hp))

theorem retains_rowScan (cols : BitVec 8) (s : State) : Retains s (s.rowScan cols) := by
  by_cases hs : s.inReset
  · simp only [State.rowScan, hs, if_true]
    exact .refl s
  · rw [rowScan_eq cols (by simpa using hs)]
    refine (Retains.refl s).parts ?_ (fun r => r.1) (scanned_inRange cols) rfl
    dsimp only
    split
    · exact upholds_foldl (fun ev _ => upholds_contactEvent _ ev) _ (.refl _)
    · exact .refl _

end Sys2Proof.Machine
end

section
/-! SUPPORT. What the host's commands retain (R210), as a row of the table and as a record on the link; then every command and
every step. -/

namespace Sys2Proof.Machine

variable {s t : State}

/-! ## Answers (R209) -/

/-- What a block answers retains. -/
def Reply.Retained (s : State) : Reply → Prop
  | .done t _ => Retains s t
  | .refused _ _ => True

theorem retained_unchanged (s : State) (data : List Byte) : (Reply.done s data).Retained s := Retains.refl s

theorem retained_inYard {f : Env → Yard → Yard} (h : Upholds s.yard (f s.env s.yard)) :
    (Reply.ok (s.inYard f)).Retained s := retains_inYard h

theorem retains_answer (code : Nat) (r : HostResult) (data : List Byte) (s : State) :
    Retains s (s.answer code r data) := (Retains.refl s).same rfl

theorem retains_give {r : Reply} (code : Nat) (h : r.Retained s) : Retains s (r.give code s) := by
  cases r with
  | done t data => exact Retains.trans h (retains_answer _ _ _ t)
  | refused r data => exact retains_answer _ _ _ s

theorem retains_command {code : Nat} {f : State → Reply} (h : takenIn code s.phase = true → (f s).Retained s) :
    Retains s (s.command code f) := by
  unfold State.command
  split
  · exact .refl s
  · split
    · exact retains_give code (h ‹_›)
    · exact retains_answer _ _ _ s

theorem retains_wait (record : List Byte) (s : State) : Retains s (s.wait record) := by
  unfold State.wait
  split
  · exact (Retains.refl s).same rfl
  · exact (Retains.refl s).same rfl

theorem retains_hostRow {i : Instr} {code : Nat} {f : State → Reply}
    (h : takenIn code s.phase = true → (f s).Retained s) : Retains s (s.hostRow i code f) := by
  unfold State.hostRow
  split
  · exact retains_wait _ s
  · exact retains_command h

/-! ## The layout commands, LOCK, START and SET CLOCK -/

theorem retained_storeItem {α : Type} (item : Option α) (put : α → Layout → Layout) (config : s.phase = .config) :
    (storeItem item put s).Retained s := by
  cases item with
  | none => trivial
  | some x => exact retains_store config _

theorem retained_lock (config : s.phase = .config) : (cmdLock s).Retained s := by
  unfold cmdLock
  split
  · trivial
  · exact retains_takeUp config

theorem retained_start (locked : s.phase = .locked) : (cmdStart s).Retained s := by
  unfold cmdStart
  split
  · exact (retains_running locked).trans (retains_inYard (upholds_startBlocks _ (.refl _)))
  · trivial

theorem retained_setClock (minute seconds : Nat) (s : State) : (cmdSetClock minute seconds s).Retained s := by
  unfold cmdSetClock
  split
  · rename_i fields
    simp only [minuteOk, Bool.and_eq_true, decide_eq_true_eq] at fields
    obtain ⟨ofDay, ofMinute⟩ := fields
    have clock : ({ minute := minute, seconds := seconds, valid := true, seen := none, subMs := 0 } : Clock).inRange :=
      ⟨Nat.lt_succ_of_le ofDay, Nat.lt_succ_of_le ofMinute, fun m none => nomatch none⟩
    dsimp only
    split
    · exact (Retains.refl s).parts (.refl _) (fun _ => clock) id rfl
    · split
      · exact retains_changeMinute (.refl s) fun _ => clock
      · trivial
  · trivial

/-! ## Lanes, stock, duties, units -/

theorem retained_placeParked (n : Nat) (b : BusFields) (s : State) : (cmdPlaceParked n b s).Retained s := by
  unfold cmdPlaceParked
  split
  · split
    · trivial
    · split
      · split
        · trivial
        · trivial
        · exact retained_inYard (upholds_placeParked ‹_› (.refl _))
      · trivial
  · trivial

theorem retained_setStock (f : Fuel) (v : Nat) (s : State) : (cmdSetStock f v s).Retained s := by
  unfold cmdSetStock
  split
  · exact retained_inYard (upholds_setStock _ _ (.refl _))
  · trivial

theorem retained_delivery (f : Fuel) (v : Nat) (s : State) : (cmdDelivery f v s).Retained s := by
  unfold cmdDelivery
  dsimp only
  split
  · exact retained_inYard (upholds_deliver _ _ (.refl _))
  · trivial

theorem retained_loadDuty (f : DutyFields) (s : State) : (cmdLoadDuty f s).Retained s := by
  unfold cmdLoadDuty
  dsimp only
  (repeat' split)
  · trivial
  · trivial
  · trivial
  · trivial
  · exact retained_inYard (upholds_loadDuty f (.refl _))

theorem retained_dropDuty (n : Nat) (s : State) : (cmdDropDuty n s).Retained s := by
  have dropped : (Reply.ok (s.inYard (dropDuty n))).Retained s := retained_inYard (upholds_dropDuty n (.refl _))
  unfold cmdDropDuty
  (repeat' split)
  · trivial
  · trivial
  · exact dropped
  · exact dropped
  · trivial

theorem retained_setClosed (n : Nat) (b : Bool) (s : State) : (setClosed n b s).Retained s := by
  unfold setClosed
  split
  · trivial
  · exact (Retains.refl s).yard (upholds_setClosed n b (.refl _))

theorem retained_reopenPump (p : Nat) (s : State) : (cmdReopenPump p s).Retained s := by
  unfold cmdReopenPump
  (repeat' split)
  · trivial
  · exact retained_inYard (upholds_reopenPump p (.refl _))
  · exact retained_unchanged s _

theorem retained_reopenWash (w : Nat) (s : State) : (cmdReopenWash w s).Retained s := by
  have freed : (Reply.ok (s.inYard fun e y => freeWash e w y)).Retained s :=
    retained_inYard (upholds_freeWash w (.refl _))
  unfold cmdReopenWash
  (repeat' split)
  · trivial
  · trivial
  · exact freed
  · exact freed
  · exact retained_unchanged s _

/-! ## ADMIT and RESOLVE -/

theorem retained_admit (b : BusFields) (s : State) : (cmdAdmit b s).Retained s := by
  unfold cmdAdmit
  dsimp only
  (repeat' split)
  · trivial
  · trivial
  · trivial
  · exact retained_inYard (upholds_admitBus b (.refl _))

theorem retained_resolveAt (r : Record) (k : PointKind) (i : Nat) (s : State) : (resolveAt r k i s).Retained s := by
  unfold resolveAt
  dsimp only
  cases k with
  | gateIn => exact retained_inYard (upholds_resolveGateIn _ (.refl _))
  | gateOut => exact retained_inYard (upholds_resolveGone _ (.refl _))
  | apronIn =>
    dsimp only
    (repeat' split)
    · trivial
    · exact retained_inYard (upholds_resolveApron r (.refl _))
    · trivial
  | washIn =>
    dsimp only
    (repeat' split)
    · trivial
    · trivial
    · rename_i pushed
      exact (Retains.refl s).yard (upholds_resolveWash _ _ (upholds_pushExpect pushed (.refl _)))
    · trivial
    · trivial
  | laneIn =>
    dsimp only
    (repeat' split)
    · trivial
    · trivial
    · exact retained_inYard (upholds_resolveLane _ _ (.refl _))
    · trivial
  | _ => trivial

theorem retained_resolveAtPoint (f : Nat) (k : PointKind) (i : Nat) (s : State) :
    (cmdResolveAtPoint f k i s).Retained s := by
  unfold cmdResolveAtPoint
  (repeat' split)
  · trivial
  · exact retained_resolveAt _ _ _ s
  · trivial

theorem retained_resolveReseek (f : Nat) (s : State) : (cmdResolveReseek f s).Retained s := by
  unfold cmdResolveReseek
  split
  · trivial
  · exact retained_inYard (upholds_resolveReseek f (.refl _))

theorem retained_resolveLeftYard (f : Nat) (s : State) : (cmdResolveLeftYard f s).Retained s := by
  unfold cmdResolveLeftYard
  split
  · trivial
  · exact retained_inYard (upholds_resolveGone f (.refl _))

/-! ## Reads, CLEAR FLAGS, TAKE NOTICE and RESET -/

theorem retained_readRecord (f : Nat) (s : State) : (cmdReadRecord f s).Retained s := by
  unfold cmdReadRecord
  (repeat' split)
  · exact retained_unchanged s _
  · trivial
  · trivial

theorem retained_readLane (n : Nat) (s : State) : (cmdReadLane n s).Retained s := by
  unfold cmdReadLane
  split
  · exact retained_unchanged s _
  · trivial

theorem retained_readApron (s : State) : (cmdReadApron s).Retained s := by
  unfold cmdReadApron
  split
  · exact retained_unchanged s _
  · trivial

theorem retained_readWashQueue (w : Nat) (s : State) : (cmdReadWashQueue w s).Retained s := by
  unfold cmdReadWashQueue
  split
  · exact retained_unchanged s _
  · trivial

theorem retained_readDuty (n : Nat) (s : State) : (cmdReadDuty n s).Retained s := by
  unfold cmdReadDuty
  (repeat' split)
  · trivial
  · exact retained_unchanged s _
  · trivial

theorem retained_readDuties (s : State) : (cmdReadDuties s).Retained s := by
  unfold cmdReadDuties
  split
  · trivial
  · exact retained_unchanged s _

theorem retained_clearFlags (f : ClearFields) (s : State) : (cmdClearFlags f s).Retained s :=
  (Retains.refl s).parts (upholds_clearYard f (.refl _)) (fun r => r.1) id rfl

theorem retained_takeNotice (s : State) : (cmdTakeNotice s).Retained s := by
  unfold cmdTakeNotice
  split
  · exact retained_unchanged s _
  · exact (Retains.refl s).yard ((Upholds.refl _).same rfl)

theorem retained_reset (s : State) : (cmdReset s).Retained s := (Retains.refl s).same rfl

/-! ## Records read as commands (R207 to R209) -/

theorem retained_withFields {α : Type} {r : Reader α} {fs : List Byte} {f : α → State → Reply}
    (h : ∀ x, (f x s).Retained s) : (withFields r fs f s).Retained s := by
  unfold withFields
  split
  · exact h _
  · trivial

theorem retained_noFields {fs : List Byte} {f : State → Reply} (h : (f s).Retained s) : (noFields fs f s).Retained s :=
  by
  cases fs with
  | nil => exact h
  | cons => trivial

theorem retained_resolveFields (fs : List Byte) (s : State) : (resolveFields fs s).Retained s := by
  unfold resolveFields
  dsimp only
  (repeat' split)
  · exact retained_resolveAtPoint _ _ _ s
  · trivial
  · trivial
  · exact retained_noFields (retained_resolveReseek _ s)
  · exact retained_noFields (retained_resolveLeftYard _ s)
  · trivial
  · trivial

theorem retained_readFields (fs : List Byte) (s : State) : (readFields fs s).Retained s := by
  unfold readFields
  (repeat' split)
  · exact retained_withFields fun _ => retained_readRecord _ s
  · exact retained_withFields fun _ => retained_readLane _ s
  · exact retained_noFields (retained_readApron s)
  · exact retained_withFields fun _ => retained_readWashQueue _ s
  · exact retained_withFields fun _ => retained_readDuty _ s
  · exact retained_noFields (retained_readDuties s)
  · exact retained_noFields (retained_unchanged s _)
  · exact retained_noFields (retained_unchanged s _)
  · exact retained_noFields (retained_unchanged s _)
  · exact retained_noFields (retained_unchanged s _)
  · trivial
  · trivial

theorem retained_commandOf {code : Nat} (fs : List Byte) (h : takenIn code s.phase = true) :
    (commandOf code fs s).Retained s := by
  have config : code ≤ 9 → s.phase = .config := fun high => takenIn_config high h
  unfold commandOf
  split
  · exact retained_withFields fun _ => retained_storeItem _ _ (config (by decide))
  · exact retained_withFields fun _ => retained_storeItem _ _ (config (by decide))
  · exact retained_withFields fun _ => retained_storeItem _ _ (config (by decide))
  · exact retained_withFields fun _ => retained_storeItem _ _ (config (by decide))
  · exact retained_withFields fun _ => retained_storeItem _ _ (config (by decide))
  · exact retained_withFields fun _ => retained_storeItem _ _ (config (by decide))
  · exact retained_withFields fun _ => retained_storeItem _ _ (config (by decide))
  · exact retained_withFields fun _ => retained_storeItem _ _ (config (by decide))
  · exact retained_noFields (retained_lock (config (by decide)))
  · exact retained_withFields fun _ => retained_setClock _ _ s
  · exact retained_withFields fun _ => retained_placeParked _ _ s
  · exact retained_withFields fun _ => retained_setStock _ _ s
  · exact retained_withFields fun _ => retained_loadDuty _ s
  · exact retained_noFields (retained_start (takenIn_start h))
  · exact retained_withFields fun _ => retained_dropDuty _ s
  · exact retained_withFields fun _ => retained_delivery _ _ s
  · exact retained_withFields fun _ => retained_setClosed _ _ s
  · exact retained_withFields fun _ => retained_setClosed _ _ s
  · exact retained_withFields fun _ => retained_reopenPump _ s
  · exact retained_withFields fun _ => retained_reopenWash _ s
  · exact retained_withFields fun _ => retained_admit _ s
  · exact retained_resolveFields _ s
  · exact retained_readFields _ s
  · exact retained_withFields fun _ => retained_clearFlags _ s
  · exact retained_noFields (retained_takeNotice s)
  · exact retained_noFields (retained_reset s)
  · trivial

theorem retains_unknownCode (code : Nat) (s : State) : Retains s (s.unknownCode code) := by
  unfold State.unknownCode
  split
  · exact .refl s
  · exact retains_answer _ _ _ s

theorem retains_carryOut (record : List Byte) (s : State) : Retains s (s.carryOut record) := by
  unfold State.carryOut
  split
  · exact retains_wait _ s
  · split
    · exact .refl s
    · split
      · exact retains_command fun h => retained_commandOf _ h
      · exact retains_unknownCode _ s

/-- Only the host link changes. -/
theorem retains_host (h : HostLink) (s : State) : Retains s { s with host := h } := (Retains.refl s).same rfl

theorem retains_hostByte (byte : Byte) (fault : Bool) (s : State) : Retains s (s.hostByte byte fault) := by
  unfold State.hostByte
  split
  · exact .refl s
  · dsimp only
    split
    · exact retains_host _ s
    · exact (retains_host _ s).trans (retains_carryOut _ _)

theorem retains_byteTimeout (s : State) : Retains s s.byteTimeout := by
  unfold State.byteTimeout
  split
  · exact .refl s
  · exact retains_host _ s

/-! ## Every command and every step -/

/-- What a meaning leaves, if it is carried out, retains, or is a reset state. -/
def Outcome.Retained (s : State) (o : Host.Outcome State Fault Refusal) : Prop :=
  ∀ t, o = .next t → Retains s t ∨ t.IsReset

theorem Retains.outcome (h : Retains s t) : Outcome.Retained s (.next t) := by
  rintro t' ⟨⟩
  exact .inl h

theorem State.IsReset.outcome (h : t.IsReset) : Outcome.Retained s (.next t) := by
  rintro t' ⟨⟩
  exact .inr h

theorem afterReset_isReset (s : State) : s.afterReset.IsReset := ⟨_, _, _, rfl⟩

theorem answerSent_retained (s : State) : Outcome.Retained s (.next s.answerSent) := by
  unfold State.answerSent
  split
  · exact (Retains.refl s).outcome
  · split
    · exact (afterReset_isReset s).outcome
    · dsimp only
      split
      · exact (retains_host _ s).outcome
      · exact ((retains_host _ s).trans (retains_carryOut _ _)).outcome

/-- A yard event, through the rule of its action. -/
theorem event_retained {f : Env → Yard → Yard} (h : ∀ {e y z}, Upholds y z → Upholds y (f e z)) :
    Outcome.Retained s (.next (s.whenRunning f)) := (retains_whenRunning (h (.refl _))).outcome

/-- A command that fills the layout store. -/
theorem storeRow_retained {α : Type} {i : Instr} {code : Nat} {item : Option α} {put : α → Layout → Layout}
    (high : code ≤ 9) : Outcome.Retained s (.next (s.hostRow i code (storeItem item put))) :=
  (retains_hostRow fun h => retained_storeItem _ _ (takenIn_config high h)).outcome

/-- A host command whose own rule needs no phase. -/
theorem row_retained {i : Instr} {code : Nat} {f : State → Reply} (h : (f s).Retained s) :
    Outcome.Retained s (.next (s.hostRow i code f)) := (retains_hostRow fun _ => h).outcome

theorem exec_retained (i : Instr) (s : State) : Outcome.Retained s (exec i s) := by
  cases i with
  | setStation f => exact storeRow_retained (by decide)
  | addLane f => exact storeRow_retained (by decide)
  | addPump f => exact storeRow_retained (by decide)
  | setIsland f => exact storeRow_retained (by decide)
  | addWash f => exact storeRow_retained (by decide)
  | setGate f => exact storeRow_retained (by decide)
  | mapPoint f => exact storeRow_retained (by decide)
  | setParameter p v => exact storeRow_retained (by decide)
  | lock => exact (retains_hostRow fun h => retained_lock (takenIn_config (by decide) h)).outcome
  | start => exact (retains_hostRow fun h => retained_start (takenIn_start h)).outcome
  | setClock minute seconds => exact row_retained (retained_setClock _ _ s)
  | placeParked lane bus => exact row_retained (retained_placeParked _ _ s)
  | setStock f v => exact row_retained (retained_setStock _ _ s)
  | loadDuty f => exact row_retained (retained_loadDuty _ s)
  | dropDuty n => exact row_retained (retained_dropDuty _ s)
  | delivery f v => exact row_retained (retained_delivery _ _ s)
  | closeLane l => exact row_retained (retained_setClosed _ _ s)
  | openLane l => exact row_retained (retained_setClosed _ _ s)
  | reopenPump p => exact row_retained (retained_reopenPump _ s)
  | reopenWash w => exact row_retained (retained_reopenWash _ s)
  | admitBus bus => exact row_retained (retained_admit _ s)
  | resolveAtPoint f k i => exact row_retained (retained_resolveAtPoint _ _ _ s)
  | resolveReseek f => exact row_retained (retained_resolveReseek _ s)
  | resolveLeftYard f => exact row_retained (retained_resolveLeftYard _ s)
  | readRecord f => exact row_retained (retained_readRecord _ s)
  | readLane l => exact row_retained (retained_readLane _ s)
  | readApron => exact row_retained (retained_readApron s)
  | readWashQueue w => exact row_retained (retained_readWashQueue _ s)
  | readDuty n => exact row_retained (retained_readDuty _ s)
  | readDuties => exact row_retained (retained_readDuties s)
  | readSeekTable => exact row_retained (retained_unchanged s _)
  | readCounters => exact row_retained (retained_unchanged s _)
  | readLineSummary => exact row_retained (retained_unchanged s _)
  | readStatus => exact row_retained (retained_unchanged s _)
  | clearFlags f => exact row_retained (retained_clearFlags _ s)
  | takeNotice => exact row_retained (retained_takeNotice s)
  | reset => exact row_retained (retained_reset s)
  | unknownCommandCode code =>
    refine Retains.outcome ?_
    split
    · exact .refl s
    · exact retains_carryOut _ s
  | resetAfterAnswer =>
    show Outcome.Retained s (.next (if s.inReset || !s.host.resetPending then s else s.afterReset))
    split
    · exact (Retains.refl s).outcome
    · exact (afterReset_isReset s).outcome
  | hostByteReceived byte fault => exact (retains_hostByte _ _ s).outcome
  | hostInterbyteTimeout => exact (retains_byteTimeout s).outcome
  | hostAnswerSent => exact answerSent_retained s
  | resetPinAsserted => exact State.IsReset.outcome ⟨_, _, _, rfl⟩
  | resetPinReleased =>
    show Outcome.Retained s (.next (if s.pinLow then { s.afterReset with pinLow := false } else s))
    split
    · exact State.IsReset.outcome ⟨_, _, _, rfl⟩
    · exact (Retains.refl s).outcome
  | powerUp => exact State.IsReset.outcome ⟨_, _, _, rfl⟩
  | opening others => exact event_retained (upholds_opening _)
  | frameCarried bits => exact event_retained (upholds_frameCarried _)
  | frameDamaged cause => exact event_retained (upholds_frameDamaged _)
  | sendDamaged => exact event_retained upholds_sendDamaged
  | lineFollowBegin => exact event_retained upholds_lineFollowBegin
  | seekReceived => exact event_retained upholds_seekReceived
  | offerReceived => exact event_retained upholds_offerReceived
  | takenReceived => exact event_retained (upholds_answerReceived _)
  | holdReceived => exact event_retained (upholds_answerReceived _)
  | refuseReceived => exact event_retained (upholds_answerReceived _)
  | handoverReceived => exact event_retained upholds_handoverReceived
  | claimReceived => exact event_retained upholds_claimReceived
  | cancelReceived => exact event_retained upholds_cancelReceived
  | repinReceived => exact event_retained upholds_repinReceived
  | timeReceived => exact (retains_timeReceived s).outcome
  | minuteRollover => exact (retains_rollover s).outcome
  | retryTimerExpiry n => exact event_retained (upholds_retryExpiry _)
  | offerHoldExpiry offer => exact event_retained (upholds_offerHoldExpiry _ _)
  | awaitingHoldExpiry n => exact event_retained (upholds_awaitingHoldExpiry _)
  | answerTimerExpiry i => exact event_retained (upholds_answerExpiry _)
  | holdIntervalEnd i => exact event_retained (upholds_holdEnd _)
  | rowScan cols => exact (retains_rowScan _ s).outcome
  | dwellTimerExpiry row col => exact event_retained (upholds_dwellExpiry _ _)
  | travelTimeout f => exact event_retained (upholds_travelTimeout _)
  | pumpCallTimeout p => exact event_retained (upholds_pumpSkip _)
  | nozzleLift p => exact event_retained (upholds_nozzleLift _)
  | nozzleHang p => exact event_retained (upholds_nozzleHang _)
  | meterPulse p => exact event_retained (upholds_meterPulse _)
  | noFlowTimeout p => exact event_retained (upholds_noFlow _)
  | agingTimerExpiry => exact event_retained upholds_agingEnd
  | washCallTimeout w => exact event_retained (upholds_washSkip _)
  | busy w => exact (retains_plantInput (upholds_washBusy _)).outcome
  | startTimeout w => exact event_retained (upholds_startExpiry _)
  | done w => exact (retains_plantInput (upholds_washDone _)).outcome
  | fault w => exact (retains_plantInput (upholds_washOut _ _)).outcome
  | pollTimerExpiry low => exact event_retained (upholds_pollTimer _)
  | pollTransactionEnd sda => exact event_retained (upholds_pollEnd _)
  | tagWindowExpiry arrivals => exact event_retained (upholds_windowEnd _)
  | signRecordSent => exact event_retained upholds_signSent
  | plantInputReleased w i => exact (retains_onYard (upholds_setPlant _ _ _ (.refl _))).outcome
  | i2cStartStopSeen start => exact (retains_onYard (upholds_startStop _ (.refl _))).outcome
  | secondsCount => exact (retains_countSecond s).outcome

theorem step_retained (s : State) : Outcome.Retained s (step s) := by
  unfold step
  split
  · rename_i c rest _
    have taken : Retains s { s with pending := rest } := (Retains.refl s).same rfl
    exact fun t ht => (exec_retained c _ t ht).imp_left taken.trans
  · exact (retains_idle s).outcome

end Sys2Proof.Machine
end

section
/-! The statements on what every step keeps. -/

namespace Sys2Proof.Proofs.Whole

open Sys2Proof Sys2Proof.Machine

/-- Settles O5: the reset state is unlaid, so nothing is held, listed or expected. -/
theorem resetStateIsWellKept : Obligations.ResetStateIsWellKept :=
  ⟨reset_isReset.registersInRange, reset_isReset.layoutHeld, reset_isReset.custodyKept,
    withinBounds_iff.2 bounded_reset, placesKept_iff.2 ⟨vacant_reset.placed _, fun _ => vacant_reset.quiet⟩⟩

/-- Settles O6: a pooled TIME has passed the malformed check, so what the clock takes from it is a minute of the day. -/
theorem stepKeepsRegistersInRange : Obligations.StepKeepsRegistersInRange := fun s t registers ht =>
  (step_retained s t ht).elim (·.registers registers) (·.registersInRange)

/-- Settles O7: no operation writes a resource's layout fields; LOCK takes up the layout that it puts in force. -/
theorem stepKeepsTheLayoutHeld : Obligations.StepKeepsTheLayoutHeld := fun s t held ht =>
  (step_retained s t ht).elim (·.layout held) (·.layoutHeld)

/-- Settles O8: records are added after the answer INSERTED alone, and the seeking list moves a fleet to its end. -/
theorem stepKeepsTheCustodyTable : Obligations.StepKeepsTheCustodyTable := fun s t kept ht =>
  (step_retained s t ht).elim (·.custody kept) (·.custodyKept)

/-- Settles O10: the commands that write layout or store are taken in CONFIG alone, START in LOCKED alone. -/
theorem layoutIsFixedUntilReset : Obligations.LayoutIsFixedUntilReset := fun i s t outside ht =>
  (exec_retained i s t ht).symm.imp (·.unlaid) (·.fixed outside)

end Sys2Proof.Proofs.Whole
end
